-- ==== Sys2Proof/Word.lean ====
section
/-! DEFINITION. Word.lean: the bit vectors of the part and its plainest arithmetic (00_scope section 6). -/

namespace Sys2Proof

/-- One byte of a frame, a page or a tape block. -/
abbrev Byte := BitVec 8

/-- A 32-bit quantity that wraps (the time base, R170; the catalog's serials, R134) or is treated as bits (R191). -/
abbrev Word32 := BitVec 32

/-- A lane, a drive bay or a drive mechanism: 0 to 3. -/
abbrev LaneId := Fin 4

/-- A stream context: 0 to 31 (R1). -/
abbrev StreamId := Fin 32

/-- A directory index: 0 to 63 (R90). -/
abbrev CartId := Fin 64

/-- The largest value of a 32-bit quantity. -/
def max32 : Nat := 4294967295

/-- 'A quantity said to saturate stays at its upper limit instead of wrapping' (00_scope section 6). -/
def satAdd (limit a b : Nat) : Nat := min limit (a + b)

/-- Ticks elapsed from one time base value to a later one, modulo 2^32 (R170). -/
def elapsed (start now : Word32) : Nat := (now - start).toNat

end Sys2Proof
end

