-- ==== Sys2Proof/Config.lean ====
section
/-! DEFINITION. Config.lean: what the part fixes (00_scope Table 2) and the values the spec leaves free.
A constant without a body is a free value: no proof can see what it is. -/

namespace Sys2Proof.Config

/-- Bytes of a page and of the largest chunk (R8, R38). -/
def pageBytes : Nat := 4096

/-- Pages of one tape block (R42). -/
def blockPages : Nat := 16

/-- Bytes of a tape block (R194). -/
def blockBytes : Nat := 65536

/-- Bytes of a block left for records (R46). -/
def payloadBytes : Nat := 65504

/-- Size of the largest record (R20, R30). -/
def largestRecord : Nat := 4112

/-- Pages of the buffer pool (R38). -/
def poolPages : Nat := 2048

/-- Entries the catalog holds (R131). -/
def catalogEntries : Nat := 4096

/-- The catalog's high mark (R135). -/
def highMark : Nat := 3584

/-- Requests the mount queue and the verify queue each hold (R119, R143). -/
def mountRoom : Nat := 8

/-- Requests the restore queue holds (R158). -/
def restoreRoom : Nat := 16

/-- Replies the reply list holds (R184). -/
def replyRoom : Nat := 8

/-- Notices the notice queue holds (R188). -/
def noticeRoom : Nat := 64

/-- The family and part identity of the STATUS reply (R189), which the spec does not give: log entry 13. -/
opaque identity : List Byte

/-- The real position after a count that would carry it off the axis (R114, Table 15): log entry 10. -/
opaque freePosition : Nat → BitVec 16

/-- A 32-bit count or an end of data after a change that would carry it past 4,294,967,295 (Tables 13, 19
and 20): log entries 11 and 12. -/
opaque freeCount : Nat → BitVec 32

end Sys2Proof.Config
end

