-- ==== Sys2Proof/Syntax.lean ====
section
/-! DEFINITION. Syntax.lean: the commands of the part, one constructor per row of spec/opcode_table.json.
A request's operands are the numbers its frame carries (R192), before any range test: the owning rule tests them. -/

namespace Sys2Proof

/-- What every CTL and SEG frame carries beside its payload: the tag and the subject (R192 Table 21). -/
structure Hdr where
  tag : Nat
  subject : Nat
  deriving DecidableEq, Repr

/-- The record body of a directory write (R95, Table 13): every field but needs locate, as numbers. -/
structure RecordArg where
  label : List Byte
  pool : Nat
  state : Nat
  location : Nat
  home : Nat
  endOfData : Nat
  floor : Nat
  worm : Nat
  verifiedTo : Nat
  deriving DecidableEq, Repr

/-- One entry of a lane role write (R58): kind 0 WRITE with a pool, kind 1 READ. -/
structure RoleArg where
  kind : Nat
  pool : Nat
  deriving DecidableEq, Repr

/-- The six quotas of a pool split write (R39). -/
structure QuotaArg where
  ingest : Nat
  lane0 : Nat
  lane1 : Nat
  lane2 : Nat
  lane3 : Nat
  read : Nat
  deriving DecidableEq, Repr

/-- An event kind with a qualifier (255 is "any"); kind 12 is BY_ACTION for a capture source and NONE for a
trigger factor (R172, R177). -/
structure SourceArg where
  kind : Nat
  qual : Nat
  deriving DecidableEq, Repr

/-- An action of a trigger set (R179), numbered 0 to 7 in the order of its table, with up to two arguments. -/
structure ActionArg where
  kind : Nat
  x : Nat
  y : Nat
  deriving DecidableEq, Repr

/-- One set of a trigger table write (R177). -/
structure TriggerArg where
  number : Nat
  factor : SourceArg
  actions : List ActionArg
  chain : Nat
  mode : Nat
  faultGuard : Bool
  deriving DecidableEq, Repr

/-- One slot of a compare table write (R174). -/
structure CompareArg where
  slot : Nat
  enabled : Bool
  value : Nat
  lineMask : Nat
  lineData : Nat
  triggerMask : Nat
  deriving DecidableEq, Repr

/-- The reasons of a drive's FAIL (R60). -/
inductive FailReason where
  | mediaEnd | writeError | readError | loadError | mechanism
  deriving DecidableEq, Repr

/-- The event kinds of R171, in its order. -/
inductive EventKind where
  | moveDone | moveFault | homeFound | doorOpened | doorClosed
  | laneEw | laneHold | laneFull | laneFault | verifyMismatch | compare | segRefused
  deriving DecidableEq, Repr

/-- An event: its kind and, for the kinds that have one, its qualifier (R171). -/
structure Event where
  kind : EventKind
  qual : Option Nat
  deriving DecidableEq, Repr

/-- The commands, in the order of spec/opcode_table.json. -/
inductive Instr where
  /-- Power comes on (R190). -/
  | powerOn
  /-- The reset input is low (R190). -/
  | resetInput
  /-- The bytes received between a start and an end symbol, which R183 tests. -/
  | frameDiscarded (bytes : List Byte)
  /-- A CTL frame's payload, whose request code or length R184 refuses. -/
  | unknownRequest (h : Hdr) (payload : List Byte)
  /-- A SEG frame: stream in the subject, offset and data (R6). -/
  | segment (h : Hdr) (offset : Nat) (data : List Byte)
  /-- The end of the frame being sent (R187). -/
  | frameSent
  | openStream (h : Hdr) (pool cls verify : Nat)
  | flushStream (h : Hdr)
  | closeStream (h : Hdr)
  | abortStream (h : Hdr)
  | streamQuery (h : Hdr)
  | tableWriteSpeed (h : Hdr) (rates : List Nat)
  | tableWriteRamp (h : Hdr) (intervals : List Nat)
  /-- Pairs of a location code and a position or "unset" (R111). -/
  | tableWritePositions (h : Hdr) (pairs : List (Nat × Option Nat))
  | tableWritePoolSplit (h : Hdr) (quotas : QuotaArg)
  | tableWriteLaneRole (h : Hdr) (r0 r1 r2 r3 : RoleArg)
  | tableWriteDirectoryRecord (h : Hdr) (index : Nat) (body : RecordArg)
  | tableWriteDirectoryRemove (h : Hdr) (index : Nat)
  | tableWriteTriggers (h : Hdr) (sets : List TriggerArg)
  /-- Pairs of a slot and a source (R173). -/
  | tableWriteCaptures (h : Hdr) (pairs : List (Nat × SourceArg))
  | tableWriteCompares (h : Hdr) (slots : List CompareArg)
  /-- Pairs of a setting name and a value (R186). -/
  | tableWriteSettings (h : Hdr) (pairs : List (Nat × Nat))
  | tableReadSpeed (h : Hdr)
  | tableReadRamp (h : Hdr)
  | tableReadPositions (h : Hdr)
  | tableReadPoolSplit (h : Hdr)
  | tableReadLaneRole (h : Hdr)
  | tableReadDirectory (h : Hdr) (first count : Nat)
  | tableReadTriggers (h : Hdr)
  | tableReadCaptures (h : Hdr)
  | tableReadCompares (h : Hdr)
  | tableReadSettings (h : Hdr)
  | laneQuery (h : Hdr)
  | laneQueryClear (h : Hdr)
  | laneEject (h : Hdr)
  | laneReset (h : Hdr)
  /-- HOME, with the home sensor's reading at that moment (R116). -/
  | home (h : Hdr) (homeActive : Bool)
  | stop (h : Hdr) (mode : Nat)
  | move (h : Hdr) (index destination : Nat)
  | exportCart (h : Hdr) (index mailSlot : Nat)
  | importCart (h : Hdr) (mailSlot : Nat) (label : List Byte) (pool slot : Nat)
  | scan (h : Hdr)
  | loaderQuery (h : Hdr)
  | loaderReset (h : Hdr)
  | protect (h : Hdr) (index floor : Nat)
  | setWorm (h : Hdr) (index : Nat)
  | eraseFrom (h : Hdr) (index block : Nat)
  | recycle (h : Hdr) (index : Nat)
  | forget (h : Hdr) (index : Nat)
  | catQuery (h : Hdr)
  | catRead (h : Hdr) (start count : Nat)
  | catRelease (h : Hdr) (count : Nat) (expected : Option Nat)
  /-- A last block of 4,294,967,295 is END (R144, R192). -/
  | verify (h : Hdr) (index first last : Nat)
  | verifySuspend (h : Hdr)
  | verifyResume (h : Hdr)
  /-- Scope kind 0 a lane, 1 a cartridge index, 2 ALL (R156, R192). -/
  | verifyCancel (h : Hdr) (scope value : Nat)
  /-- The stream is the subject; a start is an index and a block (R158). -/
  | restore (h : Hdr) (first last : Nat) (start : Option (Nat × Nat))
  /-- Scope kind 0 a tag, 1 ALL (R169, R192). -/
  | restoreCancel (h : Hdr) (scope tag : Nat)
  | triggerArm (h : Hdr) (mask : Nat)
  | triggerDisarm (h : Hdr) (mask : Nat)
  | triggerFire (h : Hdr) (mask : Nat)
  | captureRead (h : Hdr) (mask : Nat) (clear : Bool)
  | linesSet (h : Hdr) (mask data : Nat)
  | compareForce (h : Hdr) (slot : Nat)
  | status (h : Hdr) (clear : Bool)
  | partReset (h : Hdr)
  /-- A drive reports PRESENT, with or without a cartridge (R61). -/
  | drivePresent (lane : LaneId) (cartridge : Bool)
  | driveAbsent (lane : LaneId)
  | reposition (lane : LaneId)
  | threadDone (lane : LaneId)
  | threadFail (lane : LaneId) (reason : FailReason)
  | locateDone (lane : LaneId)
  | locateFail (lane : LaneId) (reason : FailReason)
  | writeDone (lane : LaneId) (earlyWarning : Bool)
  | writeMediaEnd (lane : LaneId)
  | writeFail (lane : LaneId) (reason : FailReason)
  /-- READ answers DONE with the bytes of the block (R72). -/
  | readDone (lane : LaneId) (block : List Byte)
  | readFail (lane : LaneId) (reason : FailReason)
  | stepDone (lane : LaneId)
  | stepFail (lane : LaneId) (reason : FailReason)
  | ejectDone (lane : LaneId)
  | ejectFail (lane : LaneId) (reason : FailReason)
  | commandTimeout (lane : LaneId)
  | writeStartTest (lane : LaneId)
  | holdResume (lane : LaneId)
  | catalogHoldResume (lane : LaneId)
  | compressorTake
  | compressionComplete
  | sealAgeExpiry (lane : LaneId)
  | expanderTake
  | expansionComplete
  | windowEnd (lane : LaneId)
  | timeBaseTick
  | compareMatch
  | ttuEvent (e : Event)
  | readGrant
  | streamResume (stream : StreamId)
  | streamFlushed (stream : StreamId)
  | closeComplete (stream : StreamId)
  | abortComplete (stream : StreamId)
  | scratchPick (lane : LaneId)
  | serveTest
  | travelStep
  /-- A homing step, with the home sensor's reading after it (R116). -/
  | homingStep (homeActive : Bool)
  | encoderCount
  /-- A PROBE completes with the location sensor's reading (R117). -/
  | probeDone (occupied : Bool)
  | getDone
  | putDone
  | gripTimeout
  | heldSensorChange (held : Bool)
  | doorSensorChange (isOpen : Bool)
  | mailSlotSensorChange (slot : Fin 2) (present : Bool)
  | verifyStartTest
  | verifyAutoResume (lane : LaneId)
  | restoreActivate
  deriving DecidableEq, Repr

end Sys2Proof
end

