-- ==== Sys2Proof/Decode.lean ====
section
/-! DEFINITION. Decode.lean: the commands that a word spells by the bits of spec/opcode_table.json. The table gives no
row any bits, so no word spells one; frames as bytes are read in Machine/WireIn.lean (R192). -/

namespace Sys2Proof

/-- The command that the `nbits` low bits of `w` spell: none, since no row of the table has bits. -/
def decodeTableWord (nbits w : Nat) : Option Instr :=
  match nbits, w with
  | _, _ => none

end Sys2Proof
end

