-- ==== Sys2Proof/Machine/State.lean ====
section
/-! DEFINITION. Machine/State.lean: everything the spec gives the part, as plain data, its state after power-on,
and the reasons a step can stop. -/

namespace Sys2Proof.Machine

/-! ## Streams (R1) -/

inductive StreamState where
  | closed | opened | flushing | closing | aborted
  deriving DecidableEq, Repr

inductive StreamClass where
  | pack | raw
  deriving DecidableEq, Repr

/-- A stretch of blocks of one cartridge (R1, R13). -/
structure Span where
  cart : CartId
  first : Nat
  last : Nat
  deriving DecidableEq, Repr

/-- The open chunk: its sequence and its bytes, whose count is the fill (R1). Its ingest page holds these bytes. -/
structure Chunk where
  seq : Nat
  bytes : List Byte
  deriving DecidableEq, Repr

/-- A stream context (R1, Table 6). -/
structure Stream where
  state : StreamState
  pool : Fin 8
  lane : LaneId
  cls : StreamClass
  verifyOnClose : Bool
  nextOffset : Nat
  nextSeq : Nat
  openChunk : Option Chunk
  staged : Nat
  uncommitted : Nat
  paused : Bool
  storedRun : Nat
  skip : Nat
  spans : List Span
  spanOverflow : Bool
  lastCommitted : Option Nat
  deriving DecidableEq, Repr

/-- A stream context after power-on (R2). -/
def Stream.reset : Stream :=
  { state := .closed, pool := 0, lane := 0, cls := .pack, verifyOnClose := false, nextOffset := 0, nextSeq := 0,
    openChunk := none, staged := 0, uncommitted := 0, paused := false, storedRun := 0, skip := 0, spans := [],
    spanOverflow := false, lastCommitted := none }

/-! ## Compressor and records (R18 to R30) -/

inductive Mark where
  | none | flush | close
  deriving DecidableEq, Repr

/-- A ready-list entry (R18): `raw` is absent for an end entry. -/
structure Entry where
  stream : StreamId
  seq : Nat
  raw : Option (List Byte)
  mark : Mark
  deriving DecidableEq, Repr

/-- Which condition of R20 made the taken entry eligible (R21). -/
inductive Reservation where
  | openRoom | newRoom
  deriving DecidableEq, Repr

/-- The entry in compression with its reservation (R19). -/
structure Taken where
  entry : Entry
  reservation : Reservation
  deriving DecidableEq, Repr

/-- The ready list and the engine; no taken entry is IDLE (R18, R19). -/
structure Compressor where
  ready : List Entry
  engine : Option Taken
  deriving DecidableEq, Repr

inductive Method where
  | stored | packed | endRec
  deriving DecidableEq, Repr

/-- A record (R30). Its coded length is the length of its payload. -/
structure Record where
  stream : StreamId
  method : Method
  rawLength : Nat
  seq : Nat
  digest : Word32
  mark : Mark
  payload : List Byte
  deriving DecidableEq, Repr

/-- Size of a record in a block: 16 bytes of header and its payload (R30). -/
def Record.size (r : Record) : Nat := 16 + r.payload.length

/-! ## Blocks and assembly (R46 to R55) -/

/-- A run of one stream in a block (R46). -/
structure Run where
  stream : StreamId
  first : Nat
  last : Nat
  count : Nat
  deriving DecidableEq, Repr

inductive SealCause where
  | full | streamLimit | mark | age
  deriving DecidableEq, Repr

/-- An open block (R46). -/
structure OpenBlock where
  records : List Record
  runs : List Run
  openedAt : Word32
  deferred : Option SealCause
  deriving DecidableEq, Repr

/-- The fill of an open block: the sum of its records' sizes (R46). -/
def OpenBlock.fill (b : OpenBlock) : Nat := (b.records.map Record.size).sum

/-- A sealed block (R48). -/
structure SealedBlock where
  records : List Record
  runs : List Run
  cause : SealCause
  deriving DecidableEq, Repr

/-- A lane's assembly (R46, R52). -/
structure Assembly where
  openBlock : Option OpenBlock
  sealedQueue : List SealedBlock
  deriving DecidableEq, Repr

/-! ## Lanes (R56) -/

inductive LaneState where
  | offline | empty | loading | unknownMedia | ready | locating | writing | hold | reading | unloading | ejected | fault
  deriving DecidableEq, Repr

inductive FaultCode where
  | timeout | writeFail | readFail | loadFail | mechanism
  deriving DecidableEq, Repr

inductive Role where
  | write (pool : Fin 8)
  | read
  deriving DecidableEq, Repr

inductive Purpose where
  | write | read
  deriving DecidableEq, Repr

/-- The commands to a drive (R59 Table 10). -/
inductive DriveCommand where
  | thread
  | locate (block : Nat) (purpose : Purpose)
  | write (block : Nat)
  | read (block : Nat)
  | step (k : Nat)
  | eject
  deriving DecidableEq, Repr

/-- A command in flight: the deadline is `sentAt` plus `limit` ticks (R59). -/
structure InFlight where
  command : DriveCommand
  sentAt : Word32
  limit : Nat
  deriving DecidableEq, Repr

inductive Activity where
  | none | verify | restore
  deriving DecidableEq, Repr

inductive Claim where
  | none | restore | write
  deriving DecidableEq, Repr

inductive HoldReason where
  | queueEmpty | catalogFull
  deriving DecidableEq, Repr

/-- A lane context (R56, Table 8); its catalog place is the catalog's flag (R132). The last five fields are the
working data of R64, R72, R74 and R106: an eject begun by the server, the block asked for by the reading client, a
release that waits for the answer in flight, an answer to be discarded, and a scratch pick refused for lack of room. -/
structure Lane where
  state : LaneState
  faultCode : Option FaultCode
  role : Role
  mounted : Option CartId
  command : Option InFlight
  tapePosition : Option Nat
  driveStep : Option Nat
  activity : Activity
  claim : Claim
  allowance : Option Nat
  ejectPending : Bool
  fillWanted : Bool
  holdReason : Option HoldReason
  serverEject : Bool
  readBlock : Option Nat
  releasing : Bool
  discard : Bool
  pickNoRoom : Bool
  deriving DecidableEq, Repr

/-- A lane context after power-on (R57, R58). -/
def Lane.reset : Lane :=
  { state := .offline, faultCode := none, role := .read, mounted := none, command := none, tapePosition := none,
    driveStep := none, activity := .none, claim := .none, allowance := none, ejectPending := false,
    fillWanted := false, holdReason := none, serverEject := false, readBlock := none, releasing := false,
    discard := false, pickNoRoom := false }

/-! ## Speed governor (R76) -/

/-- The window in progress (R77). -/
structure Window where
  start : Word32
  exponent : Nat
  deriving DecidableEq, Repr

/-- The figures of the last window that ended (R88). -/
structure RateMeter where
  inflow : Nat
  delivered : Nat
  repositions : Nat
  exponent : Nat
  deriving DecidableEq, Repr

/-- A governor context (R76, Table 12). -/
structure Governor where
  smoothed : Nat
  step : Nat
  stable : Nat
  window : Option Window
  inflow : Nat
  repositions : Nat
  delivered : Nat
  meter : RateMeter
  starve : Nat
  repositionTotal : Nat
  deriving DecidableEq, Repr

/-- A governor after power-on (R89). -/
def Governor.reset : Governor :=
  { smoothed := 0, step := 0, stable := 0, window := none, inflow := 0, repositions := 0, delivered := 0,
    meter := { inflow := 0, delivered := 0, repositions := 0, exponent := 10 }, starve := 0, repositionTotal := 0 }

/-! ## Buffer pool (R38 to R45) -/

/-- The six quotas, or the six held counts (R38, R39). -/
structure Regions where
  ingest : Nat
  assembly : Vector Nat 4
  read : Nat
  deriving DecidableEq, Repr

inductive ReadClient where
  | restore
  | verify (lane : LaneId)
  deriving DecidableEq, Repr

/-- A request of the read waiting list (R43). -/
structure ReadWait where
  client : ReadClient
  pages : Nat
  deriving DecidableEq, Repr

structure Pool where
  quotas : Regions
  held : Regions
  waiting : List ReadWait
  deriving DecidableEq, Repr

/-- The pool after power-on (R39, R45). -/
def Pool.reset : Pool :=
  { quotas := { ingest := 512, assembly := Vector.replicate 4 256, read := 512 },
    held := { ingest := 0, assembly := Vector.replicate 4 0, read := 0 }, waiting := [] }

/-! ## Expander (R31 to R37) -/

/-- A record as the walk of R150 found it in a block: header fields as numbers (R194 Table 25) and payload. -/
structure WalkedRecord where
  stream : Nat
  method : Nat
  rawLength : Nat
  codedLength : Nat
  seq : Nat
  digest : Word32
  payload : List Byte
  deriving DecidableEq, Repr

/-- An expander request (R31): the record and whether an output page comes with it; and, of a request whose client
has given its block up, the pages kept until the outcome returns (R36, R44). -/
structure ExpandRequest where
  record : WalkedRecord
  outputPage : Bool
  abandoned : Bool
  keptPages : Nat
  deriving DecidableEq, Repr

/-- The record in expansion with its client (R36). -/
structure Expansion where
  client : ReadClient
  request : ExpandRequest
  deriving DecidableEq, Repr

structure Expander where
  restoreSlot : Option ExpandRequest
  verifySlots : Vector (Option ExpandRequest) 4
  engine : Option Expansion
  lastServed : LaneId
  deriving DecidableEq, Repr

/-- The expander after power-on (R37). -/
def Expander.reset : Expander :=
  { restoreSlot := none, verifySlots := Vector.replicate 4 none, engine := none, lastServed := 3 }

/-! ## Cartridge directory (R90 to R92) -/

inductive CartState where
  | scratch | filling | full | suspect
  deriving DecidableEq, Repr

/-- A location: S1 is `slot 0`, M1 is `mail 0`, D0 is `bay 0` (R90). -/
inductive Location where
  | slot (i : Fin 48)
  | mail (i : Fin 2)
  | bay (lane : LaneId)
  | picker | outside | missing
  deriving DecidableEq, Repr

/-- A cartridge record (R90, Table 13). -/
structure Cart where
  label : List Byte
  pool : Fin 8
  state : CartState
  location : Location
  home : Fin 48
  endOfData : Nat
  floor : Nat
  worm : Bool
  verifiedTo : Nat
  needsLocate : Bool
  deriving DecidableEq, Repr

/-- The 64 indexes and the location map: places 0 to 47 S1 to S48, 48 and 49 M1 and M2, 50 to 53 D0 to D3,
54 the picker (R90, R92). -/
structure Directory where
  records : Vector (Option Cart) 64
  map : Vector (Option CartId) 55
  deriving DecidableEq, Repr

/-- The directory after power-on (R94). -/
def Directory.reset : Directory :=
  { records := Vector.replicate 64 none, map := Vector.replicate 55 none }

/-! ## Loader and mount queue (R109, R119, R123) -/

inductive LoaderState where
  | unhomed | homing | idle | running | stopping | fault
  deriving DecidableEq, Repr

inductive LoaderFault where
  | positionError | gripTimeout | homeNotFound
  deriving DecidableEq, Repr

inductive Direction where
  | towardZero | away
  deriving DecidableEq, Repr

inductive MountKind where
  | mount | dismount | move | exportCart | importCart | scan
  deriving DecidableEq, Repr

inductive MountTarget where
  | none
  | lane (n : LaneId)
  | anyRead
  | slot (i : Fin 48)
  | mail (i : Fin 2)
  deriving DecidableEq, Repr

inductive MountClass where
  | urgent | normal | background
  deriving DecidableEq, Repr

inductive Requester where
  | laneFill | restore | verify | server
  deriving DecidableEq, Repr

/-- A request of the mount queue (R119). Each requester keeps its tag (R121). `rebuilt` names the record that the
picker held, other than the request's own, when LOADER_RESET returned this MOUNT: its plan carries that record home
first (R129). -/
structure MountRequest where
  kind : MountKind
  cart : Option CartId
  target : MountTarget
  cls : MountClass
  requesters : List (Requester × Nat)
  tag : Nat
  fillLane : Option LaneId
  inService : Bool
  rebuilt : Option CartId
  deriving DecidableEq, Repr

/-- What a PROBE's reading is tested for (R123, R126): a source that must hold the record, a destination that
must be empty, or a scan. -/
inductive Expectation where
  | source (r : CartId)
  | destination
  | scan
  deriving DecidableEq, Repr

/-- The steps of a plan (R123, R124). -/
inductive PlanStep where
  | laneEject (lane : LaneId)
  | travel (l : Location)
  | probe (l : Location) (e : Expectation)
  | get (l : Location)
  | put (l : Location)
  | laneThread (lane : LaneId)
  deriving DecidableEq, Repr

/-- The plan in progress (R109, R123), with the findings of a scan (R126). -/
structure Plan where
  kind : MountKind
  cart : Option CartId
  target : MountTarget
  steps : List PlanStep
  current : Nat
  missing : List CartId
  unknown : List Location
  skipped : List Location
  deriving DecidableEq, Repr

/-- The loader context (R109, Table 15); the held record is the picker's place of the location map. `top` is the
travel's highest ramp index (R113), `stepStart` the start of the step in progress, `gripStart` and `gripLimit` the
grip's time (R117), `homingSteps` the steps output while HOMING, `homingStop` a stop that waits for the homing step
in progress (R115), and the last four are the sensors as last read. -/
structure Loader where
  state : LoaderState
  faultCode : Option LoaderFault
  logical : Option Nat
  real : Option Nat
  direction : Direction
  ramp : Int
  remaining : Nat
  heldSensor : Bool
  plan : Option Plan
  doorHold : Option (Fin 8)
  top : Nat
  stepStart : Word32
  gripStart : Word32
  gripLimit : Nat
  homingSteps : Nat
  homingStop : Bool
  homeSensor : Bool
  doorOpen : Bool
  mailSensors : Vector Bool 2
  deriving DecidableEq, Repr

/-- The loader after power-on (R110); the sensors are inputs, not reset by the part (log entry 5). -/
def Loader.reset : Loader :=
  { state := .unhomed, faultCode := none, logical := none, real := none, direction := .towardZero, ramp := -1,
    remaining := 0, heldSensor := false, plan := none, doorHold := none, top := 0, stepStart := 0, gripStart := 0,
    gripLimit := 0, homingSteps := 0, homingStop := false, homeSensor := false, doorOpen := false,
    mailSensors := Vector.replicate 2 false }

/-! ## Catalog (R131, R132) -/

inductive BlockStatus where
  | unverified | verified | bad
  deriving DecidableEq, Repr

/-- A run of a catalog entry (R131 Table 18). -/
structure CatRun where
  stream : StreamId
  first : Nat
  last : Nat
  deriving DecidableEq, Repr

structure CatEntry where
  serial : Word32
  cart : CartId
  label : List Byte
  block : Nat
  lane : LaneId
  commitTime : Word32
  runs : List CatRun
  status : BlockStatus
  deriving DecidableEq, Repr

/-- The catalog (R132); the entry count and the status counts are counts of the list. -/
structure Catalog where
  entries : List CatEntry
  places : Vector Bool 4
  nextSerial : Word32
  fullReported : Bool
  deriving DecidableEq, Repr

def Catalog.reset : Catalog :=
  { entries := [], places := Vector.replicate 4 false, nextSerial := 0, fullReported := false }

/-! ## Verify engine (R143, R145) -/

inductive VerifyOrigin where
  | server (tag : Nat)
  | close (stream : StreamId)
  deriving DecidableEq, Repr

/-- A verify request (R143); a last block of none is END. -/
structure VerifyRequest where
  cart : CartId
  label : List Byte
  first : Nat
  last : Option Nat
  origin : VerifyOrigin
  mountAsked : Bool
  deriving DecidableEq, Repr

inductive VerifyState where
  | idle | running | suspended
  deriving DecidableEq, Repr

inductive VerifyStage where
  | none | pages | read | check
  deriving DecidableEq, Repr

inductive SuspendCause where
  | server | restore | write
  deriving DecidableEq, Repr

/-- A verify context (R145, Table 19). The last block is an integer, since END on an empty cartridge gives -1
(R148, log entry 23). `todo` holds the records of the block in hand not yet offered, `pages` says that the context
holds its 16 read pages. -/
structure VerifyContext where
  state : VerifyState
  cart : CartId
  label : List Byte
  origin : VerifyOrigin
  first : Nat
  last : Int
  next : Nat
  stage : VerifyStage
  inHand : Option Nat
  blockBad : Bool
  checked : Nat
  badBlocks : Nat
  records : Nat
  badRecords : Nat
  firstBad : Option Nat
  cause : Option SuspendCause
  todo : List WalkedRecord
  pages : Bool
  deriving DecidableEq, Repr

/-- An IDLE context with every other field cleared, as a reset leaves it (R145). -/
def VerifyContext.idle : VerifyContext :=
  { state := .idle, cart := 0, label := [], origin := .server 0, first := 0, last := 0, next := 0, stage := .none,
    inHand := none, blockBad := false, checked := 0, badBlocks := 0, records := 0, badRecords := 0, firstBad := none,
    cause := none, todo := [], pages := false }

/-- A context whose pass has ended: IDLE, no block in hand and no cause; its cartridge, label, origin, range, next
block and counts stand (R152, 9.7; for an ABANDONED pass log entry 43). -/
def VerifyContext.ended (c : VerifyContext) : VerifyContext :=
  { c with state := .idle, stage := .none, inHand := none, blockBad := false, cause := none, todo := [],
           pages := false }

structure Verify where
  queue : List VerifyRequest
  contexts : Vector VerifyContext 4
  deriving DecidableEq, Repr

def Verify.reset : Verify := { queue := [], contexts := Vector.replicate 4 VerifyContext.idle }

/-! ## Restore engine (R158, R159) -/

/-- An explicit start: cartridge index, block and the record's label at acceptance (R158). -/
structure RestoreStart where
  cart : CartId
  block : Nat
  label : List Byte
  deriving DecidableEq, Repr

structure RestoreRequest where
  tag : Nat
  stream : StreamId
  first : Nat
  last : Nat
  start : Option RestoreStart
  deriving DecidableEq, Repr

inductive RestoreState where
  | finding | waitingMount | reading | sending
  deriving DecidableEq, Repr

inductive SegmentCause where
  | none | record | block | cartridge
  deriving DecidableEq, Repr

/-- A restore segment (R165, R192): GOOD exactly when its cause is none. -/
structure Segment where
  tag : Nat
  stream : StreamId
  seq : Nat
  cause : SegmentCause
  bytes : List Byte
  deriving DecidableEq, Repr

/-- The work of a restore in READING (R165): nothing begun, waiting for 16 pages, waiting for the lane's answer,
ready for the next wanted record, waiting for an output page, a record with the expander. -/
inductive RestoreStage where
  | start | pages | read | records | output | expand
  deriving DecidableEq, Repr

/-- What follows a stretch sent DAMAGED (R163, R165, R166): the next block, or the block's remaining records. -/
inductive AfterDamage where
  | find | records
  deriving DecidableEq, Repr

/-- A stretch of sequences, from next wanted to `upTo`, still to be sent DAMAGED. -/
structure Damage where
  upTo : Nat
  cause : SegmentCause
  after : AfterDamage
  deriving DecidableEq, Repr

/-- The active restore context (R159, Table 20). `todo` holds the wanted records of the block in hand, `pages` the
16 block pages and `outputPage` the output page it holds, `segment` the segment that waits in SENDING. `sentAny` and
`missedAny` say what R167's results ask: a segment was sent; a sequence was sent DAMAGED or counted as not found. -/
structure RestoreContext where
  tag : Nat
  stream : StreamId
  first : Nat
  last : Nat
  start : Option RestoreStart
  state : RestoreState
  next : Nat
  cart : Option (CartId × List Byte)
  block : Option Nat
  runEnd : Option Nat
  lane : Option LaneId
  mountAsked : Bool
  good : Nat
  damaged : Nat
  notFound : Nat
  laneFaults : Nat
  stage : RestoreStage
  todo : List WalkedRecord
  damage : Option Damage
  pages : Bool
  outputPage : Bool
  segment : Option Segment
  sentAny : Bool
  missedAny : Bool
  deriving DecidableEq, Repr

structure Restore where
  queue : List RestoreRequest
  active : Option RestoreContext
  deriving DecidableEq, Repr

/-! ## Time and trigger unit (R170 to R182) -/

/-- A capture slot's source (R172): a qualifier of none is "any". -/
inductive Source where
  | byAction
  | event (kind : EventKind) (qual : Option Nat)
  deriving DecidableEq, Repr

/-- The kind a capture records: an event kind, or FIRE (R172). -/
inductive CaptureKind where
  | event (kind : EventKind)
  | fire
  deriving DecidableEq, Repr

structure CaptureSlot where
  source : Source
  full : Bool
  lost : Bool
  kind : Option CaptureKind
  time : Word32
  position : Option Nat
  qual : Option Nat
  deriving DecidableEq, Repr

def CaptureSlot.reset : CaptureSlot :=
  { source := .byAction, full := false, lost := false, kind := none, time := 0, position := none, qual := none }

/-- A compare slot (R174); bit n of a mask is line n or set n. -/
structure CompareSlot where
  enabled : Bool
  value : Word32
  lineMask : BitVec 8
  lineData : BitVec 8
  triggerMask : BitVec 8
  deriving DecidableEq, Repr

def CompareSlot.reset : CompareSlot :=
  { enabled := false, value := 0, lineMask := 0, lineData := 0, triggerMask := 0 }

/-- A trigger set's factor (R177): a qualifier of none is "any". -/
inductive Factor where
  | none
  | event (kind : EventKind) (qual : Option Nat)
  deriving DecidableEq, Repr

inductive StopMode where
  | decel | instant
  deriving DecidableEq, Repr

/-- The actions of R179. -/
inductive Action where
  | capture (slot : Fin 8)
  | lines (mask data : BitVec 8)
  | stop (mode : StopMode)
  | suspendVerify (lane : LaneId)
  | resumeVerify (lane : LaneId)
  | notice (code : Nat)
  | compareArm (slot : Fin 4) (delay : Nat)
  deriving DecidableEq, Repr

inductive TriggerMode where
  | once | repeating
  deriving DecidableEq, Repr

structure TriggerSet where
  armed : Bool
  factor : Factor
  actions : List Action
  chain : BitVec 8
  mode : TriggerMode
  faultGuard : Bool
  deriving DecidableEq, Repr

def TriggerSet.reset : TriggerSet :=
  { armed := false, factor := .none, actions := [], chain := 0, mode := .once, faultGuard := false }

/-- The time and trigger unit. `compareOwed` marks the slots that matched when the time base last advanced and whose
compare test is still to be made (R174, R175). -/
structure Ttu where
  time : Word32
  captures : Vector CaptureSlot 8
  compares : Vector CompareSlot 4
  compareOwed : Vector Bool 4
  lines : BitVec 8
  triggers : Vector TriggerSet 8
  deriving DecidableEq, Repr

/-- The unit after power-on (R182). -/
def Ttu.reset : Ttu :=
  { time := 0, captures := Vector.replicate 8 CaptureSlot.reset, compares := Vector.replicate 4 CompareSlot.reset,
    compareOwed := Vector.replicate 4 false, lines := 0, triggers := Vector.replicate 8 TriggerSet.reset }

/-! ## Settings and tables (R186, R82, R111, R112) -/

/-- The ten scalar settings (R186). -/
structure Settings where
  streamChunks : Nat
  sealAge : Nat
  laneTimeout : Nat
  govWindow : Nat
  reposLimit : Nat
  resumeMark : Nat
  devLimit : Nat
  gripTimeout : Nat
  heldRampCap : Nat
  doorLine : Nat
  deriving DecidableEq, Repr

def Settings.default : Settings :=
  { streamChunks := 4, sealAge := 2000, laneTimeout := 300, govWindow := 10, reposLimit := 3, resumeMark := 4,
    devLimit := 8, gripTimeout := 2000, heldRampCap := 31, doorLine := 7 }

/-- The speed, ramp and positions tables (R82, R112, R111). -/
structure Tables where
  speed : List Nat
  ramp : List Nat
  positions : Vector (Option Nat) 54
  deriving DecidableEq, Repr

def Tables.default : Tables :=
  { speed := [100], ramp := [100], positions := Vector.replicate 54 none }

/-! ## Server link (R183 to R193) -/

/-- The status codes, in the order of R185. -/
inductive Status where
  | ok | busy | badArgument | badState | noRoom | prot | notFound | faulted
  deriving DecidableEq, Repr

/-- What LANE_QUERY reports (R64, R53, R88). -/
structure LaneReport where
  lane : Lane
  place : Bool
  cart : Option Cart
  assemblyHeld : Nat
  assemblyQuota : Nat
  openBlock : Option (Nat × Nat × Nat × Nat)
  sealedBlocks : Nat
  governor : Governor
  windowElapsed : Option Nat
  deriving DecidableEq, Repr

/-- What LOADER_QUERY reports (R128). -/
structure LoaderReport where
  loader : Loader
  held : Option CartId
  heldLabel : Option (List Byte)
  mounts : List MountRequest
  deriving DecidableEq, Repr

/-- What CAT_QUERY reports (R137). -/
structure CatalogReport where
  count : Nat
  freeRoom : Nat
  places : Vector Bool 4
  high : Bool
  fullReported : Bool
  oldest : Option Word32
  nextSerial : Word32
  unverified : Nat
  verified : Nat
  bad : Nat
  deriving DecidableEq, Repr

/-- The link counters (R183). -/
structure Counters where
  check : Nat
  length : Nat
  cls : Nat
  direction : Nat
  seg : Nat
  deriving DecidableEq, Repr

/-- What STATUS reports (R189). -/
structure StatusReport where
  identity : List Byte
  time : Word32
  overflow : Bool
  notices : Nat
  counters : Counters
  lanes : Vector (LaneState × Option FaultCode) 4
  loader : LoaderState × Option LoaderFault
  streams : Vector Nat 5
  entries : Nat
  mounts : Nat
  verifies : Nat
  restores : Nat
  restoreActive : Bool
  deriving DecidableEq, Repr

/-- The reply fields of each request (R184). -/
inductive ReplyBody where
  | none
  | stream (st : Stream)
  | rates (l : List Nat)
  | positions (p : Vector (Option Nat) 54)
  | poolSplit (quotas held : Regions) (free : Nat)
  | roles (r : Vector Role 4)
  | directory (first : Nat) (records : List (Option Cart))
  | triggers (t : Vector TriggerSet 8)
  | captures (c : List (Source × Bool × Bool))
  | compares (c : Vector CompareSlot 4)
  | settings (st : Settings)
  | taken (pairs : List (Nat × Nat))
  | lane (r : LaneReport)
  | number (n : Nat)
  | index (i : CartId)
  | count (n : Nat)
  | loader (r : LoaderReport)
  | catalog (r : CatalogReport)
  | entries (count : Nat) (es : List CatEntry)
  | verify (c : VerifyContext)
  | armed (sets : BitVec 8)
  | fired (time : Word32) (acted : List (Fin 8)) (armed : BitVec 8)
  | captured (time : Word32) (slots : List (Fin 8 × CaptureSlot))
  | linesAt (time : Word32) (lines : BitVec 8)
  | lines (lines : BitVec 8)
  | status (r : StatusReport)
  deriving DecidableEq, Repr

/-- A reply: the request's tag, subject and code, its status and fields (R184, R192). -/
structure Reply where
  tag : Nat
  subject : Nat
  code : Nat
  status : Status
  body : ReplyBody
  deriving DecidableEq, Repr

inductive ResetCause where
  | powerOn | resetInput | partReset
  deriving DecidableEq, Repr

inductive RefusedReason where
  | notOpen | limit | order | full
  deriving DecidableEq, Repr

/-- The failure reasons of a plan (R125). -/
inductive PlanReason where
  | sourceEmpty | destOccupied | doorOpen | stopped | laneRefused | positionUnset
  deriving DecidableEq, Repr

/-- The results of a verify pass, with the reasons of ABANDONED (R152). -/
inductive VerifyResult where
  | passed | failed | cancelled | unloaded | laneFault | laneReset
  | mountFailed (reason : PlanReason)
  | noCartridge
  deriving DecidableEq, Repr

/-- The results of a restore, with the reasons of ABANDONED (R167). -/
inductive RestoreResult where
  | complete | partly | notFound | cancelled | laneFault
  | mountFailed (reason : PlanReason)
  deriving DecidableEq, Repr

/-- The notices of R188, with their fields. -/
inductive NoticeBody where
  | resetDone (cause : ResetCause)
  | segRefused (stream : StreamId) (reason : RefusedReason) (expected : Nat)
  | streamResume (stream : StreamId) (offset : Nat)
  | streamFlushed (stream : StreamId) (offset : Nat)
  | streamClosed (stream : StreamId) (offset : Nat) (last : Option Nat) (spans : List Span) (overflow aborted : Bool)
      (notQueued : Nat)
  | cartridgeFull (lane : LaneId) (cart : CartId) (label : List Byte) (endOfData : Nat)
  | noScratch (lane : LaneId) (pool : Fin 8)
  | laneFault (lane : LaneId) (code : FaultCode) (cart : Option CartId)
  | homeDone
  | loaderFault (code : LoaderFault) (kind : Option MountKind) (step : Option Nat) (held : Option CartId)
  | planDone (kind : MountKind) (cart : Option CartId) (target : MountTarget) (tag : Nat)
      (requesters : List (Requester × Nat))
  | mountFailed (kind : MountKind) (cart : Option CartId) (tag : Nat) (requesters : List (Requester × Nat))
      (reason : PlanReason) (step : Nat) (held : Option CartId)
  | moveFailed (kind : MountKind) (cart : Option CartId) (tag : Nat) (requesters : List (Requester × Nat))
      (reason : PlanReason) (step : Nat) (held : Option CartId)
  | scanDone (missing : List CartId) (unknown skipped : List Location)
  | catalogHigh (count : Nat) (oldest next : Word32)
  | catalogFull (lane : LaneId) (count : Nat)
  | verifyDone (lane : Option LaneId) (cart : CartId) (label : List Byte) (origin : VerifyOrigin) (first : Nat)
      (last : Option Int) (result : VerifyResult) (checked badBlocks records badRecords : Nat) (firstBad : Option Nat)
      (next : Nat)
  | restoreDone (tag : Nat) (stream : StreamId) (first last : Nat) (result : RestoreResult)
      (good damaged notFound next : Nat)
  | trigger (set : Fin 8) (code : Nat) (kind : CaptureKind) (qual : Option Nat) (time : Word32)
  deriving DecidableEq, Repr

/-- A notice with the time base when it was placed (R192). -/
structure Notice where
  body : NoticeBody
  placed : Word32
  deriving DecidableEq, Repr

/-- A frame of the transmit side (R187). -/
inductive TxFrame where
  | reply (r : Reply)
  | notice (n : Notice)
  | segment (s : Segment)
  deriving DecidableEq, Repr

/-- The link interface. `credit` says that the server holds a receive credit (R193); `resetReply` that a PART_RESET
reply waits to be sent (R190); `waiting` are the frames held at the server for want of credit (R184). -/
structure Link where
  replies : List Reply
  notices : List Notice
  overflow : Bool
  counters : Counters
  sending : Option TxFrame
  credit : Bool
  resetReply : Bool
  waiting : List Instr
  deriving DecidableEq, Repr

def Counters.zero : Counters := { check := 0, length := 0, cls := 0, direction := 0, seg := 0 }

/-- The link after a reset of the device (R183, R184, R188, R190): a frame in transmission is cut off, whatever it is (log
entry 48); RESET_DONE is placed first and, the transmit side being free, is chosen at once (R187). -/
def Link.afterReset (cause : ResetCause) (waiting : List Instr) : Link :=
  { replies := [], notices := [], overflow := false, counters := Counters.zero,
    sending := some (.notice { body := .resetDone cause, placed := 0 }), credit := true, resetReply := false,
    waiting := waiting }

/-! ## The tests that fall due (log entry 2) -/

/-- A test or report that has fallen due and is still to be carried out. All but the last five are rows of the
table; those five are the neighbours' answers to a report, which the table lists inside other steps. -/
inductive Due where
  | compressorTake
  | streamResume (stream : StreamId)
  | streamFlushed (stream : StreamId)
  | closeComplete (stream : StreamId)
  | abortComplete (stream : StreamId)
  | expanderTake
  | readGrant
  | writeStart (lane : LaneId)
  | holdResume (lane : LaneId)
  | catalogHold (lane : LaneId)
  | event (e : Event)
  | scratchPick (lane : LaneId)
  | serveTest
  | verifyStart
  | verifyResume (lane : LaneId)
  | restoreActivate
  /-- The loader asks a lane again for an eject (R124). -/
  | ejectAsk (lane : LaneId)
  /-- The restore hears that a lane has changed (R163). -/
  | restoreLane (lane : LaneId)
  /-- The restore goes on after a grant or a segment taken (R163, R165). -/
  | restoreGo
  /-- The restore hears that the mount queue has room (R164). -/
  | restoreRoom
  /-- A reading client whose read was refused asks again (R72, R149). -/
  | readAgain (lane : LaneId)
  deriving DecidableEq, Repr

/-! ## The state -/

/-- The state of the part (INVENTORY.md lists every field). -/
structure State where
  link : Link
  streams : Vector Stream 32
  cmp : Compressor
  exp : Expander
  pool : Pool
  asm : Vector Assembly 4
  lanes : Vector Lane 4
  gov : Vector Governor 4
  cdr : Directory
  ldr : Loader
  mounts : List MountRequest
  cat : Catalog
  vfy : Verify
  rse : Restore
  ttu : Ttu
  settings : Settings
  tables : Tables
  /-- Tests that have fallen due, oldest first (log entry 2). -/
  due : List Due
  /-- Draws of free values so far (log entry 10). -/
  freeCount : Nat
  /-- The commands that wait, first in first out. -/
  pending : List Instr
  deriving DecidableEq, Repr

/-- The state after a reset of the device with the given cause (R190 and each chapter's reset rule). What stays is
outside the part: the levels of its sensors, the frames held at the server, the waiting commands; and the count of
free values drawn. -/
def State.afterReset (cause : ResetCause) (s : State) : State :=
  { link := Link.afterReset cause s.link.waiting, streams := Vector.replicate 32 Stream.reset,
    cmp := { ready := [], engine := none }, exp := Expander.reset, pool := Pool.reset,
    asm := Vector.replicate 4 { openBlock := none, sealedQueue := [] }, lanes := Vector.replicate 4 Lane.reset,
    gov := Vector.replicate 4 Governor.reset, cdr := Directory.reset,
    ldr := { Loader.reset with heldSensor := s.ldr.heldSensor, homeSensor := s.ldr.homeSensor,
                               doorOpen := s.ldr.doorOpen, mailSensors := s.ldr.mailSensors },
    mounts := [], cat := Catalog.reset, vfy := Verify.reset, rse := { queue := [], active := none }, ttu := Ttu.reset,
    settings := Settings.default, tables := Tables.default, due := [], freeCount := s.freeCount,
    pending := s.pending }

/-- The state after power-on (R190), with the sensors at the levels of log entry 5. -/
def State.reset : State :=
  { link := Link.afterReset .powerOn [], streams := Vector.replicate 32 Stream.reset,
    cmp := { ready := [], engine := none }, exp := Expander.reset, pool := Pool.reset,
    asm := Vector.replicate 4 { openBlock := none, sealedQueue := [] }, lanes := Vector.replicate 4 Lane.reset,
    gov := Vector.replicate 4 Governor.reset, cdr := Directory.reset, ldr := Loader.reset, mounts := [],
    cat := Catalog.reset, vfy := Verify.reset, rse := { queue := [], active := none }, ttu := Ttu.reset,
    settings := Settings.default, tables := Tables.default, due := [], freeCount := 0, pending := [] }

/-- Reasons the machine stops: none. The part's own faults are states of a lane or of the loader (R63, R118), so no
command raises one; the type is closed and empty (safe). -/
inductive Fault where
  deriving DecidableEq, Repr

/-- Reasons a command has no meaning. -/
inductive Refusal where
  /-- Raised by a dispatch arm whose command has no meaning yet (safe: the machine stops). No arm raises it. -/
  | notModelled (mnemonic : String)
  deriving DecidableEq, Repr

/-- What a command answers. -/
abbrev Out := Host.Outcome State Fault Refusal

end Sys2Proof.Machine
end

