-- ==== Sys2Proof/Machine/Bytes.lean ====
section
/-! DEFINITION. Machine/Bytes.lean: byte order (13, opening) and the CRC-32 (R191). -/

namespace Sys2Proof.Machine

/-- The `k` bytes of a number, most significant byte first (13, opening). -/
def be : Nat → Nat → List Byte
  | 0, _ => []
  | k + 1, n => BitVec.ofNat 8 (n / 256 ^ k) :: be k n

/-- The number that bytes spell, most significant byte first. -/
def ofBe (bs : List Byte) : Nat := bs.foldl (fun n b => n * 256 + b.toNat) 0

/-- The generator polynomial of R191. -/
def crcPolynomial : Word32 := 0x04C11DB7#32

/-- The generator with its bits in reverse order, for a CRC whose input and output are reflected (R191). -/
def crcReflected : Word32 := 0xEDB88320#32

/-- One bit of a reflected CRC. -/
def crcBit (c : Word32) : Word32 :=
  if c.getLsbD 0 then (c >>> 1) ^^^ crcReflected else c >>> 1

/-- One byte, least significant bit first (R191). -/
def crcByte (c : Word32) (b : Byte) : Word32 :=
  crcBit (crcBit (crcBit (crcBit (crcBit (crcBit (crcBit (crcBit (c ^^^ b.setWidth 32))))))))

/-- The CRC-32 of R191: initial value and final XOR all ones. -/
def crc32 (bs : List Byte) : Word32 := bs.foldl crcByte 0xFFFFFFFF#32 ^^^ 0xFFFFFFFF#32

end Sys2Proof.Machine
end

