-- ==== Sys2Proof/Machine/Packing.lean ====
section
/-! DEFINITION. Machine/Packing.lean: the packing method and its coded form (R26 to R28), the making of a record
(R24, R30), and expansion (R33 to R35). -/

namespace Sys2Proof.Machine

/-- What the packing method emits (R27). -/
inductive Item where
  | literal (b : Byte)
  | copy (distance length : Nat)
  deriving DecidableEq, Repr

/-- The hash of the position a suffix starts at; none where fewer than three bytes are left (R26). -/
def hash3 : List Byte → Option Nat
  | x :: y :: z :: _ => some ((x.toNat * 33 + y.toNat * 5 + z.toNat) % 1024)
  | _ => none

/-- Length of the longest common prefix of two suffixes: the match length before its limit of 130 (R27.3). The first
suffix runs on past the second's start, as R27.3 lets the comparison do. -/
def commonPrefix : List Byte → List Byte → Nat
  | x :: xs, y :: ys => if x = y then commonPrefix xs ys + 1 else 0
  | _, _ => 0

/-- The head table (R26) as the stores made so far, latest first: an entry's content is the first pair with its
number. `storeHeads k q rest heads` stores the `k` positions from `q` on, `rest` being the suffix at `q`, as far as
they have a hash (R27.4). -/
def storeHeads : Nat → Nat → List Byte → List (Nat × Nat) → List (Nat × Nat)
  | 0, _, _, heads => heads
  | k + 1, q, rest, heads =>
    match hash3 rest with
    | some h => storeHeads k (q + 1) rest.tail ((h, q) :: heads)
    | none => heads

/-- The steps of R27 from position `p`, `rest` being the suffix at `p` of the chunk `bs`. -/
def packSteps (bs : List Byte) : Nat → Nat → List Byte → List (Nat × Nat) → List Item
  | 0, _, _, _ => []
  | _ + 1, _, [], _ => []
  | fuel + 1, p, x :: tail, heads =>
    match hash3 (x :: tail) with
    | none => .literal x :: packSteps bs fuel (p + 1) tail heads
    | some h =>
      match heads.lookup h with
      | none => .literal x :: packSteps bs fuel (p + 1) tail ((h, p) :: heads)
      | some c =>
        let n := min 130 (commonPrefix (bs.drop c) (x :: tail))
        if 3 ≤ n then
          .copy (p - c) n ::
            packSteps bs fuel (p + n) ((x :: tail).drop n) (storeHeads (n - 1) (p + 1) tail ((h, p) :: heads))
        else .literal x :: packSteps bs fuel (p + 1) tail ((h, p) :: heads)

/-- The literals and copies of a chunk (R26, R27). -/
def packItems (bs : List Byte) : List Item := packSteps bs bs.length 0 bs []

/-- A literal run of R28; no literals make no run. -/
def codeRun (run : List Byte) : List Byte :=
  if run = [] then [] else BitVec.ofNat 8 (run.length - 1) :: run

/-- The coded form of R28; `run` holds the literals of the run in progress. -/
def codeItems : List Item → List Byte → List Byte
  | [], run => codeRun run
  | .literal b :: items, run =>
    if run.length = 127 then codeRun (run ++ [b]) ++ codeItems items [] else codeItems items (run ++ [b])
  | .copy d n :: items, run =>
    codeRun run ++ (BitVec.ofNat 8 (128 + (n - 3)) :: be 2 d) ++ codeItems items []

/-- The coded form of a chunk (R26 to R28). -/
def pack (bs : List Byte) : List Byte := codeItems (packItems bs) []

/-- The record of an entry (R30), with its method by R24: `attempt` says that packing is attempted. -/
def formRecord (e : Entry) (attempt : Bool) : Record :=
  match e.raw with
  | none => { stream := e.stream, method := .endRec, rawLength := 0, seq := e.seq, digest := crc32 [], mark := e.mark,
              payload := [] }
  | some bs =>
    let coded := pack bs
    if attempt = true ∧ coded.length < bs.length then
      { stream := e.stream, method := .packed, rawLength := bs.length, seq := e.seq, digest := crc32 bs, mark := e.mark,
        payload := coded }
    else
      { stream := e.stream, method := .stored, rawLength := bs.length, seq := e.seq, digest := crc32 bs, mark := e.mark,
        payload := bs }

/-- The outcome of an expansion (R33 to R35). -/
inductive Expanded where
  | good (bytes : List Byte)
  | damaged
  | corrupt
  deriving DecidableEq, Repr

/-- `k` bytes appended, each the one `d` places before it (R34). -/
def copyBack : Nat → Nat → List Byte → List Byte
  | 0, _, out => out
  | k + 1, d, out => copyBack k d (out ++ [out.getD (out.length - d) 0])

/-- Decoding of a coded form, item by item (R34); none is CORRUPT. -/
def unpack (rawLength : Nat) : Nat → List Byte → List Byte → Option (List Byte)
  | _, [], out => if out.length < rawLength then none else some out
  | 0, _ :: _, _ => none
  | fuel + 1, lead :: rest, out =>
    if lead.toNat < 128 then
      let k := lead.toNat + 1
      if rest.length < k ∨ rawLength < out.length + k then none
      else unpack rawLength fuel (rest.drop k) (out ++ rest.take k)
    else
      match rest with
      | hi :: lo :: rest' =>
        let n := lead.toNat - 125
        let d := hi.toNat * 256 + lo.toNat
        if d = 0 ∨ out.length < d ∨ rawLength < out.length + n then none
        else unpack rawLength fuel rest' (copyBack n d out)
      | _ => none

/-- The raw bytes of a record by its method (R33, R34); none is CORRUPT. -/
def rawBytes (r : WalkedRecord) : Option (List Byte) :=
  if r.method = 3 then
    if r.rawLength = 0 ∧ r.codedLength = 0 then some [] else none
  else if r.method = 1 then
    if 1 ≤ r.rawLength ∧ r.rawLength ≤ 4096 ∧ r.codedLength = r.rawLength then some r.payload else none
  else if r.method = 2 then
    if 1 ≤ r.rawLength ∧ r.rawLength ≤ 4096 ∧ 1 ≤ r.codedLength ∧ r.codedLength ≤ 4096 ∧ r.codedLength < r.rawLength then
      unpack r.rawLength r.payload.length r.payload []
    else none
  else none

/-- The expander's outcome for a record (R33 to R35). -/
def expand (r : WalkedRecord) : Expanded :=
  match rawBytes r with
  | none => .corrupt
  | some bs => if crc32 bs = r.digest then .good bs else .damaged

end Sys2Proof.Machine
end

