-- ==== Sys2Proof/Machine/Layout.lean ====
section
/-! DEFINITION. Machine/Layout.lean: records and blocks on tape (R194) and the tests of a block read back (R150). -/

namespace Sys2Proof.Machine

/-- The method byte of a record header (R194 Table 25). -/
def Method.code : Method → Nat
  | .stored => 1
  | .packed => 2
  | .endRec => 3

/-- The marks byte of a record header (R194 Table 25). -/
def Mark.code : Mark → Nat
  | .none => 0
  | .flush => 1
  | .close => 2

/-- A record as it stands in a block: header and payload (R194 Table 25). -/
def recordBytes (r : Record) : List Byte :=
  be 1 r.stream ++ be 1 r.method.code ++ be 1 r.mark.code ++ be 1 0 ++ be 2 r.rawLength ++ be 2 r.payload.length ++
    be 4 r.seq ++ be 4 r.digest.toNat ++ r.payload

/-- The label in a field of 8 bytes. -/
def labelBytes (label : List Byte) : List Byte := (label ++ List.replicate 8 32#8).take 8

/-- The header of a block with its check bytes as given (R194 Table 24). -/
def blockHeader (label : List Byte) (number : Nat) (check : Nat) (lane : LaneId) (runs : List Run) (records : Nat) :
    List Byte :=
  labelBytes label ++ be 4 number ++ be 4 check ++ be 1 lane ++ be 1 runs.length ++ be 2 records ++
    ((runs.map fun r => BitVec.ofNat 8 r.stream) ++ List.replicate 8 255#8).take 8 ++ be 4 0

/-- The record area: the records in order of placing, then zeros (R194). -/
def recordArea (records : List Record) : List Byte :=
  (records.flatMap recordBytes ++ List.replicate Config.payloadBytes 0#8).take Config.payloadBytes

/-- The block check: the CRC over the block with bytes 12 to 15 counted as 0 (R191). -/
def blockCheck (block : List Byte) : Word32 :=
  crc32 (block.take 12 ++ List.replicate 4 0#8 ++ block.drop 16)

/-- The 65,536 bytes a lane sends for a sealed block (R66.4, R194). -/
def blockImage (label : List Byte) (number : Nat) (lane : LaneId) (b : SealedBlock) : List Byte :=
  let area := recordArea b.records
  let check := blockCheck (blockHeader label number 0 lane b.runs b.records.length ++ area)
  blockHeader label number check.toNat lane b.runs b.records.length ++ area

/-- Why a block read back is bad (R150). -/
inductive BadBlock where
  | readFailed | check | header | layout
  deriving DecidableEq, Repr

/-- The record walk of R150 over the record area, for the listed streams; `last` holds the sequence of the latest
record of each stream met so far. -/
def walkRecords (listed : List Nat) : Nat → List Byte → List (Nat × Nat) → Option (List WalkedRecord)
  | 0, _, last => if listed.all (fun st => (last.lookup st).isSome) then some [] else none
  | k + 1, area, last =>
    let st := ofBe (area.take 1)
    let coded := ofBe ((area.drop 6).take 2)
    let seq := ofBe ((area.drop 8).take 4)
    if area.length < 16 ∨ 4096 < coded ∨ area.length < 16 + coded ∨ st ∉ listed then none
    else if (match last.lookup st with | none => false | some q => decide (seq ≠ q + 1)) = true then none
    else
      (walkRecords listed k (area.drop (16 + coded)) ((st, seq) :: last)).map fun rest =>
        { stream := st, method := ofBe ((area.drop 1).take 1), rawLength := ofBe ((area.drop 4).take 2),
          codedLength := coded, seq := seq, digest := BitVec.ofNat 32 (ofBe ((area.drop 12).take 4)),
          payload := (area.drop 16).take coded } :: rest

/-- The walk's tests of the header and the walk itself (R150, R194). -/
def walkBlock (block : List Byte) : Option (List WalkedRecord) :=
  let runs := ofBe ((block.drop 17).take 1)
  let records := ofBe ((block.drop 18).take 2)
  let listed := ((block.drop 20).take (min runs 8)).map BitVec.toNat
  if runs < 1 ∨ 8 < runs ∨ ¬ listed.Nodup ∨ listed.any (fun st => decide (31 < st)) = true ∨ records = 0 then none
  else walkRecords listed records (block.drop 32) []

/-- The tests of R150 in their order, for the block expected under a label and a number; `none` is a failed read. -/
def testBlock (read : Option (List Byte)) (label : List Byte) (number : Nat) : Except BadBlock (List WalkedRecord) :=
  match read with
  | none => .error .readFailed
  | some block =>
    if blockCheck block ≠ BitVec.ofNat 32 (ofBe ((block.drop 12).take 4)) then .error .check
    else if block.take 8 ≠ labelBytes label ∨ ofBe ((block.drop 8).take 4) ≠ number then .error .header
    else
      match walkBlock block with
      | none => .error .layout
      | some rs => .ok rs

end Sys2Proof.Machine
end

