-- ==== Sys2Proof/Machine/Operands.lean ====
section
/-! DEFINITION. Machine/Operands.lean: the operand forms of the commands (R192): each number a frame carries is read
as the thing it names, or is outside its range (none). -/

namespace Sys2Proof.Machine

/-- A number below `k`. -/
def finOf (k n : Nat) : Option (Fin k) := if h : n < k then some ⟨n, h⟩ else none

/-- A number that a field of 32 bits holds. -/
def word32Of (n : Nat) : Option Nat := if n ≤ max32 then some n else none

/-- A block number, sequence or serial: 0 to 4,294,967,294 (R143, R158). -/
def blockOf (n : Nat) : Option Nat := if n < max32 then some n else none

/-- A mask over lines, sets or slots: item n in bit n (R192). -/
def maskOf (n : Nat) : Option (BitVec 8) := if n < 256 then some (BitVec.ofNat 8 n) else none

/-- A flag: 0 clear, 1 set (R192, log entry 18). Verify on close is read as one, yes as set (log entry 44). -/
def flagOf (n : Nat) : Option Bool := if n = 0 then some false else if n = 1 then some true else none

/-- A stream class (R3). -/
def classOf (n : Nat) : Option StreamClass := if n = 0 then some .pack else if n = 1 then some .raw else none

/-- A stop mode (R115). -/
def stopModeOf (n : Nat) : Option StopMode := if n = 0 then some .decel else if n = 1 then some .instant else none

/-! ## Locations (R90, R192) -/

/-- A location code: 1 to 48 S1 to S48, 49 and 50 M1 and M2, 51 to 54 D0 to D3, 55 PICKER, 56 OUTSIDE, 57 MISSING. -/
def locationOf (n : Nat) : Option Location :=
  if n = 0 then none
  else if h : n - 1 < 48 then some (.slot ⟨n - 1, h⟩)
  else if h : n - 49 < 2 then some (.mail ⟨n - 49, h⟩)
  else if h : n - 51 < 4 then some (.bay ⟨n - 51, h⟩)
  else if n = 55 then some .picker
  else if n = 56 then some .outside
  else if n = 57 then some .missing
  else none

def Location.code : Location → Nat
  | .slot i => i + 1
  | .mail i => i + 49
  | .bay n => n + 51
  | .picker => 55
  | .outside => 56
  | .missing => 57

/-- The place of a location in the location map (R92); OUTSIDE and MISSING have none. -/
def Location.place : Location → Option (Fin 55)
  | .slot i => some ⟨i, by omega⟩
  | .mail i => some ⟨48 + i, by omega⟩
  | .bay n => some ⟨50 + n, by omega⟩
  | .picker => some ⟨54, by omega⟩
  | .outside => none
  | .missing => none

/-- The entry of a location in the positions table (R111): S, M and D have one. -/
def Location.travel : Location → Option (Fin 54)
  | .slot i => some ⟨i, by omega⟩
  | .mail i => some ⟨48 + i, by omega⟩
  | .bay n => some ⟨50 + n, by omega⟩
  | _ => none

/-- A storage slot operand: 1 to 48. -/
def slotOf (n : Nat) : Option (Fin 48) :=
  match locationOf n with
  | some (.slot i) => some i
  | _ => none

/-- A mail slot operand: a location code 49 or 50. -/
def mailOf (n : Nat) : Option (Fin 2) :=
  match locationOf n with
  | some (.mail i) => some i
  | _ => none

/-! ## Directory records (R90, R95) -/

/-- A label: 8 characters of code 32 to 126, not all spaces (R90). -/
def labelOk (l : List Byte) : Bool :=
  decide (l.length = 8) && l.all (fun b => decide (32 ≤ b.toNat) && decide (b.toNat ≤ 126)) &&
    l.any (fun b => decide (b ≠ 32#8))

def cartStateOf (n : Nat) : Option CartState :=
  if n = 0 then some .scratch else if n = 1 then some .filling else if n = 2 then some .full
  else if n = 3 then some .suspect else none

/-- The record body of a directory write, its fields in their ranges (Table 13) and its floor and verified-to at most
its end of data (R95); needs locate is not written. -/
def recordOf (a : RecordArg) : Option Cart := do
  let pool ← finOf 8 a.pool
  let state ← cartStateOf a.state
  let location ← locationOf a.location
  let home ← slotOf a.home
  let eod ← word32Of a.endOfData
  let worm ← flagOf a.worm
  if labelOk a.label = true ∧ location ≠ .picker ∧ a.floor ≤ eod ∧ a.verifiedTo ≤ eod then
    some { label := a.label, pool := pool, state := state, location := location, home := home, endOfData := eod,
           floor := a.floor, worm := worm, verifiedTo := a.verifiedTo, needsLocate := false }
  else none

/-! ## Lane roles and quotas (R58, R39) -/

/-- A lane role entry: kind 0 WRITE with a pool, kind 1 READ, whose pool byte is not tested (R58; log entry 18). -/
def roleOf (a : RoleArg) : Option Role :=
  if a.kind = 0 then (finOf 8 a.pool).map Role.write else if a.kind = 1 then some .read else none

/-- The quotas of a pool split write that passes check 1 of R39. -/
def quotasOf (q : QuotaArg) : Option Regions :=
  if 32 ≤ q.ingest ∧ 16 ≤ q.lane0 ∧ 16 ≤ q.lane1 ∧ 16 ≤ q.lane2 ∧ 16 ≤ q.lane3 ∧ 32 ≤ q.read ∧
      q.ingest + q.lane0 + q.lane1 + q.lane2 + q.lane3 + q.read ≤ Config.poolPages then
    some { ingest := q.ingest, assembly := #v[q.lane0, q.lane1, q.lane2, q.lane3], read := q.read }
  else none

/-! ## Tables of rates, intervals and positions (R82, R112, R111) -/

/-- A speed table: 1 to 8 rates of 1 to 65,535, strictly increasing (R82). -/
def speedOk (rates : List Nat) : Bool :=
  decide (1 ≤ rates.length ∧ rates.length ≤ 8) && rates.all (fun r => decide (1 ≤ r ∧ r ≤ 65535)) &&
    (rates.zip (rates.drop 1)).all (fun p => decide (p.1 < p.2))

/-- A ramp table: 1 to 32 intervals of 1 to 65,535, none greater than the one before it (R112). -/
def rampOk (intervals : List Nat) : Bool :=
  decide (1 ≤ intervals.length ∧ intervals.length ≤ 32) && intervals.all (fun t => decide (1 ≤ t ∧ t ≤ 65535)) &&
    (intervals.zip (intervals.drop 1)).all (fun p => decide (p.2 ≤ p.1))

/-- A pair of a positions table write (R111). -/
def positionOf (p : Nat × Option Nat) : Option (Fin 54 × Option Nat) := do
  let l ← locationOf p.1
  let i ← l.travel
  match p.2 with
  | none => some (i, none)
  | some x => if x ≤ 65535 then some (i, some x) else none

/-! ## Events, captures, compares and trigger sets (R171 to R179) -/

def eventKindCode : EventKind → Nat
  | .moveDone => 0
  | .moveFault => 1
  | .homeFound => 2
  | .doorOpened => 3
  | .doorClosed => 4
  | .laneEw => 5
  | .laneHold => 6
  | .laneFull => 7
  | .laneFault => 8
  | .verifyMismatch => 9
  | .compare => 10
  | .segRefused => 11

def eventKindOf (n : Nat) : Option EventKind :=
  [EventKind.moveDone, .moveFault, .homeFound, .doorOpened, .doorClosed, .laneEw, .laneHold, .laneFull, .laneFault,
    .verifyMismatch, .compare, .segRefused][n]?

/-- How many qualifiers a kind has: 4 lanes or slots, 32 streams, or none (R171). -/
def eventQualifiers : EventKind → Nat
  | .laneEw | .laneHold | .laneFull | .laneFault | .verifyMismatch | .compare => 4
  | .segRefused => 32
  | _ => 0

/-- A qualifier operand: 255 is "any"; a kind without qualifier takes no other (R172, log entry 27). -/
def qualOf (k : EventKind) (q : Nat) : Option (Option Nat) :=
  if q = 255 then some none else if q < eventQualifiers k then some (some q) else none

/-- A capture source: kind 12 is BY_ACTION, with which the qualifier is not read (R172, log entry 18). -/
def sourceOf (a : SourceArg) : Option Source :=
  if a.kind = 12 then some .byAction
  else do
    let k ← eventKindOf a.kind
    let q ← qualOf k a.qual
    some (.event k q)

/-- A trigger set's factor: kind 12 is NONE, with which the qualifier is not read (R177, log entry 18). -/
def factorOf (a : SourceArg) : Option Factor :=
  if a.kind = 12 then some .none
  else do
    let k ← eventKindOf a.kind
    let q ← qualOf k a.qual
    some (.event k q)

/-- An action, in the order of the table of R179, with its arguments in their ranges (R177). -/
def actionOf (a : ActionArg) : Option Action :=
  if a.kind = 0 then (finOf 8 a.x).map Action.capture
  else if a.kind = 1 then do
    let m ← maskOf a.x
    let d ← maskOf a.y
    some (.lines m d)
  else if a.kind = 2 then some (.stop .decel)
  else if a.kind = 3 then some (.stop .instant)
  else if a.kind = 4 then (finOf 4 a.x).map Action.suspendVerify
  else if a.kind = 5 then (finOf 4 a.x).map Action.resumeVerify
  else if a.kind = 6 then if a.x ≤ 65535 then some (.notice a.x) else none
  else if a.kind = 7 then do
    let c ← finOf 4 a.x
    if 1 ≤ a.y ∧ a.y ≤ max32 then some (.compareArm c a.y) else none
  else none

def triggerModeOf (n : Nat) : Option TriggerMode :=
  if n = 0 then some .once else if n = 1 then some .repeating else none

/-- A set of a trigger table write that passes check 1 of R177; it stands disarmed. -/
def triggerOf (a : TriggerArg) : Option (Fin 8 × TriggerSet) := do
  let i ← finOf 8 a.number
  let factor ← factorOf a.factor
  let actions ← a.actions.mapM actionOf
  let chain ← maskOf a.chain
  let mode ← triggerModeOf a.mode
  if actions.length ≤ 2 ∧ chain.getLsbD i = false then
    some (i, { armed := false, factor := factor, actions := actions, chain := chain, mode := mode,
               faultGuard := a.faultGuard })
  else none

/-- A slot of a compare table write (R174). -/
def compareOf (a : CompareArg) : Option (Fin 4 × CompareSlot) := do
  let i ← finOf 4 a.slot
  let v ← word32Of a.value
  let m ← maskOf a.lineMask
  let d ← maskOf a.lineData
  let t ← maskOf a.triggerMask
  some (i, { enabled := a.enabled, value := BitVec.ofNat 32 v, lineMask := m, lineData := d, triggerMask := t })

/-- A pair of a capture table write (R173). -/
def captureOf (p : Nat × SourceArg) : Option (Fin 8 × Source) := do
  let i ← finOf 8 p.1
  let src ← sourceOf p.2
  some (i, src)

/-! ## Settings (R186) -/

/-- The settings, in the order of the table of R186. -/
inductive SettingName where
  | streamChunks | sealAge | laneTimeout | govWindow | reposLimit | resumeMark | devLimit | gripTimeout | heldRampCap
  | doorLine
  deriving DecidableEq, Repr

/-- Setting names are numbered 1 to 10 (R192). -/
def settingOf (n : Nat) : Option SettingName :=
  if n = 0 then none
  else [SettingName.streamChunks, .sealAge, .laneTimeout, .govWindow, .reposLimit, .resumeMark, .devLimit,
    .gripTimeout, .heldRampCap, .doorLine][n - 1]?

/-- The range of a setting (R186). -/
def SettingName.range : SettingName → Nat × Nat
  | .streamChunks => (1, 16)
  | .sealAge => (1, 60000)
  | .laneTimeout => (1, 600)
  | .govWindow => (6, 14)
  | .reposLimit => (1, 255)
  | .resumeMark => (1, 15)
  | .devLimit => (1, 255)
  | .gripTimeout => (100, 10000)
  | .heldRampCap => (0, 31)
  | .doorLine => (0, 7)

/-- A value clamped into its setting's range (R186). -/
def SettingName.clamp (n : SettingName) (v : Nat) : Nat := max n.range.1 (min v n.range.2)

end Sys2Proof.Machine
end

