-- ==== Sys2Proof/Machine/Flags.lean ====
section
/-! DEFINITION. Machine/Flags.lean: what the rules read off the state: views of the stored fields and the conditions
the rules test. Nothing here changes the state. -/

namespace Sys2Proof.Machine

/-! ## Directory (R90, R92) -/

/-- The record at an index. -/
def recordAt (i : CartId) (s : State) : Option Cart := s.cdr.records[i]

/-- The index that the location map names at a location; OUTSIDE and MISSING have no place (R92). -/
def namedAt (l : Location) (s : State) : Option CartId :=
  match l.place with
  | none => none
  | some p => s.cdr.map[p]

/-- The record the directory places at PICKER (R109). -/
def heldRecord (s : State) : Option CartId := namedAt .picker s

/-- The mounted cartridge's record, with its index (R56). -/
def mountedRecord (n : LaneId) (s : State) : Option (CartId × Cart) :=
  match s.lanes[n].mounted with
  | none => none
  | some i => (recordAt i s).map fun c => (i, c)

/-- In use by lane n (R92). -/
def inUseBy (i : CartId) (n : LaneId) (s : State) : Bool :=
  (decide (s.lanes[n].mounted = some i) && decide (s.lanes[n].state ≠ .ejected)) ||
    (decide (namedAt (.bay n) s = some i) &&
      (decide (s.lanes[n].state = .loading) || decide (s.lanes[n].state = .unloading)))

/-- The lanes, in order. -/
def allLanes : List LaneId := [0, 1, 2, 3]

/-- The lane that has a record in use, if any (R92). -/
def usingLane (i : CartId) (s : State) : Option LaneId := allLanes.find? fun n => inUseBy i n s

/-- Named by the mount queue (R92). -/
def namedByQueue (i : CartId) (s : State) : Bool := s.mounts.any fun m => decide (m.cart = some i)

/-- LOCATING, WRITING, HOLD or READING. -/
def LaneState.onTape : LaneState → Bool
  | .locating | .writing | .hold | .reading => true
  | _ => false

/-- In motion on tape (R92). -/
def inMotion (i : CartId) (s : State) : Bool :=
  allLanes.any fun n => decide (s.lanes[n].mounted = some i) && s.lanes[n].state.onTape

/-- In the library under this label: not empty, same label, not OUTSIDE or MISSING (R146, R162, R163). -/
def reachable (i : CartId) (label : List Byte) (s : State) : Bool :=
  match recordAt i s with
  | none => false
  | some c => decide (c.label = label) && decide (c.location ≠ .outside) && decide (c.location ≠ .missing)

/-! ## Streams (R9, R10) -/

/-- The lane that holds WRITE for a pool (R4, R58). -/
def writeLane (p : Fin 8) (s : State) : Option LaneId :=
  allLanes.find? fun n => decide (s.lanes[n].role = .write p)

/-- Both counts are 0 (R14, R15, R17). -/
def Stream.drained (st : Stream) : Bool := decide (st.staged = 0) && decide (st.uncommitted = 0)

/-- A segment of `k` bytes needs a new page (R8). -/
def needsPage (st : Stream) (k : Nat) : Bool :=
  match st.openChunk with
  | none => true
  | some c => decide (Config.pageBytes < c.bytes.length + k)

/-- Room for a new page (R9). -/
def pageRoom (st : Stream) (s : State) : Bool :=
  decide (st.staged < s.settings.streamChunks) && decide (s.pool.held.ingest < s.pool.quotas.ingest)

/-- The streams, in order. -/
def allStreams : List StreamId := List.finRange 32

/-! ## Pool and assembly (R20, R38, R84) -/

/-- The pages no region holds (R38). -/
def freePages (s : State) : Nat :=
  Config.poolPages - (s.pool.held.ingest + s.pool.held.assembly.toList.sum + s.pool.held.read)

/-- Open block room for a stream (R20). -/
def openRoom (st : StreamId) (n : LaneId) (s : State) : Bool :=
  match s.asm[n].openBlock with
  | none => false
  | some b => decide (b.fill + Config.largestRecord ≤ Config.payloadBytes) &&
      (b.runs.any (fun r => decide (r.stream = st)) || decide (b.runs.length < 8))

/-- New block room (R20). -/
def newRoom (n : LaneId) (s : State) : Bool :=
  decide (s.pool.held.assembly[n] + Config.blockPages ≤ s.pool.quotas.assembly[n])

/-- An entry is eligible (R20). -/
def eligible (e : Entry) (s : State) : Bool :=
  openRoom e.stream s.streams[e.stream].lane s || newRoom s.streams[e.stream].lane s

/-- The compressor holds an open block reservation on lane n's open block (R21, R51). -/
def reservedOpen (n : LaneId) (s : State) : Bool :=
  match s.cmp.engine with
  | none => false
  | some t => decide (t.reservation = .openRoom) && decide (s.streams[t.entry.stream].lane = n)

/-- The effective resume mark (R84). -/
def resumeMark (n : LaneId) (s : State) : Nat := min s.settings.resumeMark (s.pool.quotas.assembly[n] / 16)

/-- The sealed queue holds a mark-sealed block (R49, R73). -/
def hasMarkSealed (n : LaneId) (s : State) : Bool :=
  s.asm[n].sealedQueue.any fun b => decide (b.cause = .mark)

/-- The sealed queue holds a record of a stream that is FLUSHING or ABORTED (R84). -/
def hasUrgentStream (n : LaneId) (s : State) : Bool :=
  s.asm[n].sealedQueue.any fun b => b.runs.any fun r =>
    decide (s.streams[r.stream].state = .flushing) || decide (s.streams[r.stream].state = .aborted)

/-- A QUEUE_EMPTY hold ends (R84): the mark is reached, a mark-sealed block has joined, or a flushing or aborted
stream waits. The queue was empty when the hold began, so a mark-sealed block in it joined during the hold. -/
def resumes (n : LaneId) (s : State) : Bool :=
  decide (resumeMark n s ≤ s.asm[n].sealedQueue.length) || hasMarkSealed n s || hasUrgentStream n s

/-! ## Lanes (R64, R65, R73) -/

/-- The role is WRITE. -/
def Role.isWrite : Role → Bool
  | .write _ => true
  | .read => false

/-- The write-start test (R65). -/
def writeStarts (n : LaneId) (s : State) : Bool :=
  match s.lanes[n].role, mountedRecord n s with
  | .write p, some (_, c) =>
    decide (s.lanes[n].state = .ready) && decide (s.lanes[n].claim = .none) && !s.lanes[n].ejectPending &&
      (decide (c.state = .scratch) || decide (c.state = .filling)) && decide (c.pool = p) &&
      !s.asm[n].sealedQueue.isEmpty
  | _, _ => false

/-- The write position is known (R65). -/
def positionKnown (n : LaneId) (c : Cart) (s : State) : Bool :=
  decide (s.lanes[n].tapePosition = some c.endOfData) && !c.needsLocate

/-- A verify claim would be granted (R73). -/
def verifyGrants (n : LaneId) (s : State) : Bool :=
  decide (s.lanes[n].claim = .none) &&
    match s.lanes[n].role with
    | .read => decide (s.lanes[n].state = .ready)
    | .write _ => (decide (s.lanes[n].state = .ready) || decide (s.lanes[n].state = .hold)) &&
        s.asm[n].sealedQueue.isEmpty

/-- READY with activity none and pending claim none (R122). -/
def readyIdle (n : LaneId) (s : State) : Bool :=
  decide (s.lanes[n].state = .ready) && decide (s.lanes[n].activity = .none) && decide (s.lanes[n].claim = .none)

/-- The lane accepts an eject (R62, R64): READY with pending claim none, HOLD, UNKNOWN_MEDIA. -/
def ejectable (n : LaneId) (s : State) : Bool :=
  (decide (s.lanes[n].state = .ready) && decide (s.lanes[n].claim = .none)) || decide (s.lanes[n].state = .hold) ||
    decide (s.lanes[n].state = .unknownMedia)

/-- The refusal of a request that needs a lane in another state (R64). -/
def laneRefusal (n : LaneId) (s : State) : Status :=
  if s.lanes[n].command.isSome then .busy else .badState

/-! ## Catalog (R132, R136, R137, R142) -/

/-- The places held (R132). -/
def placesHeld (s : State) : Nat := (s.cat.places.toList.filter id).length

/-- The free room of the catalog (R132). -/
def freeRoom (s : State) : Nat := Config.catalogEntries - s.cat.entries.length - placesHeld s

/-- The entries with a status (R132). -/
def statusCount (st : BlockStatus) (s : State) : Nat := (s.cat.entries.filter fun e => decide (e.status = st)).length

/-- Entries of a cartridge (R96). -/
def hasEntries (i : CartId) (s : State) : Bool := s.cat.entries.any fun e => decide (e.cart = i)

/-- The search of R142: the oldest entry with a run for the stream that holds the sequence, with that run. -/
def searchCatalog (st : StreamId) (q : Nat) (s : State) : Option (CatEntry × CatRun) :=
  s.cat.entries.findSome? fun e =>
    (e.runs.find? fun r => decide (r.stream = st) && decide (r.first ≤ q) && decide (q ≤ r.last)).map fun r => (e, r)

/-! ## Loader (R114, R122, R127) -/

/-- HOMING, RUNNING or STOPPING (R111, R112). -/
def loaderMoving (s : State) : Bool :=
  decide (s.ldr.state = .homing) || decide (s.ldr.state = .running) || decide (s.ldr.state = .stopping)

/-- The travel position of a location (R111). -/
def positionAt (l : Location) (s : State) : Option Nat :=
  match l.travel with
  | none => none
  | some i => s.tables.positions[i]

/-- The two positions differ by more than DEV_LIMIT (R114). -/
def deviates (s : State) : Bool :=
  match s.ldr.logical, s.ldr.real with
  | some a, some b => decide (s.settings.devLimit < max a b - min a b)
  | _, _ => false

/-- The plan's current step (R109). -/
def planStep (p : Plan) : Option PlanStep := p.steps[p.current]?

/-- The step in progress while a plan is carried out. -/
def currentStep (s : State) : Option PlanStep :=
  match s.ldr.state, s.ldr.plan with
  | .running, some p => planStep p
  | .stopping, some p => planStep p
  | _, _ => none

/-- The picker holds a cartridge, by held sensor or held record (R122). -/
def pickerFull (s : State) : Bool := s.ldr.heldSensor || (heldRecord s).isSome

/-! ## Faults (R181) -/

/-- A lane or the loader is in FAULT. -/
def anyFault (s : State) : Bool :=
  decide (s.ldr.state = .fault) || allLanes.any fun n => decide (s.lanes[n].state = .fault)

end Sys2Proof.Machine
end

