-- ==== Sys2Proof/Machine/Ops.lean ====
section
/-! DEFINITION. Machine/Ops.lean: the named operations on the stored state: updates of one piece, replies and notices,
events, tests that fall due, pages, the directory and its map, the catalog, the mount queue's offers. -/

namespace Sys2Proof.Machine

/-! ## Updates of one piece -/

/-- One element of a vector changed. -/
def upd {α : Type} {k : Nat} (v : Vector α k) (i : Fin k) (f : α → α) : Vector α k := v.set i (f v[i])

def modLink (f : Link → Link) (s : State) : State := { s with link := f s.link }

def modStream (i : StreamId) (f : Stream → Stream) (s : State) : State := { s with streams := upd s.streams i f }

def modCmp (f : Compressor → Compressor) (s : State) : State := { s with cmp := f s.cmp }

def modExp (f : Expander → Expander) (s : State) : State := { s with exp := f s.exp }

def modPool (f : Pool → Pool) (s : State) : State := { s with pool := f s.pool }

def modAsm (n : LaneId) (f : Assembly → Assembly) (s : State) : State := { s with asm := upd s.asm n f }

def modLane (n : LaneId) (f : Lane → Lane) (s : State) : State := { s with lanes := upd s.lanes n f }

def modGov (n : LaneId) (f : Governor → Governor) (s : State) : State := { s with gov := upd s.gov n f }

def modCdr (f : Directory → Directory) (s : State) : State := { s with cdr := f s.cdr }

def modLdr (f : Loader → Loader) (s : State) : State := { s with ldr := f s.ldr }

def modCat (f : Catalog → Catalog) (s : State) : State := { s with cat := f s.cat }

def modVfy (f : Verify → Verify) (s : State) : State := { s with vfy := f s.vfy }

def modCtx (n : LaneId) (f : VerifyContext → VerifyContext) (s : State) : State :=
  { s with vfy := { s.vfy with contexts := upd s.vfy.contexts n f } }

def modRse (f : Restore → Restore) (s : State) : State := { s with rse := f s.rse }

/-- A change of the active restore, if there is one. -/
def modActive (f : RestoreContext → RestoreContext) (s : State) : State :=
  { s with rse := { s.rse with active := s.rse.active.map f } }

def modTtu (f : Ttu → Ttu) (s : State) : State := { s with ttu := f s.ttu }

def setMounts (l : List MountRequest) (s : State) : State := { s with mounts := l }

/-! ## Tests that fall due (log entry 2) -/

/-- A test falls due: it joins the tail of the list. -/
def post (d : Due) (s : State) : State := { s with due := s.due ++ [d] }

/-- A test of the block whose own rules come first: it joins the front (R146, log entry 3). -/
def postFirst (d : Due) (s : State) : State := { s with due := d :: s.due }

/-- A test that is owed no more, all its entries leaving the list. -/
def dropDue (d : Due) (s : State) : State := { s with due := s.due.filter fun e => decide (e ≠ d) }

/-- The test is carried out: its first entry leaves the list. -/
def takeDue (d : Due) (s : State) : State := { s with due := s.due.erase d }

/-- The same operation for each of a list of things, in order. -/
def forEach {α : Type} (l : List α) (f : α → State → State) (s : State) : State := l.foldl (fun s a => f a s) s

/-- An event is raised toward the time and trigger unit (R171). -/
def raise (k : EventKind) (q : Option Nat) (s : State) : State := post (.event { kind := k, qual := q }) s

/-! ## Free values (log entries 10 to 12) -/

/-- A 32-bit value that the spec leaves open is drawn. -/
def drawCount (s : State) : Nat × State := ((Config.freeCount s.freeCount).toNat, { s with freeCount := s.freeCount + 1 })

/-- A 32-bit count raised by `k`; past its range the value is open (log entry 12). -/
def raised (n k : Nat) (s : State) : Nat × State := if n + k ≤ max32 then (n + k, s) else drawCount s

/-! ## Replies and notices (R184, R188) -/

/-- A reply joins the reply list (R184). -/
def answer (h : Hdr) (code : Nat) (st : Status) (body : ReplyBody) (s : State) : State :=
  modLink (fun l => { l with replies := l.replies ++
    [{ tag := h.tag, subject := h.subject, code := code, status := st, body := body }] }) s

/-- A refused request: a reply and no other change (R185). -/
def refuse (h : Hdr) (code : Nat) (st : Status) (s : State) : State := answer h code st .none s

/-- A notice is offered to the notice queue (R188). -/
def offerNotice (b : NoticeBody) (s : State) : State :=
  if Config.noticeRoom ≤ s.link.notices.length then modLink (fun l => { l with overflow := true }) s
  else modLink (fun l => { l with notices := l.notices ++ [{ body := b, placed := s.ttu.time }] }) s

/-! ## Streams (R10, R12) -/

/-- The resume check of a stream falls due if it is paused (R10). -/
def checkResume (i : StreamId) (s : State) : State :=
  if s.streams[i].paused = true then post (.streamResume i) s else s

/-- The resume check of every paused stream (R10, R41), in the order of their numbers (log entry 3). -/
def checkAllResumes (s : State) : State := forEach allStreams checkResume s

/-- The completion check of a stream's pending flush, close or abort (R12). -/
def checkComplete (i : StreamId) (s : State) : State :=
  if s.streams[i].drained = true then
    match s.streams[i].state with
    | .flushing => post (.streamFlushed i) s
    | .closing => post (.closeComplete i) s
    | .aborted => post (.abortComplete i) s
    | _ => s
  else s

/-! ## Pages (R38 to R44) -/

def modHeld (f : Regions → Regions) (s : State) : State := modPool (fun p => { p with held := f p.held }) s

/-- One ingest page granted (R41). -/
def takeIngest (s : State) : State := modHeld (fun h => { h with ingest := h.ingest + 1 }) s

/-- Ingest pages freed; each free is followed by the resume test of every paused stream (R41). -/
def freeIngest (k : Nat) (s : State) : State :=
  if k = 0 then s else checkAllResumes (modHeld (fun h => { h with ingest := h.ingest - k }) s)

/-- The 16 pages of a block granted to a lane's assembler (R42). -/
def takeAssembly (n : LaneId) (s : State) : State :=
  modHeld (fun h => { h with assembly := upd h.assembly n (· + Config.blockPages) }) s

/-- The 16 pages of a committed block freed, and the take test that follows (R42). -/
def freeAssembly (n : LaneId) (s : State) : State :=
  post .compressorTake (modHeld (fun h => { h with assembly := upd h.assembly n (· - Config.blockPages) }) s)

/-- Read pages freed, and the service of the waiting list that follows (R43, R44). -/
def freeRead (k : Nat) (s : State) : State :=
  if k = 0 then s else post .readGrant (modHeld (fun h => { h with read := h.read - k }) s)

/-- Room for a read request (R38). -/
def readFits (k : Nat) (s : State) : Bool := decide (s.pool.held.read + k ≤ s.pool.quotas.read)

/-- Read pages granted (R43). -/
def takeRead (k : Nat) (s : State) : State := modHeld (fun h => { h with read := h.read + k }) s

/-- A read request joins the waiting list: the restore's at the front, a verify's at the tail (R43). -/
def waitRead (c : ReadClient) (k : Nat) (s : State) : State :=
  let w : ReadWait := { client := c, pages := k }
  post .readGrant (modPool (fun p => { p with waiting := if c = .restore then w :: p.waiting else p.waiting ++ [w] }) s)

/-- A read request is withdrawn; a new front is tested (R43). -/
def withdrawRead (c : ReadClient) (s : State) : State :=
  if s.pool.waiting.any (fun w => decide (w.client = c)) = true then
    post .readGrant (modPool (fun p => { p with waiting := p.waiting.filter fun w => decide (w.client ≠ c) }) s)
  else s

/-! ## Expander slots (R31) -/

/-- What a client's slot holds (R31). -/
def clientSlot (c : ReadClient) (s : State) : Option ExpandRequest :=
  match c with
  | .restore => s.exp.restoreSlot
  | .verify n => s.exp.verifySlots[n]

/-- A change of a client's slot (R31). -/
def modSlot (c : ReadClient) (f : Option ExpandRequest → Option ExpandRequest) (s : State) : State :=
  match c with
  | .restore => modExp (fun e => { e with restoreSlot := f e.restoreSlot }) s
  | .verify n => modExp (fun e => { e with verifySlots := upd e.verifySlots n f }) s

/-- A client's request for a record: the restore's comes with an output page, a verify's without (R31). -/
def ReadClient.request (c : ReadClient) (r : WalkedRecord) : ExpandRequest :=
  { record := r, outputPage := decide (c = .restore), abandoned := false, keptPages := 0 }

/-- A client places a request in its slot, and the engine's test falls due (R31, R32). -/
def offerRecord (c : ReadClient) (r : WalkedRecord) (s : State) : State :=
  post .expanderTake (modSlot c (fun _ => some (c.request r)) s)

/-- The engine expands a record of the client (R36). -/
def inEngine (c : ReadClient) (s : State) : Bool := s.exp.engine.any fun x => decide (x.client = c)

/-- The client holds its next record back: its slot is occupied or its record is in expansion, be that an earlier one
that it has given up (R31). -/
def clientBusy (c : ReadClient) (s : State) : Bool := (clientSlot c s).isSome || inEngine c s

/-- A client's slot is emptied; a request that had been given up while it waited there lets go the pages kept for it
(R31, R44). -/
def emptySlot (c : ReadClient) (s : State) : State :=
  match clientSlot c s with
  | none => s
  | some q => freeRead q.keptPages (modSlot c (fun _ => none) s)

/-- A request's client has given its block up; its pages stay until the outcome returns (R36, R44). -/
def ExpandRequest.giveUp (k : Nat) (q : ExpandRequest) : ExpandRequest := { q with abandoned := true, keptPages := k }

/-- The client's record is in expansion, not given up (R36). -/
def expanding (c : ReadClient) (s : State) : Bool :=
  s.exp.engine.any fun x => decide (x.client = c) && !x.request.abandoned

/-- The client's record waits in its slot, not given up (R31). -/
def awaiting (c : ReadClient) (s : State) : Bool := (clientSlot c s).any fun q => !q.abandoned

/-- A client gives up `k` pages, its slot left as it is: they are freed when the outcome of its record in expansion, or
of the one that waits in its slot, returns, and at once when it has no such record (R36, R37, R44). All pages of the
block, and the output page, are kept with the record (log entry 42). -/
def surrenderPages (c : ReadClient) (k : Nat) (s : State) : State :=
  if expanding c s = true then
    modExp (fun e => { e with engine := e.engine.map fun x => { x with request := x.request.giveUp k } }) s
  else if awaiting c s = true then modSlot c (Option.map (ExpandRequest.giveUp k)) s
  else freeRead k s

/-- A client that abandons its work: its slot is emptied, and it gives up `k` pages (R31, R36, R44). -/
def abandonPages (c : ReadClient) (k : Nat) (s : State) : State := surrenderPages c k (emptySlot c s)

/-! ## Directory and location map (R92, R93, R97) -/

/-- A change of the record at an index, if it holds one. -/
def modRecord (i : CartId) (f : Cart → Cart) (s : State) : State :=
  modCdr (fun d => { d with records := upd d.records i (Option.map f) }) s

/-- What the map names at a location is set; OUTSIDE and MISSING have no place (R92). -/
def setPlace (l : Location) (r : Option CartId) (s : State) : State :=
  match l.place with
  | none => s
  | some p => modCdr (fun d => { d with map := upd d.map p fun _ => r }) s

/-- The place that names a record becomes empty (R97). -/
def clearPlace (i : CartId) (s : State) : State :=
  match recordAt i s with
  | none => s
  | some c => if namedAt c.location s = some i then setPlace c.location none s else s

/-- A record other than `i` that the place at a location names becomes MISSING, so that map and locations agree (R92,
log entry 17). -/
def displaceOther (i : CartId) (l : Location) (s : State) : State :=
  match namedAt l s with
  | none => s
  | some j => if j = i then s else modRecord j (fun c => { c with location := .missing }) s

/-- A record moves to a location (R93). -/
def moveRecord (i : CartId) (l : Location) (s : State) : State :=
  setPlace l (some i) (modRecord i (fun c => { c with location := l }) (clearPlace i (displaceOther i l s)))

/-- A record is written at an index (R97). -/
def putRecord (i : CartId) (c : Cart) (s : State) : State :=
  setPlace c.location (some i) (modCdr (fun d => { d with records := upd d.records i fun _ => some c }) (clearPlace i s))

/-- An index becomes empty (R96, R104). -/
def dropRecord (i : CartId) (s : State) : State :=
  modCdr (fun d => { d with records := upd d.records i fun _ => none }) (clearPlace i s)

/-- The needs locate flag of a lane's mounted cartridge (R56, R105). -/
def setNeedsLocate (n : LaneId) (b : Bool) (s : State) : State :=
  match s.lanes[n].mounted with
  | none => s
  | some i => modRecord i (fun c => { c with needsLocate := b }) s

/-- A lane with fill wanted that writes for a pool is to ask for a scratch pick (R71). -/
def askPick (p : Fin 8) (s : State) : State :=
  match writeLane p s with
  | none => s
  | some n => if s.lanes[n].fillWanted = true then post (.scratchPick n) s else s

/-- A record that has become a candidate for a scratch pick: SCRATCH at a storage slot (R97, R103, R106). -/
def askPickFor (i : CartId) (s : State) : State :=
  match recordAt i s with
  | none => s
  | some c =>
    match c.state, c.location with
    | .scratch, .slot _ => askPick c.pool s
    | _, _ => s

/-- The write-start test of the lanes on which a record is mounted (R65, R97, R102, R103). -/
def writeTestFor (i : CartId) (s : State) : State :=
  forEach allLanes (fun n s => if s.lanes[n].mounted = some i then postFirst (.writeStart n) s else s) s

/-! ## Catalog (R133 to R141) -/

/-- The room report, while there is room: every lane in HOLD for catalog room asks again (R136), in the order of the lanes
(log entry 3). -/
def roomReport (s : State) : State :=
  if 0 < freeRoom s then
    forEach allLanes (fun n s => if s.lanes[n].holdReason = some .catalogFull then post (.catalogHold n) s else s) s
  else s

/-- A place given up unused, and the room report that follows (R133). -/
def releasePlace (n : LaneId) (s : State) : State :=
  if s.cat.places[n] = true then roomReport (modCat (fun c => { c with places := upd c.places n fun _ => false }) s)
  else s

/-- A lane asks for a place (R133): whether it is granted, and the state after the request. -/
def askPlace (n : LaneId) (s : State) : Bool × State :=
  if s.cat.places[n] = true then (true, s)
  else if 0 < freeRoom s then
    (true, modCat (fun c => { c with places := upd c.places n fun _ => true, fullReported := false }) s)
  else if s.cat.fullReported = true then (false, s)
  else
    (false, modCat (fun c => { c with fullReported := true })
      (offerNotice (.catalogFull n s.cat.entries.length) s))

/-- A committed block becomes an entry (R134), with the high-mark test (R135). -/
def insertEntry (n : LaneId) (i : CartId) (label : List Byte) (block : Nat) (runs : List Run) (s : State) : State :=
  let e : CatEntry :=
    { serial := s.cat.nextSerial, cart := i, label := label, block := block, lane := n, commitTime := s.ttu.time,
      runs := runs.map fun r => { stream := r.stream, first := r.first, last := r.last }, status := .unverified }
  let s := modCat (fun c => { c with entries := c.entries ++ [e], nextSerial := c.nextSerial + 1,
                                     places := upd c.places n fun _ => false }) s
  if s.cat.entries.length = Config.highMark then
    offerNotice (.catalogHigh s.cat.entries.length ((s.cat.entries.head?.map CatEntry.serial).getD 0)
      s.cat.nextSerial) s
  else s

/-- The entries that a removal takes leave the list; the room report follows when any left (R139, R140). -/
def keepEntries (keep : List CatEntry → List CatEntry) (s : State) : State :=
  let s' := modCat (fun c => { c with entries := keep c.entries }) s
  if s'.cat.entries.length < s.cat.entries.length then roomReport s' else s'

/-- Every entry of an index whose block is `b` or above leaves the list (R140). -/
def removeEntries (i : CartId) (b : Nat) (s : State) : State :=
  keepEntries (List.filter fun e => !(decide (e.cart = i) && decide (b ≤ e.block))) s

/-- A block is marked (R141). -/
def markEntry (i : CartId) (b : Nat) (st : BlockStatus) (s : State) : State :=
  modCat (fun c => { c with entries := c.entries.map fun e =>
    if e.cart = i ∧ e.block = b then { e with status := st } else e }) s

/-! ## Mount queue (R119 to R121) -/

/-- The higher of two classes (R121). -/
def MountClass.max : MountClass → MountClass → MountClass
  | .urgent, _ => .urgent
  | _, .urgent => .urgent
  | .normal, _ => .normal
  | _, .normal => .normal
  | .background, .background => .background

/-- A requester is added, or its tag replaced (R121). -/
def addRequester (r : Requester) (tag : Nat) (l : List (Requester × Nat)) : List (Requester × Nat) :=
  if l.any (fun p => decide (p.1 = r)) then l.map fun p => if p.1 = r then (r, tag) else p else l ++ [(r, tag)]

/-- A request joins the queue, and the serve test falls due (R119, R122). -/
def enqueueMount (m : MountRequest) (s : State) : State := post .serveTest (setMounts (s.mounts ++ [m]) s)

/-- An internal request for a MOUNT (R121): merged, queued, or turned away for lack of room. The answer says whether
it stands in the queue. A merge by the requester that made the request replaces the request's tag with its own. -/
def offerMount (i : CartId) (target : MountTarget) (cls : MountClass) (r : Requester) (tag : Nat)
    (fill : Option LaneId) (s : State) : Bool × State :=
  if namedByQueue i s = true then
    (true, setMounts (s.mounts.map fun m =>
      if m.cart = some i then
        { m with cls := m.cls.max cls, requesters := addRequester r tag m.requesters,
                 tag := if m.requesters.head?.map Prod.fst = some r then tag else m.tag,
                 fillLane := if fill.isSome then fill else m.fillLane }
      else m) s)
  else if Config.mountRoom ≤ s.mounts.length then (false, s)
  else
    (true, enqueueMount { kind := .mount, cart := some i, target := target, cls := cls, requesters := [(r, tag)],
                          tag := tag, fillLane := fill, inService := false, rebuilt := none } s)

/-- The queue's room notice at a removal: the requesters it turned away offer again (R121). -/
def mountRoomNotice (s : State) : State :=
  let s := forEach allLanes (fun n s => if s.lanes[n].pickNoRoom = true then post (.scratchPick n) s else s) s
  post .restoreRoom (post .verifyStart s)

/-- The scratch pick's candidate at the lowest slot (R106). -/
def scratchCandidate (p : Fin 8) (s : State) : Option CartId :=
  (List.finRange 48).findSome? fun i =>
    match namedAt (.slot i) s with
    | none => none
    | some r =>
      match recordAt r s with
      | none => none
      | some c => if c.state = .scratch ∧ c.pool = p ∧ namedByQueue r s = false then some r else none

/-- The scratch pick (R71, R106). -/
def pickScratch (n : LaneId) (s : State) : State :=
  match s.lanes[n].role with
  | .read => s
  | .write p =>
    if s.lanes[n].fillWanted = false then s
    else
      match scratchCandidate p s with
      | none => offerNotice (.noScratch n p) (modLane n (fun l => { l with pickNoRoom := false }) s)
      | some r =>
        let a := offerMount r (.lane n) .normal .laneFill 0 (some n) s
        if a.1 = true then modLane n (fun l => { l with fillWanted := false, pickNoRoom := false }) a.2
        else modLane n (fun l => { l with pickNoRoom := true }) a.2

end Sys2Proof.Machine
end

