-- ==== Sys2Proof/Machine/LaneOps.lean ====
section
/-! DEFINITION. Machine/LaneOps.lean: what a drive lane does by itself: its state and the reports that follow a change,
commands to its drive, writing, holding, the restore's grant, reading one block. -/

namespace Sys2Proof.Machine

/-! ## Reports and states (R77, R122, R146, R154, R163) -/

/-- A lane reports a change of its state, activity or pending claim to the blocks that test it: the restore, the
lane's suspended pass, the loader and the verify queue (log entry 3). -/
def laneReport (n : LaneId) (s : State) : State :=
  post .verifyStart (post .serveTest (post (.ejectAsk n) (post (.verifyResume n) (post (.restoreLane n) s))))

/-- A window starts (R77). -/
def startWindow (n : LaneId) (s : State) : State :=
  modGov n (fun g => { g with window := some { start := s.ttu.time, exponent := s.settings.govWindow }, inflow := 0,
                              repositions := 0, delivered := 0 }) s

/-- The window timer at a change of the lane's state: it starts at each entry into WRITING, runs on in HOLD and stops
in every other state (R77). -/
def windowTimer (n : LaneId) (old new : LaneState) (s : State) : State :=
  match new with
  | .writing => if old = .writing then s else startWindow n s
  | .hold => s
  | _ => modGov n (fun g => { g with window := none }) s

/-- A lane enters a state: a hold reason is present in HOLD only, the window timer follows, the lane reports. -/
def setLaneState (n : LaneId) (st : LaneState) (s : State) : State :=
  laneReport n (windowTimer n s.lanes[n].state st
    (modLane n (fun l => { l with state := st, holdReason := none }) s))

/-- A lane becomes READY, and makes the write-start test before its neighbours' tests (R65, R146). -/
def becomeReady (n : LaneId) (s : State) : State := postFirst (.writeStart n) (setLaneState n .ready s)

/-- A command is sent to the drive (R59). -/
def sendCommand (n : LaneId) (c : DriveCommand) (s : State) : State :=
  let f : InFlight := { command := c, sentAt := s.ttu.time, limit := s.settings.laneTimeout * 100000 }
  modLane n (fun l => { l with command := some f }) s

/-- The drive is asked to thread (R61, R62). -/
def sendThread (n : LaneId) (s : State) : State :=
  setLaneState n .loading (sendCommand n .thread (modLane n (fun l => { l with fillWanted := false, pickNoRoom := false }) s))

/-! ## Restore claims granted (R73) -/

/-- A restore claim is granted (R73). -/
def grantRestore (n : LaneId) (s : State) : State :=
  let s := modLane n (fun l => { l with claim := .none, activity := .restore, releasing := false, discard := false,
                                        readBlock := none }) s
  let s := releasePlace n (setLaneState n .reading s)
  if s.lanes[n].role.isWrite = true then setNeedsLocate n true s else s

/-! ## Writing and holding (R65, R66, R83) -/

/-- A writing lane enters HOLD (R83). -/
def enterHold (n : LaneId) (r : HoldReason) (s : State) : State :=
  raise .laneHold (some n) (modLane n (fun l => { l with holdReason := some r }) (setLaneState n .hold s))

/-- The head is sent, or STEP before it (R66 steps 3 and 4, R81). -/
def sendBlock (n : LaneId) (s : State) : State :=
  if s.lanes[n].driveStep = some s.gov[n].step then
    match mountedRecord n s with
    | none => s
    | some (_, c) => sendCommand n (.write c.endOfData) (modLane n (fun l => { l with tapePosition := none }) s)
  else sendCommand n (.step s.gov[n].step) s

/-- A WRITING lane with no command in flight sends the head of its sealed queue (R66). -/
def sendHead (n : LaneId) (s : State) : State :=
  if s.lanes[n].claim = .restore then grantRestore n s
  else
    let a := askPlace n s
    if a.1 = true then sendBlock n a.2 else enterHold n .catalogFull a.2

/-- A lane enters WRITING and sends the head (R65). -/
def enterWriting (n : LaneId) (s : State) : State := sendHead n (setLaneState n .writing s)

/-- A lane that is to write checks its position first: it writes, or locates to end of data (R65, R84). -/
def startWriting (n : LaneId) (s : State) : State :=
  match mountedRecord n s with
  | none => s
  | some (_, c) =>
    if positionKnown n c s = true then enterWriting n s
    else setLaneState n .locating (sendCommand n (.locate c.endOfData .write) s)

/-- The write-start test (R65). -/
def writeStart (n : LaneId) (s : State) : State := if writeStarts n s = true then startWriting n s else s

/-- The resume test of a lane in HOLD with reason QUEUE_EMPTY (R84). -/
def holdResume (n : LaneId) (s : State) : State :=
  if s.lanes[n].holdReason = some .queueEmpty ∧ resumes n s = true then startWriting n s else s

/-- A lane holding for catalog room asks for a place (R85). -/
def catalogResume (n : LaneId) (s : State) : State :=
  if s.lanes[n].holdReason = some .catalogFull then
    let a := askPlace n s
    if a.1 = true then startWriting n a.2 else a.2
  else s

/-! ## Reading one block (R72) -/

/-- The reading client asks for a block; with a command in flight it is refused and asks again (R72). -/
def laneRead (n : LaneId) (b : Nat) (s : State) : State :=
  if s.lanes[n].command.isSome = true then s
  else
    let s := modLane n (fun l => { l with readBlock := some b }) s
    if s.lanes[n].tapePosition = some b then sendCommand n (.read b) s
    else setLaneState n .locating (sendCommand n (.locate b .read) s)

end Sys2Proof.Machine
end

