-- ==== Sys2Proof/Machine/SpeedOps.lean ====
section
/-! DEFINITION. Machine/SpeedOps.lean: the governor's computation at a window end (R79, R80) and its counters. -/

namespace Sys2Proof.Machine

/-- Smoothing: S + floor((I - S)/4), rounded toward minus infinity (R79). -/
def smooth (old inflow : Nat) : Nat := ((old : Int) + ((inflow : Int) - old) / 4).toNat

/-- Supply: S + floor(Q/8) (R79). -/
def supply (smoothed blocks : Nat) : Nat := smoothed + blocks * Config.blockBytes / 8

/-- The target: the largest step whose demand is at most the supply, or 0 (R79). -/
def target (rates : List Nat) (w sup : Nat) : Nat := (rates.takeWhile fun r => decide (r * 2 ^ w ≤ sup)).length - 1

/-- The step and the stable count after a window end (R80). -/
def stepDecision (limit repositions t c stable : Nat) : Nat × Nat :=
  if limit ≤ repositions ∧ 0 < c then (c - 1, 0)
  else if t = c then (c, 0)
  else if stable + 1 = 2 then (if c < t then c + 1 else c - 1, 0)
  else (c, stable + 1)

/-- A window ends (R77, R79, R80). -/
def windowEnd (n : LaneId) (s : State) : State :=
  match s.gov[n].window with
  | none => s
  | some w =>
    let g := s.gov[n]
    let sm := smooth g.smoothed g.inflow
    let t := target s.tables.speed w.exponent (supply sm s.asm[n].sealedQueue.length)
    let d := stepDecision s.settings.reposLimit g.repositions t g.step g.stable
    let m : RateMeter :=
      { inflow := g.inflow, delivered := g.delivered, repositions := g.repositions, exponent := w.exponent }
    startWindow n (modGov n (fun g => { g with smoothed := sm, step := d.1, stable := d.2, meter := m }) s)

/-- A REPOSITION is counted (R78). -/
def countReposition (n : LaneId) (s : State) : State :=
  modGov n (fun g => { g with
    repositions := if g.window.isSome = true then satAdd 255 g.repositions 1 else g.repositions,
    repositionTotal := satAdd 65535 g.repositionTotal 1 }) s

/-- The step is clamped into a new speed table (R82). -/
def clampStep (last : Nat) (g : Governor) : Governor := if last < g.step then { g with step := last, stable := 0 } else g

/-- A tick spent in HOLD (R83). -/
def countStarve (n : LaneId) (s : State) : State :=
  if s.lanes[n].state = .hold then modGov n (fun g => { g with starve := satAdd max32 g.starve 1 }) s else s

end Sys2Proof.Machine
end

