-- ==== Sys2Proof/Machine/VerifyOps.lean ====
section
/-! DEFINITION. Machine/VerifyOps.lean: the end of a verify pass, the eject and the release of a lane that may end or
follow one, and the work of a pass on its blocks (09; R62, R74). -/

namespace Sys2Proof.Machine

/-! ## Ends without a complete pass (R152, R157) -/

/-- VERIFY_DONE for a request that never started: no lane, counts 0 (R152, log entry 37). -/
def requestNotice (r : VerifyRequest) (res : VerifyResult) (s : State) : State :=
  offerNotice (.verifyDone none r.cart r.label r.origin r.first (r.last.map Int.ofNat) res 0 0 0 0 none r.first) s

/-- VERIFY_DONE for a pass on lane n (R152). -/
def passNotice (n : LaneId) (c : VerifyContext) (res : VerifyResult) (s : State) : State :=
  offerNotice (.verifyDone (some n) c.cart c.label c.origin c.first (some c.last) res c.checked c.badBlocks c.records
    c.badRecords c.firstBad c.next) s

/-- A read asked of a lane is withdrawn: an answer in flight will be discarded (R72). -/
def withdrawLaneRead (n : LaneId) (s : State) : State :=
  if s.lanes[n].command.isSome = true then modLane n (fun l => { l with discard := true, readBlock := none }) s
  else modLane n (fun l => { l with readBlock := none }) s

/-- The work of a pass on its block in hand is withdrawn according to its stage (R157). -/
def withdrawPass (n : LaneId) (s : State) : State :=
  let c := s.vfy.contexts[n]
  match c.stage with
  | .none => s
  | .pages => withdrawRead (.verify n) s
  | .read => freeRead Config.blockPages (withdrawLaneRead n s)
  | .check => abandonPages (.verify n) Config.blockPages s

/-- A pass is ended as ABANDONED; the release of a RUNNING pass's lane is its caller's (R157). What the IDLE context
keeps is log entry 43. -/
def endPass (n : LaneId) (res : VerifyResult) (s : State) : State :=
  let c := s.vfy.contexts[n]
  if c.state = .idle then s
  else post .verifyStart (passNotice n c res (modCtx n VerifyContext.ended (withdrawPass n s)))

/-! ## Eject and release (R62, R74) -/

/-- The lane sends EJECT and becomes UNLOADING; a pass it still holds ends as UNLOADED (R62, R157). -/
def sendEject (n : LaneId) (s : State) : State :=
  endPass n .unloaded (setLaneState n .unloading (sendCommand n .eject s))

/-- A release takes effect (R74). -/
def doRelease (n : LaneId) (s : State) : State :=
  let s := modLane n (fun l => { l with activity := .none, releasing := false, discard := false, readBlock := none }) s
  if s.lanes[n].claim = .restore then grantRestore n s
  else if s.lanes[n].ejectPending = true then sendEject n s
  else becomeReady n (modLane n (fun l => { l with claim := .none }) s)

/-- A reading client releases the lane; with a command in flight the release waits for its answer (R74). -/
def releaseLane (n : LaneId) (s : State) : State :=
  if s.lanes[n].command.isSome = true then modLane n (fun l => { l with releasing := true }) s else doRelease n s

/-- A release that waited for an answer takes effect (R74). -/
def finishRelease (n : LaneId) (s : State) : State := if s.lanes[n].releasing = true then doRelease n s else s

/-! ## Reading and checking (R149 to R152) -/

/-- The context asks its lane to read the block in hand (R149). -/
def passRead (n : LaneId) (s : State) : State :=
  laneRead n s.vfy.contexts[n].next (modCtx n (fun c => { c with stage := .read, pages := true }) s)

/-- The context asks for 16 pages for its next block (R43, R149). -/
def passPages (n : LaneId) (s : State) : State :=
  let s := modCtx n (fun c => { c with stage := .pages, inHand := some c.next }) s
  if s.pool.waiting = [] ∧ readFits Config.blockPages s = true then passRead n (takeRead Config.blockPages s)
  else waitRead (.verify n) Config.blockPages s

/-- Verified to is raised by a pass that ends PASSED (R152, R105). -/
def raiseVerified (c : VerifyContext) (s : State) : State :=
  match recordAt c.cart s with
  | none => s
  | some r =>
    if c.badBlocks = 0 ∧ c.first ≤ r.verifiedTo ∧ r.label = c.label then
      modRecord c.cart (fun r => { r with verifiedTo := min r.endOfData (max r.verifiedTo (c.last + 1).toNat) }) s
    else s

/-- A pass is complete (R152). -/
def completePass (n : LaneId) (s : State) : State :=
  let c := s.vfy.contexts[n]
  let s := modCtx n VerifyContext.ended (raiseVerified c s)
  let s := if c.state = .running then releaseLane n s else s
  post .verifyStart (passNotice n c (if c.badBlocks = 0 then .passed else .failed) s)

/-- The pass goes to its next block, or is complete, or waits while SUSPENDED (R149). -/
def passAdvance (n : LaneId) (s : State) : State :=
  let c := s.vfy.contexts[n]
  if c.last < (c.next : Int) then completePass n s
  else if c.state = .running then passPages n s
  else s

/-- The checks of the block in hand have finished (R151 steps 1 to 4). -/
def blockDone (n : LaneId) (s : State) : State :=
  let c := s.vfy.contexts[n]
  let b := c.inHand.getD c.next
  let checked := raised c.checked 1 s
  let bad := if c.blockBad = true then raised c.badBlocks 1 checked.2 else (c.badBlocks, checked.2)
  let s := modCtx n (fun c => { c with checked := checked.1, badBlocks := bad.1,
                                       firstBad := if c.blockBad = true ∧ c.firstBad = none then some b else c.firstBad,
                                       next := b + 1, inHand := none, stage := .none, blockBad := false, todo := [],
                                       pages := false }) bad.2
  passAdvance n (markEntry c.cart b (if c.blockBad = true then .bad else .verified) s)

/-- The next record of the block in hand is offered to the expander, or held while an earlier record of the client is
there (R31), or the block's checks have finished (R151). -/
def passRecords (n : LaneId) (s : State) : State :=
  match s.vfy.contexts[n].todo with
  | [] => blockDone n (freeRead Config.blockPages s)
  | r :: rest =>
    if clientBusy (.verify n) s = true then s
    else offerRecord (.verify n) r (modCtx n (fun c => { c with todo := rest }) s)

/-- The lane has answered with the block or with a failed read (R150). -/
def passBlock (n : LaneId) (read : Option (List Byte)) (s : State) : State :=
  let c := s.vfy.contexts[n]
  match testBlock read c.label (c.inHand.getD c.next) with
  | .error _ =>
    blockDone n (raise .verifyMismatch (some n) (freeRead Config.blockPages
      (modCtx n (fun c => { c with stage := .check, blockBad := true, pages := false }) s)))
  | .ok rs => passRecords n (modCtx n (fun c => { c with stage := .check, todo := rs }) s)

/-- The expander has returned an outcome for a record of the pass (R151). -/
def passOutcome (n : LaneId) (o : Expanded) (s : State) : State :=
  let c := s.vfy.contexts[n]
  let records := raised c.records 1 s
  match o with
  | .good _ => passRecords n (modCtx n (fun c => { c with records := records.1 }) records.2)
  | _ =>
    let bad := raised c.badRecords 1 records.2
    passRecords n (raise .verifyMismatch (some n)
      (modCtx n (fun c => { c with records := records.1, badRecords := bad.1, blockBad := true }) bad.2))

/-! ## Suspension, claims and starts (R73, R146 to R148, R153, R154) -/

/-- A suspension is asked for (R153, R154). -/
def suspendPass (n : LaneId) (cause : SuspendCause) (s : State) : State :=
  let c := s.vfy.contexts[n]
  match c.state with
  | .idle => releaseLane n s
  | .suspended => modCtx n (fun c => { c with cause := some cause }) s
  | .running =>
    let s := modCtx n (fun c => { c with state := .suspended, cause := some cause }) s
    match c.stage with
    | .none => releaseLane n s
    | .pages =>
      releaseLane n (withdrawRead (.verify n) (modCtx n (fun c => { c with stage := .none, inHand := none }) s))
    | .read =>
      if s.lanes[n].command.isSome = true then releaseLane n s
      else releaseLane n (freeRead Config.blockPages
        (modCtx n (fun c => { c with stage := .none, inHand := none, pages := false }) s))
    | .check => releaseLane n s

/-- A verify claim is granted (R73). -/
def grantVerify (n : LaneId) (s : State) : State :=
  let s := setLaneState n .reading (modLane n (fun l => { l with activity := .verify }) s)
  if s.lanes[n].role.isWrite = true then setNeedsLocate n true s else s

/-- A SUSPENDED pass whose claim is granted becomes RUNNING and goes on at its resume point (R154). -/
def resumePass (n : LaneId) (s : State) : State :=
  let s := modCtx n (fun c => { c with state := .running, cause := none }) (grantVerify n s)
  if s.vfy.contexts[n].stage = .none then passAdvance n s else s

/-- A context suspended with cause RESTORE or WRITE claims its lane again (R154). -/
def autoResume (n : LaneId) (s : State) : State :=
  let c := s.vfy.contexts[n]
  if c.state = .suspended ∧ (c.cause = some .restore ∨ c.cause = some .write) ∧ verifyGrants n s = true then resumePass n s
  else s

/-- A request starts on lane n, whose claim has been granted (R148). -/
def startPass (n : LaneId) (r : VerifyRequest) (s : State) : State :=
  let last : Int :=
    match r.last with
    | some b => b
    | none => ((recordAt r.cart s).elim 0 fun c => (c.endOfData : Int)) - 1
  let c := { VerifyContext.idle with
    state := .running, cart := r.cart, label := r.label, origin := r.origin, first := r.first, last := last,
    next := r.first }
  passAdvance n (modCtx n (fun _ => c) (modVfy (fun v => { v with queue := v.queue.erase r }) s))

/-- The pass of a context that is not IDLE is on this cartridge (R146). -/
def underPass (i : CartId) (s : State) : Bool :=
  allLanes.any fun n => decide (s.vfy.contexts[n].state ≠ .idle) && decide (s.vfy.contexts[n].cart = i)

/-- The tag an internal requester gives for a verify request (R147). -/
def originTag : VerifyOrigin → Nat
  | .server t => t
  | .close _ => 0

/-- A request that needs a mount (R147). -/
def verifyMount (r : VerifyRequest) (s : State) : State :=
  if s.vfy.queue.any VerifyRequest.mountAsked = true ∨
      s.mounts.any (fun m => m.requesters.any fun p => decide (p.1 = .verify)) = true then s
  else
    let a := offerMount r.cart .anyRead .background .verify (originTag r.origin) none s
    if a.1 = true then
      modVfy (fun v => { v with queue := v.queue.replace r { r with mountAsked := true } }) a.2
    else a.2

/-- The start test treats one request, `used` being the lanes on which the test has started one; the answer adds a lane
that starts one now. Two requests of one test never start on one lane (R146), nor do they when the first is complete
at once (R148): the later one waits for the test that this makes. -/
def testRequest (r : VerifyRequest) (used : List LaneId) (s : State) : List LaneId × State :=
  if reachable r.cart r.label s = false then
    (used, requestNotice r .noCartridge (modVfy (fun v => { v with queue := v.queue.erase r }) s))
  else if underPass r.cart s = true then (used, s)
  else
    match usingLane r.cart s with
    | some n =>
      if s.vfy.contexts[n].state = .idle ∧ verifyGrants n s = true ∧ used.contains n = false then
        (n :: used, startPass n r (grantVerify n s))
      else (used, s)
    | none => (used, verifyMount r s)

/-- The start test over a list of requests (R146). -/
def testRequests : List VerifyRequest → List LaneId → State → State
  | [], _, s => s
  | r :: rest, used, s => testRequests rest (testRequest r used s).1 (testRequest r used s).2

/-- The start test takes the requests in queue order (R146). -/
def verifyStart (s : State) : State := testRequests s.vfy.queue [] s

/-- A plan with requester VERIFY has ended (R147). -/
def verifyPlanEnded (i : Option CartId) (failure : Option PlanReason) (s : State) : State :=
  let s := match s.vfy.queue.find? fun q => q.mountAsked && decide (some q.cart = i) with
    | none => s
    | some q =>
      match failure with
      | none =>
        modVfy (fun v => { v with queue := v.queue.replace q { q with mountAsked := false } }) s
      | some r => requestNotice q (.mountFailed r) (modVfy (fun v => { v with queue := v.queue.erase q }) s)
  post .verifyStart s

end Sys2Proof.Machine
end

