-- ==== Sys2Proof/Machine/AssemblyOps.lean ====
section
/-! DEFINITION. Machine/AssemblyOps.lean: the compressor's take and completion, placing and sealing (02, 03), and the
commit of a block (R13, R67 to R69). -/

namespace Sys2Proof.Machine

/-! ## Sealing (R48 to R51, R73) -/

/-- A write claim arises at a seal on a WRITE lane that serves a verify pass (R73). Behind a pending claim it asks for no
suspension (log entry 43). -/
def writeClaim (n : LaneId) (s : State) : State :=
  let l := s.lanes[n]
  if l.role.isWrite = true ∧ l.activity = .verify ∧ l.claim = .none ∧
      (resumeMark n s ≤ s.asm[n].sealedQueue.length ∨ hasMarkSealed n s = true) then
    suspendPass n .write (laneReport n (modLane n (fun l => { l with claim := .write }) s))
  else s

/-- The open block is sealed (R48), and the tests of its neighbours follow. -/
def sealOpen (n : LaneId) (cause : SealCause) (s : State) : State :=
  match s.asm[n].openBlock with
  | none => s
  | some b =>
    let done : SealedBlock := { records := b.records, runs := b.runs, cause := cause }
    let s := modAsm n (fun a => { openBlock := none, sealedQueue := a.sealedQueue ++ [done] }) s
    postFirst (.holdResume n) (postFirst (.writeStart n) (writeClaim n (post .compressorTake s)))

/-- Several seals that fall due during one reservation leave one pending seal: MARK if any came from a flush (R51). -/
def mergeSeal : Option SealCause → SealCause → SealCause
  | some .mark, _ => .mark
  | _, c => c

/-- A seal falls due by age or by a flush: carried out, or deferred while the block is reserved (R51). -/
def askSeal (n : LaneId) (cause : SealCause) (s : State) : State :=
  if reservedOpen n s = true then
    let d := fun b : OpenBlock => { b with deferred := some (mergeSeal b.deferred cause) }
    modAsm n (fun a => { a with openBlock := a.openBlock.map d }) s
  else sealOpen n cause s

/-- A pending deferred seal is carried out (R51). -/
def deferredSeal (n : LaneId) (s : State) : State :=
  match s.asm[n].openBlock with
  | none => s
  | some b =>
    match b.deferred with
    | none => s
    | some c => sealOpen n c s

/-! ## Placing (R46, R47) -/

/-- A record's run in the run list (R47). -/
def addRun (r : Record) (runs : List Run) : List Run :=
  if runs.any (fun x => decide (x.stream = r.stream)) then
    runs.map fun x => if x.stream = r.stream then { x with last := r.seq, count := x.count + 1 } else x
  else runs ++ [{ stream := r.stream, first := r.seq, last := r.seq, count := 1 }]

/-- A record appended to an open block (R47). -/
def OpenBlock.add (b : OpenBlock) (r : Record) : OpenBlock :=
  { b with records := b.records ++ [r], runs := addRun r b.runs }

/-- A record's size fits (R47). -/
def OpenBlock.fitsSize (b : OpenBlock) (r : Record) : Bool := decide (b.fill + r.size ≤ Config.payloadBytes)

/-- A record's stream fits (R47). -/
def OpenBlock.fitsStream (b : OpenBlock) (r : Record) : Bool :=
  b.runs.any (fun x => decide (x.stream = r.stream)) || decide (b.runs.length < 8)

/-- A block is opened for a record (R47 step 1). -/
def openWith (n : LaneId) (r : Record) (s : State) : State :=
  let b : OpenBlock := { records := [], runs := [], openedAt := s.ttu.time, deferred := none }
  modAsm n (fun a => { a with openBlock := some (b.add r) }) (takeAssembly n s)

/-- A record placed counts as inflow while the window timer runs (R78). -/
def countInflow (n : LaneId) (k : Nat) (s : State) : State :=
  modGov n (fun g => { g with inflow := if g.window.isSome then satAdd 16777215 g.inflow k else g.inflow }) s

/-- A record is placed into a lane's assembly (R47), counted (R53, R78) and, when marked, seals its block (R49). -/
def placeRecord (n : LaneId) (r : Record) (s : State) : State :=
  let s := match s.asm[n].openBlock with
    | none => openWith n r s
    | some b =>
      if b.fitsSize r = false then openWith n r (sealOpen n .full s)
      else if b.fitsStream r = false then openWith n r (sealOpen n .streamLimit s)
      else modAsm n (fun a => { a with openBlock := some (b.add r) }) s
  let s := countInflow n r.size s
  if r.mark = .none then s else sealOpen n .mark s

/-! ## The compressor (R19 to R25) -/

/-- The first eligible entry, and the list without it (R19). -/
def takeEligible (s : State) : List Entry → Option (Entry × List Entry)
  | [] => none
  | e :: rest =>
    if eligible e s = true then some (e, rest) else (takeEligible s rest).map fun p => (p.1, e :: p.2)

/-- The take test (R19, R21). -/
def compressorTake (s : State) : State :=
  match s.cmp.engine with
  | some _ => s
  | none =>
    match takeEligible s s.cmp.ready with
    | none => s
    | some (e, rest) =>
      let r : Reservation := if openRoom e.stream s.streams[e.stream].lane s = true then .openRoom else .newRoom
      modCmp (fun _ => { ready := rest, engine := some { entry := e, reservation := r } }) s

/-- Packing is attempted (R24). -/
def packingTried (st : Stream) : Bool := decide (st.cls = .pack) && decide (st.skip = 0)

/-- The stored run and skip remaining after a chunk of class PACK whose record is kept (R25). -/
def methodCounts (e : Entry) (m : Method) (st : Stream) : Stream :=
  if e.raw = none ∨ st.cls = .raw then st
  else if 0 < st.skip then { st with skip := st.skip - 1 }
  else if m = .packed then { st with storedRun := 0 }
  else if st.storedRun + 1 = 8 then { st with storedRun := 0, skip := 64 }
  else { st with storedRun := st.storedRun + 1 }

/-- The engine becomes IDLE and its test falls due (R22). -/
def engineIdle (s : State) : State := post .compressorTake (modCmp (fun c => { c with engine := none }) s)

/-- Compression completes (R12, R22). -/
def compressionComplete (s : State) : State :=
  match s.cmp.engine with
  | none => s
  | some t =>
    let e := t.entry
    let st := s.streams[e.stream]
    let free := fun s => freeIngest (if e.raw.isSome then 1 else 0) s
    let s :=
      if st.state = .aborted then
        free (modStream e.stream (fun st => { st with staged := st.staged - 1 }) s)
      else
        let r := formRecord e (packingTried st)
        let count := fun st : Stream => { methodCounts e r.method st with
          staged := st.staged - 1, uncommitted := st.uncommitted + 1 }
        placeRecord st.lane r (free (modStream e.stream count s))
    checkComplete e.stream (checkResume e.stream (engineIdle (deferredSeal st.lane s)))

/-! ## Commit (R13, R67 to R69) -/

/-- The span list after a commit (R13): the list, and whether a span was dropped. -/
def extendSpans (i : CartId) (b : Nat) (l : List Span) : List Span × Bool :=
  match l.getLast? with
  | some sp =>
    if sp.cart = i then (l.dropLast ++ [{ sp with last := b }], false)
    else if 4 ≤ l.length then (l.drop 1 ++ [{ cart := i, first := b, last := b }], true)
    else (l ++ [{ cart := i, first := b, last := b }], false)
  | none => ([{ cart := i, first := b, last := b }], false)

/-- A stream hears of its records in a committed block, and makes its completion check (R13); a completion is carried out
after the whole step of the commit (R67; log entry 3). -/
def commitRun (i : CartId) (b : Nat) (r : Run) (s : State) : State :=
  checkComplete r.stream (modStream r.stream (fun st =>
    let spans := extendSpans i b st.spans
    { st with uncommitted := st.uncommitted - r.count, lastCommitted := some r.last, spans := spans.1,
              spanOverflow := st.spanOverflow || spans.2 }) s)

/-- The directory hears of a commit (R67 step 1, R105): end of data rises by 1 and never passes 4,294,967,295, where a
further commit leaves it (log entry 11); SCRATCH becomes FILLING, and FULL at the limit. -/
def commitRecord (i : CartId) (s : State) : State :=
  match recordAt i s with
  | none => s
  | some c =>
    let eod := min max32 (c.endOfData + 1)
    let st := if c.state = .scratch then .filling else c.state
    let st := if eod = max32 ∧ st = .filling then .full else st
    modRecord i (fun c => { c with endOfData := eod, state := st }) s

/-- The sealed queue has become empty: the verify engine tests (R146, R154). -/
def reportEmpty (n : LaneId) (s : State) : State :=
  if s.asm[n].sealedQueue = [] then post .verifyStart (post (.verifyResume n) s) else s

/-- A commit counts as delivered while the window timer runs (R78). -/
def countDelivered (n : LaneId) (s : State) : State :=
  let add := fun d => satAdd max32 d Config.blockBytes
  modGov n (fun g => { g with delivered := if g.window.isSome then add g.delivered else g.delivered }) s

/-- The head block is committed (R67 steps 1 to 6), as the block number it was sent with. -/
def commitHead (n : LaneId) (b : Nat) (s : State) : State :=
  match mountedRecord n s, s.asm[n].sealedQueue with
  | some (i, c), head :: rest =>
    let s := insertEntry n i c.label b head.runs (commitRecord i s)
    let eod := (recordAt i s).map Cart.endOfData
    let s := setNeedsLocate n false (modLane n (fun l => { l with tapePosition := eod }) s)
    let s := forEach head.runs (commitRun i b) s
    let s := reportEmpty n (freeAssembly n (modAsm n (fun a => { a with sealedQueue := rest }) s))
    countDelivered n s
  | _, _ => s

/-- The allowance after a commit (R68). -/
def earlyWarning (n : LaneId) (flag : Bool) (s : State) : State :=
  match s.lanes[n].allowance with
  | some k => modLane n (fun l => { l with allowance := some (k - 1) }) s
  | none =>
    if flag = true then
      raise .laneEw (some n) (modLane n (fun l => { l with allowance := some s.asm[n].sealedQueue.length }) s)
    else s

/-- The cartridge is ended by its allowance or by the limit of its end of data (R68, R105). -/
def cartridgeEnded (n : LaneId) (s : State) : Bool :=
  (match s.lanes[n].allowance with
    | none => false
    | some k => decide (k = 0) || s.asm[n].sealedQueue.isEmpty) ||
  (match mountedRecord n s with
    | none => false
    | some (_, c) => decide (c.endOfData = max32) && decide (c.state = .full))

/-- The mounted cartridge becomes FULL, with its notice and event, and the lane ejects, or grants a pending restore
claim first (R68, R69). -/
def endCartridge (n : LaneId) (s : State) : State :=
  match mountedRecord n s with
  | none => s
  | some (i, c) =>
    let full := fun c : Cart =>
      { c with state := if c.state = .scratch ∨ c.state = .filling then .full else c.state }
    let s := modLane n (fun l => { l with allowance := none }) (modRecord i full s)
    let s := raise .laneFull (some n) (offerNotice (.cartridgeFull n i c.label c.endOfData) s)
    if s.lanes[n].claim = .restore then grantRestore n (modLane n (fun l => { l with ejectPending := true }) s)
    else sendEject n s

/-- The lane goes on after a commit (R67). -/
def continueWriting (n : LaneId) (s : State) : State :=
  if cartridgeEnded n s = true then endCartridge n s
  else if s.lanes[n].claim = .restore then grantRestore n s
  else if s.asm[n].sealedQueue = [] then enterHold n .queueEmpty s
  else sendHead n s

end Sys2Proof.Machine
end

