-- ==== Sys2Proof/Machine/RestoreOps.lean ====
section
/-! DEFINITION. Machine/RestoreOps.lean: the restore's claims, its blocks, records and segments, its end (10; R73), and
the expander and read grants that serve both reading clients (R32, R36, R43). -/

namespace Sys2Proof.Machine

/-! ## Claims (R73) -/

/-- A restore claim becomes the pending claim (R73). -/
def pendRestore (n : LaneId) (s : State) : State :=
  laneReport n (modLane n (fun l => { l with claim := .restore }) s)

/-- A restore claim on a lane: granted, pending or refused by the lane's state (R73). -/
def claimRestore (n : LaneId) (s : State) : State :=
  match s.lanes[n].state, s.lanes[n].activity with
  | .ready, _ => grantRestore n s
  | .hold, _ => grantRestore n s
  | .writing, _ => pendRestore n s
  | .loading, _ => pendRestore n s
  | .locating, .none => pendRestore n s
  | .locating, .verify => suspendPass n .restore (pendRestore n s)
  | .reading, .verify => suspendPass n .restore (pendRestore n s)
  | _, _ => s

/-- The lane serves the active restore: a release that waits for an answer belongs to an earlier one. -/
def servesRestore (n : LaneId) (s : State) : Bool :=
  decide (s.lanes[n].activity = .restore) && !s.lanes[n].releasing

/-! ## Ends (R167 to R169) -/

/-- RESTORE_DONE for the active context (R167). -/
def restoreNotice (c : RestoreContext) (r : RestoreResult) (s : State) : State :=
  offerNotice (.restoreDone c.tag c.stream c.first c.last r c.good c.damaged c.notFound c.next) s

/-- RESTORE_DONE for a request that never became active (R167). -/
def queuedRestoreNotice (r : RestoreRequest) (s : State) : State :=
  offerNotice (.restoreDone r.tag r.stream r.first r.last .cancelled 0 0 0 r.first) s

/-- The restore gives up its lane, or its pending claim (R167 step 1). -/
def leaveLane (n : LaneId) (s : State) : State :=
  if servesRestore n s = true then releaseLane n s
  else if s.lanes[n].claim = .restore then laneReport n (modLane n (fun l => { l with claim := .none }) s)
  else s

/-- The active restore ends (R167). -/
def finishRestore (r : RestoreResult) (s : State) : State :=
  match s.rse.active with
  | none => s
  | some c =>
    let s := match c.lane with
      | none => s
      | some n => leaveLane n s
    post .restoreActivate (modRse (fun x => { x with active := none }) (restoreNotice c r s))

/-- The result of a complete restore (R167): COMPLETE when no sequence was sent DAMAGED or counted as not found,
NOT_FOUND when no segment was sent, else PARTIAL. -/
def completeResult (c : RestoreContext) : RestoreResult :=
  if c.missedAny = false then .complete
  else if c.sentAny = false then .notFound
  else .partly

/-- The active restore is complete (R167). -/
def completeRestore (s : State) : State :=
  match s.rse.active with
  | none => s
  | some c => finishRestore (completeResult c) s

/-- The pages a restore holds. -/
def RestoreContext.pageCount (c : RestoreContext) : Nat :=
  (if c.pages = true then Config.blockPages else 0) + (if c.outputPage = true then 1 else 0)

/-- The context gives up its block in hand (R168). When the restore ends with it, its request in the expander slot is
withdrawn; after a lane fault that it survives, the request waits on and its outcome is discarded (R31, R37, log
entry 42). -/
def giveUp (ends : Bool) (s : State) : State :=
  match s.rse.active with
  | none => s
  | some c =>
    let s := match c.lane with
      | none => s
      | some n => if c.stage = .read ∧ servesRestore n s = true then withdrawLaneRead n s else s
    modActive (fun c => { c with pages := false, outputPage := false, segment := none, todo := [], damage := none,
                                 stage := .start })
      ((if ends = true then abandonPages .restore c.pageCount else surrenderPages .restore c.pageCount)
        (withdrawRead .restore s))

/-- A lane fault reaches the active restore (R168). -/
def restoreLaneFault (s : State) : State :=
  match s.rse.active with
  | none => s
  | some c =>
    let s := modActive (fun c => { c with lane := none }) (giveUp (decide (c.laneFaults ≠ 0)) s)
    if c.laneFaults = 0 then
      post .restoreGo (modActive (fun c => { c with laneFaults := 1, state := .finding }) s)
    else finishRestore .laneFault s

/-! ## Reading (R163 to R166) -/

/-- The context asks its lane to read the current block (R165 step 2). -/
def restoreRead (s : State) : State :=
  match s.rse.active with
  | none => s
  | some c =>
    let s := modActive (fun c => { c with stage := .read, pages := true }) s
    match c.lane, c.block with
    | some n, some b => laneRead n b s
    | _, _ => s

/-- A context that holds a granted lane asks for 16 pages (R165 step 1). -/
def startRead (s : State) : State :=
  let s := modActive (fun c => { c with state := .reading, stage := .pages }) s
  if s.pool.waiting = [] ∧ readFits Config.blockPages s = true then restoreRead (takeRead Config.blockPages s)
  else waitRead .restore Config.blockPages s

/-- The next sequence of a damaged stretch goes to SENDING (R163, R165, R166). -/
def sendDamaged (cause : SegmentCause) (s : State) : State :=
  modActive (fun c => { c with
    state := .sending,
    segment := some { tag := c.tag, stream := c.stream, seq := c.next, cause := cause, bytes := [] } }) s

/-- Every sequence from next wanted to `upTo` is to be sent DAMAGED. -/
def startDamage (upTo : Nat) (cause : SegmentCause) (after : AfterDamage) (s : State) : State :=
  sendDamaged cause (modActive (fun c => { c with damage := some { upTo := upTo, cause := cause, after := after } }) s)

/-- The context needs a mount (R164). -/
def restoreMount (s : State) : State :=
  match s.rse.active with
  | none => s
  | some c =>
    match c.cart with
    | none => s
    | some (i, _) =>
      let a := offerMount i .anyRead .urgent .restore c.tag none s
      modActive (fun c => { c with lane := none, state := .waitingMount, mountAsked := a.1 }) a.2

/-- The context holds a lane with the cartridge mounted (R163 case 1). -/
def holdsMounted (c : RestoreContext) (i : CartId) (s : State) : Bool :=
  match c.lane with
  | none => false
  | some n => servesRestore n s && decide (s.lanes[n].mounted = some i)

/-- The context claims the lane that has its cartridge in use (R163 case 3). -/
def restoreClaim (n : LaneId) (s : State) : State :=
  let s := claimRestore n (modActive (fun c => { c with lane := some n }) s)
  if servesRestore n s = true then startRead s else modActive (fun c => { c with state := .waitingMount }) s

/-- The context reaches its current cartridge (R163). -/
def reach (s : State) : State :=
  match s.rse.active with
  | none => s
  | some c =>
    match c.cart with
    | none => s
    | some (i, label) =>
      if holdsMounted c i s = true then startRead s
      else
        let s := match c.lane with
          | none => s
          | some n => modActive (fun c => { c with lane := none })
              (if servesRestore n s = true then releaseLane n s else s)
        if c.start = none ∧ reachable i label s = false then startDamage (c.runEnd.getD c.next) .cartridge .find s
        else
          match usingLane i s with
          | some n => restoreClaim n s
          | none => restoreMount s

/-- Every sequence from next wanted to last is counted as not found, and the restore ends (R161, R162). -/
def restNotFound (s : State) : State :=
  match s.rse.active with
  | none => s
  | some c =>
    let k := raised c.notFound (c.last + 1 - c.next) s
    completeRestore (modActive (fun c => { c with notFound := k.1, next := c.last + 1,
                                                  missedAny := c.missedAny || decide (c.next ≤ c.last) }) k.2)

/-- The next block is found (R161, R162). -/
def findNext (s : State) : State :=
  match s.rse.active with
  | none => s
  | some c =>
    match c.start with
    | none =>
      match searchCatalog c.stream c.next s with
      | none => restNotFound s
      | some (e, r) =>
        reach (modActive (fun c => { c with state := .finding, cart := some (e.cart, e.label), block := some e.block,
                                            runEnd := some (min r.last c.last) }) s)
    | some st =>
      let b := c.block.getD st.block
      let eod := (recordAt st.cart s).elim 0 Cart.endOfData
      if reachable st.cart st.label s = false ∨ eod ≤ b then restNotFound s
      else reach (modActive (fun c => { c with state := .finding, cart := some (st.cart, st.label), block := some b }) s)

/-- The context goes on after a block: it is complete, or finds the next (R166). -/
def afterBlock (s : State) : State :=
  match s.rse.active with
  | none => s
  | some c =>
    if c.last < c.next then completeRestore s
    else findNext (modActive (fun c => { c with state := .finding, stage := .start }) s)

/-- In explicit-start mode the current block rises by 1 (R166). -/
def nextBlock (c : RestoreContext) : RestoreContext := { c with block := c.block.map (· + 1) }

/-- The 16 pages of the block in hand are freed, unless that has been done (R44). -/
def freeBlock (s : State) : State :=
  match s.rse.active with
  | none => s
  | some c =>
    if c.pages = true then freeRead Config.blockPages (modActive (fun c => { c with pages := false }) s) else s

/-- The block's records have been dealt with (R166). Its pages went with the outcome of its last wanted record; a block
without a wanted record still holds them (R44, log entry 41). -/
def blockEnd (s : State) : State :=
  match s.rse.active with
  | none => s
  | some c =>
    let s := freeBlock (modActive (fun c => { c with stage := .start }) s)
    match c.start, c.runEnd with
    | none, some e => if c.next ≤ e then startDamage e .block .find s else afterBlock s
    | _, _ => afterBlock (modActive nextBlock s)

/-- The next wanted record, whose output page is granted, is placed with the expander, or held while an earlier record
of the client is there (R165 step 2 of the records, R31). -/
def restoreOffer (s : State) : State :=
  match s.rse.active with
  | none => s
  | some c =>
    match c.todo with
    | [] => s
    | r :: rest =>
      if clientBusy .restore s = true then modActive (fun c => { c with outputPage := true }) s
      else offerRecord .restore r (modActive (fun c => { c with outputPage := true, stage := .expand, todo := rest }) s)

/-- The context turns to its next wanted record, or is done with the block (R165, R166). -/
def restoreRecords (s : State) : State :=
  match s.rse.active with
  | none => s
  | some c =>
    match c.todo with
    | [] => blockEnd s
    | r :: _ =>
      let skips := c.start.isSome && decide (c.next < r.seq)
      let skipped := if skips = true then raised c.notFound (r.seq - c.next) s else (c.notFound, s)
      let s := modActive (fun c => { c with stage := .output, notFound := skipped.1, missedAny := c.missedAny || skips,
                                            next := if c.start.isSome = true then max c.next r.seq else c.next })
        skipped.2
      if c.start = none ∧ c.next < r.seq then startDamage (r.seq - 1) .block .records s
      else if s.pool.waiting = [] ∧ readFits 1 s = true then restoreOffer (takeRead 1 s)
      else waitRead .restore 1 s

/-- The wanted records of a block (R165). -/
def wantedRecords (c : RestoreContext) (rs : List WalkedRecord) : List WalkedRecord :=
  let last := if c.start.isSome = true then c.last else min c.last (c.runEnd.getD c.last)
  rs.filter fun r => decide (r.stream = c.stream.val) && decide (c.next ≤ r.seq) && decide (r.seq ≤ last)

/-- The lane has answered the restore's read (R165 step 3). -/
def restoreBlock (read : Option (List Byte)) (s : State) : State :=
  match s.rse.active with
  | none => s
  | some c =>
    match testBlock read ((c.cart.map Prod.snd).getD []) (c.block.getD 0) with
    | .error _ =>
      let s := freeBlock (modActive (fun c => { c with stage := .start }) s)
      if c.start = none then startDamage (c.runEnd.getD c.next) .block .find s
      else afterBlock (modActive nextBlock s)
    | .ok rs => restoreRecords (modActive (fun c => { c with stage := .records, todo := wantedRecords c rs }) s)

/-- The expander has returned an outcome for a record of the restore (R165 steps 3 to 5); with that of the block's last
wanted record the block's pages are freed (R44). -/
def restoreOutcome (r : WalkedRecord) (o : Expanded) (s : State) : State :=
  let s := if (s.rse.active.map RestoreContext.todo) = some [] then freeBlock s else s
  match o with
  | .good bytes =>
    modActive (fun c => { c with
      state := .sending, stage := .records,
      segment := some { tag := c.tag, stream := c.stream, seq := r.seq, cause := .none, bytes := bytes } }) s
  | _ =>
    freeRead 1 (modActive (fun c => { c with
      state := .sending, stage := .records, outputPage := false,
      segment := some { tag := c.tag, stream := c.stream, seq := r.seq, cause := .record, bytes := [] } }) s)

/-- The restore goes on in FINDING or READING (R163, R165, R168). -/
def restoreGo (s : State) : State :=
  match s.rse.active with
  | none => s
  | some c =>
    match c.state with
    | .finding => findNext s
    | .reading =>
      match c.damage with
      | some d =>
        if c.next ≤ d.upTo then sendDamaged d.cause s
        else
          let s := modActive (fun c => { c with damage := none }) s
          match d.after with
          | .find => afterBlock s
          | .records => restoreRecords s
      | none => if c.stage = .records then restoreRecords s else s
    | _ => s

/-- The link interface has taken the waiting segment (R165 step 5, R187). The service of the waiting list that the freed
page makes due follows the restore's own next page request of this step (R43, R44, log entry 46). -/
def segmentTaken (g : Segment) (s : State) : State :=
  match s.rse.active with
  | none => s
  | some c =>
    let s := if c.outputPage = true then freeRead 1 (modActive (fun c => { c with outputPage := false }) s) else s
    let good := if g.cause = .none then raised c.good 1 s else (c.good, s)
    let bad := if g.cause = .none then (c.damaged, good.2) else raised c.damaged 1 good.2
    restoreGo (modActive (fun c => { c with good := good.1, damaged := bad.1, next := g.seq + 1, segment := none,
                                            state := .reading, sentAny := true,
                                            missedAny := c.missedAny || decide (g.cause ≠ .none) }) bad.2)

/-! ## What the neighbours tell the restore (R160, R163, R164) -/

/-- A lane has reported a change (R163). -/
def restoreLane (n : LaneId) (s : State) : State :=
  match s.rse.active with
  | none => s
  | some c =>
    if c.state = .waitingMount ∧ c.lane = some n then
      if servesRestore n s = true then startRead s
      else if s.lanes[n].claim = .restore then s
      else reach s
    else s

/-- The mount queue has gained room (R164). -/
def restoreRoom (s : State) : State :=
  match s.rse.active with
  | none => s
  | some c => if c.state = .waitingMount ∧ c.lane = none ∧ c.mountAsked = false then restoreMount s else s

/-- A plan with requester RESTORE has ended (R164): on a lane, without one, or with a failure. A failed mount ends the
restore as ABANDONED (R167), so that a request still in its slot, given up at an earlier lane fault, is withdrawn (R31). -/
def restorePlanEnded (i : Option CartId) (lane : Option LaneId) (failure : Option PlanReason) (s : State) : State :=
  match s.rse.active with
  | none => s
  | some c =>
    if c.mountAsked = true ∧ i = c.cart.map Prod.fst then
      let s := modActive (fun c => { c with mountAsked := false }) s
      match failure, lane with
      | some r, _ => finishRestore (.mountFailed r) (emptySlot .restore s)
      | none, some _ => reach s
      | none, none => findNext (modActive (fun c => { c with state := .finding }) s)
    else s

/-- The head of the restore queue becomes the active context (R160). -/
def restoreActivate (s : State) : State :=
  match s.rse.active, s.rse.queue with
  | none, r :: rest =>
    let c : RestoreContext :=
      { tag := r.tag, stream := r.stream, first := r.first, last := r.last, start := r.start, state := .finding,
        next := r.first, cart := none, block := none, runEnd := none, lane := none, mountAsked := false, good := 0,
        damaged := 0, notFound := 0, laneFaults := 0, stage := .start, todo := [], damage := none, pages := false,
        outputPage := false, segment := none, sentAny := false, missedAny := false }
    findNext (modRse (fun _ => { queue := rest, active := some c }) s)
  | _, _ => s

/-! ## Grants and the expander (R32, R36, R43) -/

/-- The front request of the read waiting list is granted once there is room (R43). -/
def readGrant (s : State) : State :=
  match s.pool.waiting with
  | [] => s
  | w :: rest =>
    if readFits w.pages s = true then
      let s := takeRead w.pages (modPool (fun p => { p with waiting := rest }) s)
      let s := match w.client with
        | .verify n => passRead n s
        | .restore => if w.pages = 1 then restoreOffer s else restoreRead s
      if rest = [] then s else post .readGrant s
    else s

/-- The verify slots in rotation, from the lane after the last served (R32). -/
def nextVerify (e : Expander) : Option (LaneId × ExpandRequest) :=
  [e.lastServed + 1, e.lastServed + 2, e.lastServed + 3, e.lastServed].findSome? fun n =>
    e.verifySlots[n].map fun q => (n, q)

/-- The expander's take test (R32). -/
def expanderTake (s : State) : State :=
  match s.exp.engine with
  | some _ => s
  | none =>
    match s.exp.restoreSlot with
    | some q =>
      modExp (fun e => { e with restoreSlot := none, engine := some { client := .restore, request := q } }) s
    | none =>
      match nextVerify s.exp with
      | none => s
      | some (n, q) =>
        let x : Expansion := { client := .verify n, request := q }
        modExp (fun e => { e with verifySlots := upd e.verifySlots n fun _ => none, engine := some x,
                                  lastServed := n }) s

/-- A record that a client held back is offered now (R31): the pass's next record, or the restore's with its output
page. -/
def offerHeld (c : ReadClient) (s : State) : State :=
  match c with
  | .verify n => if s.vfy.contexts[n].stage = .check then passRecords n s else s
  | .restore =>
    if s.rse.active.any (fun c => decide (c.stage = .output) && c.outputPage) = true then restoreOffer s else s

/-- An expansion completes, and its outcome is returned (R36); that of a record given up is discarded, its pages are
freed, and a record held back behind it is offered (R31, R36). -/
def expansionComplete (s : State) : State :=
  match s.exp.engine with
  | none => s
  | some x =>
    let s := post .expanderTake (modExp (fun e => { e with engine := none }) s)
    if x.request.abandoned = true then offerHeld x.client (freeRead x.request.keptPages s)
    else
      match x.client with
      | .verify n => passOutcome n (expand x.request.record) s
      | .restore => restoreOutcome x.request.record (expand x.request.record) s

end Sys2Proof.Machine
end

