-- ==== Sys2Proof/Machine/FaultOps.lean ====
section
/-! DEFINITION. Machine/FaultOps.lean: a lane's entry into FAULT and its reset (R63, R70, R75), and what follows a
drive's answers. -/

namespace Sys2Proof.Machine

/-- The active restore reads on lane n, or its claim is pending there (R63, R75, R168; log entry 29). -/
def restoreOn (n : LaneId) (s : State) : Bool :=
  match s.rse.active with
  | none => false
  | some c => decide (c.lane = some n) && (servesRestore n s || decide (s.lanes[n].claim = .restore))

/-- A lane enters FAULT (R63). Where that ends a pass suspended on the lane (R157) and also reaches the active restore,
which may be its second lane fault and end it (R168), no rule gives the order of VERIFY_DONE and RESTORE_DONE. The model
ends the pass first (DESIGN CHOICE, log entry 3). -/
def enterFault (n : LaneId) (code : FaultCode) (s : State) : State :=
  let told := restoreOn n s
  let s := modLane n (fun l => { l with faultCode := some code, command := none, claim := .none, activity := .none,
                                        serverEject := false, readBlock := none, releasing := false, discard := false }) s
  let s := setNeedsLocate n true (releasePlace n (setLaneState n .fault s))
  let s := endPass n .laneFault s
  let s := if told = true then restoreLaneFault s else s
  offerNotice (.laneFault n code s.lanes[n].mounted) (raise .laneFault (some n) s)

/-- A FAIL or a timeout: the command is no longer in flight, the tape position is absent, the lane faults (R60). -/
def failCommand (n : LaneId) (code : FaultCode) (s : State) : State :=
  enterFault n code (modLane n (fun l => { l with tapePosition := none }) s)

/-- A reset governor (R89, log entry 14). -/
def Governor.laneReset : Governor :=
  { Governor.reset with meter := { inflow := 0, delivered := 0, repositions := 0, exponent := 0 } }

/-- LANE_RESET (R75, R89): the role, the allowance, fill wanted and the assembly stay. A pass on the lane is ended before
the restore is told, as R75 names them (log entry 3). -/
def laneReset (n : LaneId) (s : State) : State :=
  let told := restoreOn n s
  let s := endPass n .laneReset (modLane n (fun l => { l with command := none }) s)
  let s := if told = true then restoreLaneFault s else s
  let s := releasePlace n (setNeedsLocate n true s)
  let s := modLane n (fun l => { Lane.reset with state := l.state, role := l.role, allowance := l.allowance,
                                                 fillWanted := l.fillWanted, pickNoRoom := l.pickNoRoom }) s
  modGov n (fun _ => Governor.laneReset) (setLaneState n .offline s)

/-- A command is answered: it is no longer in flight (R59). -/
def clearCommand (n : LaneId) (s : State) : State := modLane n (fun l => { l with command := none }) s

/-- The command in flight on a lane. -/
def inFlight (n : LaneId) (s : State) : Option DriveCommand := s.lanes[n].command.map InFlight.command

/-- A lane whose drive has a cartridge threads it if a record stands at its bay (R61). -/
def threadIfPlaced (n : LaneId) (s : State) : State :=
  if (namedAt (.bay n) s).isSome = true then sendThread n s else setLaneState n .unknownMedia s

end Sys2Proof.Machine
end

