-- ==== Sys2Proof/Machine/LoaderOps.lean ====
section
/-! DEFINITION. Machine/LoaderOps.lean: plans, their steps and ends, stops, homing, the mail door and the serve test
(07; R176 for the lines). -/

namespace Sys2Proof.Machine

/-! ## Lines and the mail door (R127, R176) -/

/-- The mask of one line. -/
def lineBit (l : Fin 8) : BitVec 8 := BitVec.twoPow 8 l

/-- A write of the library lines by a compare, an action or LINES_SET: the held door line is left as it stands
(R176). -/
def writeLines (mask data : BitVec 8) (s : State) : State :=
  let m := match s.ldr.doorHold with
    | none => mask
    | some l => mask &&& ~~~ lineBit l
  modTtu (fun t => { t with lines := (t.lines &&& ~~~ m) ||| (data &&& m) }) s

/-- The loader takes and locks the mail door (R127). -/
def holdDoor (s : State) : State :=
  match s.ldr.doorHold, finOf 8 s.settings.doorLine with
  | none, some l =>
    modTtu (fun t => { t with lines := t.lines ||| lineBit l }) (modLdr (fun d => { d with doorHold := some l }) s)
  | _, _ => s

/-- The door hold is released, and its line driven to 0 (R127). -/
def releaseDoor (s : State) : State :=
  match s.ldr.doorHold with
  | none => s
  | some l =>
    modTtu (fun t => { t with lines := t.lines &&& ~~~ lineBit l }) (modLdr (fun d => { d with doorHold := none }) s)

/-! ## Fault and deviation (R114, R118) -/

/-- The loader enters FAULT (R118); positions stay but for POSITION_ERROR (log entry 25 for r and m). Without a plan the
notice has neither kind nor step (log entry 44). -/
def loaderFault (code : LoaderFault) (s : State) : State :=
  let s := modLdr (fun d => { d with state := .fault, faultCode := some code, ramp := -1, remaining := 0,
                                     homingStop := false,
                                     logical := if code = .positionError then none else d.logical,
                                     real := if code = .positionError then none else d.real }) s
  offerNotice (.loaderFault code (s.ldr.plan.map Plan.kind) (s.ldr.plan.map Plan.current) (heldRecord s))
    (raise .moveFault none s)

/-- The loader enters FAULT with POSITION_ERROR if its positions differ by more than DEV_LIMIT (R114). -/
def deviationFault (s : State) : State := if deviates s = true then loaderFault .positionError s else s

/-- The deviation test of a step output or an encoder count, made in IDLE, RUNNING and STOPPING (R114). -/
def deviationTest (s : State) : State :=
  if s.ldr.state = .idle ∨ s.ldr.state = .running ∨ s.ldr.state = .stopping then deviationFault s else s

/-- The deviation test of a change of DEV_LIMIT: at once and in every state but HOMING, where no test is made (R112,
R114, R186). A loader in FAULT that has kept its positions, as after GRIP_TIMEOUT (R118), can deviate too, and then enters
FAULT again (DEDUCED, log entry 49). -/
def limitTest (s : State) : State := if s.ldr.state = .homing then s else deviationFault s

/-! ## Ends of a plan (R125) -/

/-- The request in service. -/
def inService (s : State) : Option MountRequest := s.mounts.find? MountRequest.inService

/-- A requester of a request. -/
def hasRequester (r : Requester) (m : MountRequest) : Bool := m.requesters.any fun p => decide (p.1 = r)

/-- The lane on which a MOUNT placed the cartridge (R125). -/
def planLane (p : Plan) : Option LaneId :=
  match p.kind, p.target with
  | .mount, .lane n => some n
  | _, _ => none

/-- The engines among the requesters are told (R125), the verify engine first (log entry 3). -/
def tellEngines (m : MountRequest) (p : Plan) (failure : Option PlanReason) (s : State) : State :=
  let s := if hasRequester .verify m = true then verifyPlanEnded m.cart failure s else s
  if hasRequester .restore m = true then restorePlanEnded m.cart (planLane p) failure s else s

/-- The request leaves the queue and the loader becomes IDLE (R125). -/
def closePlan (s : State) : State :=
  setMounts (s.mounts.filter fun m => !m.inService)
    (modLdr (fun d => { d with state := .idle, plan := none, ramp := -1, remaining := 0 }) s)

/-- After either result: the door, the room notice, the serve test (R125). What the plan's own steps reported to a
loader that was not IDLE made no serve test, so the one test comes behind the offers (R122). -/
def afterPlan (s : State) : State := post .serveTest (mountRoomNotice (dropDue .serveTest (releaseDoor s)))

/-- A plan succeeds (R125, R126). -/
def planSucceeds (s : State) : State :=
  match inService s, s.ldr.plan with
  | some m, some p =>
    let b : NoticeBody := match p.kind with
      | .scan => .scanDone p.missing p.unknown p.skipped
      | _ => .planDone m.kind m.cart m.target m.tag m.requesters
    afterPlan (tellEngines m p none (offerNotice b (closePlan s)))
  | _, _ => s

/-- A plan fails (R125). Its notice names the step by its number in the list, the first being 0, and 0 when the plan
fails at its building (log entry 43). -/
def planFails (r : PlanReason) (s : State) : State :=
  match inService s, s.ldr.plan with
  | some m, some p =>
    let b : NoticeBody := match m.kind with
      | .mount => .mountFailed m.kind m.cart m.tag m.requesters r p.current (heldRecord s)
      | .dismount => .mountFailed m.kind m.cart m.tag m.requesters r p.current (heldRecord s)
      | _ => .moveFailed m.kind m.cart m.tag m.requesters r p.current (heldRecord s)
    afterPlan (tellEngines m p (some r) (offerNotice b (closePlan s)))
  | _, _ => s

/-! ## Steps (R113, R117, R124, R127) -/

/-- What the start of a step comes to: complete at once, under way, or the plan's end. -/
inductive Begun where
  | complete | waits
  deriving DecidableEq, Repr

/-- The direction toward a target (R113); at the target it stays as it was (log entry 43). -/
def directionTo (now target : Nat) (d : Direction) : Direction :=
  if target < now then .towardZero else if now < target then .away else d

/-- The top ramp index of a travel (R113). -/
def topIndex (s : State) : Nat :=
  let top := s.tables.ramp.length - 1
  if s.ldr.heldSensor = true then min top s.settings.heldRampCap else top

/-- The index of a travel's next step: min(previous r + 1, top, m - 1), and -1 at rest (R113). -/
def nextIndex (r : Int) (top m : Nat) : Int := if m = 0 then -1 else min (min (r + 1) top) (m - 1 : Nat)

/-- A TRAVEL starts; of length 0 it completes at once, with its event (R113). -/
def beginTravel (l : Location) (s : State) : Begun × State :=
  match positionAt l s, s.ldr.logical with
  | some t, some x =>
    let m := max x t - min x t
    let s := modLdr (fun d => { d with direction := directionTo x t d.direction, remaining := m, top := topIndex s,
                                       ramp := nextIndex (-1) (topIndex s) m, stepStart := s.ttu.time }) s
    if m = 0 then (.complete, raise .moveDone none s) else (.waits, s)
  | _, _ => (.waits, planFails .positionUnset s)

/-- A grip starts (R117). -/
def beginGrip (s : State) : State :=
  modLdr (fun d => { d with gripStart := s.ttu.time, gripLimit := s.settings.gripTimeout * 100 }) s

/-- The loader asks a lane to eject (R62, R124). -/
def askEject (n : LaneId) (s : State) : Begun × State :=
  if s.lanes[n].state = .ejected ∨ s.lanes[n].state = .empty then (.complete, s)
  else if ejectable n s = true then (.waits, sendEject n s)
  else (.waits, s)

/-- A step acts at a mail slot (R127). -/
def atMail : PlanStep → Bool
  | .travel (.mail _) | .probe (.mail _) _ | .get (.mail _) | .put (.mail _) => true
  | _ => false

/-- A TRAVEL. -/
def isTravel : PlanStep → Bool
  | .travel _ => true
  | _ => false

/-- A step starts, its mail door checked (R113, R117, R124). -/
def startStep (st : PlanStep) (s : State) : Begun × State :=
  match st with
  | .laneEject n => askEject n s
  | .travel l => beginTravel l s
  | .probe _ _ => (.waits, s)
  | .get _ => (.waits, beginGrip s)
  | .put l => if (namedAt l s).isSome = true then (.waits, planFails .destOccupied s) else (.waits, beginGrip s)
  | .laneThread n =>
    if s.lanes[n].state = .empty then (.complete, sendThread n s) else (.waits, planFails .laneRefused s)

/-- Before a step at a mail slot the door is held, and read open it fails the plan; a later TRAVEL does not read it
(R127). -/
def beginStep (st : PlanStep) (s : State) : Begun × State :=
  if atMail st = true then
    if s.ldr.doorOpen = true ∧ (isTravel st = false ∨ s.ldr.doorHold = none) then
      (.waits, planFails .doorOpen (holdDoor s))
    else startStep st (holdDoor s)
  else startStep st s

/-- The plan's steps from the current one on, as far as they complete at once (R123). -/
def runSteps : Nat → State → State
  | 0, s => s
  | k + 1, s =>
    match s.ldr.plan with
    | none => s
    | some p =>
      match planStep p with
      | none => planSucceeds s
      | some st =>
        match beginStep st s with
        | (.waits, s) => s
        | (.complete, s) =>
          runSteps k (modLdr (fun d => { d with plan := d.plan.map fun p => { p with current := p.current + 1 } }) s)

/-- The plan goes on from its current step. -/
def runPlan (s : State) : State := runSteps ((s.ldr.plan.elim 0 fun p => p.steps.length) + 1) s

/-- The step in progress has ended without a fault: the plan goes on, or a stop ends it (R115). -/
def stepEnds (s : State) : State :=
  if s.ldr.state = .stopping then planFails .stopped s
  else runPlan (modLdr (fun d => { d with plan := d.plan.map fun p => { p with current := p.current + 1 } }) s)

/-- The loader asks a lane again, at the lane's report (R124). -/
def ejectAgain (n : LaneId) (s : State) : State :=
  if currentStep s = some (.laneEject n) then
    match askEject n s with
    | (.complete, s) => stepEnds s
    | (.waits, s) => s
  else s

/-- One travel step is output (R113, R114). -/
def travelOutput (s : State) : State :=
  let m := s.ldr.remaining - 1
  let move := fun x : Nat => if s.ldr.direction = .towardZero then x - 1 else x + 1
  let s := modLdr (fun d => { d with logical := d.logical.map move, remaining := m,
                                     ramp := nextIndex d.ramp d.top m, stepStart := s.ttu.time }) s
  let s := deviationTest s
  if s.ldr.state = .fault ∨ 0 < m then s else stepEnds (raise .moveDone none s)

/-- A stop (R115). -/
def loaderStop (mode : StopMode) (s : State) : State :=
  match s.ldr.state with
  | .homing => modLdr (fun d => { d with homingStop := true }) s
  | .running | .stopping =>
    let stopping := modLdr (fun d => { d with state := .stopping }) s
    match currentStep s with
    | some (.travel _) =>
      modLdr (fun d => { d with remaining :=
        match mode with | .decel => min d.remaining (d.ramp + 1).toNat | .instant => min d.remaining 1 }) stopping
    | some (.laneEject _) => planFails .stopped stopping
    | _ => stopping
  | _ => s

/-- Homing completes (R116). -/
def homed (s : State) : State :=
  let s := modLdr (fun d => { d with logical := some 0, real := some 0, ramp := -1, state := .idle,
                                     homingStop := false }) s
  post .serveTest (offerNotice .homeDone (raise .homeFound none s))

/-! ## Grips (R93, R117) -/

/-- The lane whose bay was emptied becomes EMPTY (R62). -/
def bayEmptied (l : Location) (s : State) : State :=
  match l with
  | .bay n =>
    if s.lanes[n].state = .ejected ∨ s.lanes[n].state = .unknownMedia then
      setLaneState n .empty (modLane n (fun x => { x with mounted := none }) s)
    else s
  | _ => s

/-- A GET completes at a location (R93, R117). -/
def gripped (l : Location) (s : State) : State :=
  let s := post .serveTest (modLdr (fun d => { d with heldSensor := true }) s)
  let s := match namedAt l s with
    | none => s
    | some i => moveRecord i .picker s
  stepEnds (bayEmptied l s)

/-- The completing PUT of a MOVE gives its cartridge the slot as home slot (R123). -/
def newHome (i : CartId) (l : Location) (s : State) : State :=
  match s.ldr.plan, l with
  | some p, .slot k =>
    if p.kind = .move ∧ p.cart = some i then modRecord i (fun c => { c with home := k }) s else s
  | _, _ => s

/-- A PUT completes at a location (R93, R117). -/
def released (l : Location) (s : State) : State :=
  let s := post .serveTest (modLdr (fun d => { d with heldSensor := false }) s)
  let s := match heldRecord s with
    | none => s
    | some i => askPickFor i (newHome i l (moveRecord i l s))
  stepEnds s

/-! ## Plans (R122, R123, R126) -/

/-- The source part of a plan (R123). -/
def sourcePart (i : CartId) (s : State) : List PlanStep :=
  match (recordAt i s).map Cart.location with
  | some (.bay n) => [.laneEject n, .travel (.bay n), .probe (.bay n) (.source i), .get (.bay n)]
  | some (.slot k) => [.travel (.slot k), .probe (.slot k) (.source i), .get (.slot k)]
  | some (.mail k) => [.travel (.mail k), .probe (.mail k) (.source i), .get (.mail k)]
  | _ => []

/-- The destination part of a plan (R123). -/
def destinationPart (l : Location) : List PlanStep := [.travel l, .probe l .destination, .put l]

/-- The DISMOUNT steps of a record (R123). -/
def dismountSteps (i : CartId) (s : State) : List PlanStep :=
  match recordAt i s with
  | none => []
  | some c => sourcePart i s ++ destinationPart (.slot c.home)

/-- The steps of a MOUNT to lane n (R123). -/
def mountSteps (i : CartId) (n : LaneId) (s : State) : List PlanStep :=
  match namedAt (.bay n) s with
  | none => sourcePart i s ++ destinationPart (.bay n) ++ [.laneThread n]
  | some y =>
    if y = i then
      if s.lanes[n].state = .ejected ∨ s.lanes[n].state = .empty then
        [.travel (.bay n), .probe (.bay n) (.source i), .get (.bay n), .probe (.bay n) .destination, .put (.bay n),
          .laneThread n]
      else []
    else dismountSteps y s ++ sourcePart i s ++ destinationPart (.bay n) ++ [.laneThread n]

/-- The DISMOUNT steps of the held record, with which a rebuilt MOUNT begins (R129). -/
def heldFirst (m : MountRequest) (s : State) : List PlanStep :=
  match m.rebuilt with
  | none => []
  | some h => if heldRecord s = some h then dismountSteps h s else []

/-- Locations in increasing order of position, those before in the list first at equal positions (R126). -/
def insertByPosition (x : Location × Nat) : List (Location × Nat) → List (Location × Nat)
  | [] => [x]
  | y :: rest => if y.2 ≤ x.2 then y :: insertByPosition x rest else x :: y :: rest

/-- The storage slots and mail slots, in order (R126). -/
def scanLocations : List Location :=
  (List.finRange 48).map Location.slot ++ (List.finRange 2).map Location.mail

/-- The locations a SCAN visits (R126). -/
def scanOrder (s : State) : List Location :=
  ((scanLocations.filterMap fun l => (positionAt l s).map fun x => (l, x)).foldl
    (fun done x => insertByPosition x done) []).map Prod.fst

/-- The steps of a SCAN (R126). -/
def scanSteps (s : State) : List PlanStep := (scanOrder s).flatMap fun l => [.travel l, .probe l .scan]

/-- The lane chosen for a MOUNT to "any read lane" (R122). -/
def chooseReadLane (i : CartId) (s : State) : Option LaneId :=
  let reads := allLanes.filter fun n => decide (s.lanes[n].role = .read)
  let has := fun n : LaneId =>
    (decide (s.lanes[n].mounted = some i) && decide (s.lanes[n].state = .ready)) ||
      (decide (namedAt (.bay n) s = some i) && decide (s.lanes[n].state = .ejected))
  match reads.find? has with
  | some n => some n
  | none =>
    match reads.find? fun n => decide (s.lanes[n].state = .empty) with
    | some n => some n
    | none => reads.find? fun n => readyIdle n s

/-- The target of the plan: "any read lane" becomes the lane chosen (R122). -/
def planTarget (m : MountRequest) (s : State) : MountTarget :=
  match m.target, m.cart with
  | .anyRead, some i => (chooseReadLane i s).elim .anyRead .lane
  | t, _ => t

/-- The steps of a request's plan (R123). -/
def planSteps (m : MountRequest) (s : State) : List PlanStep :=
  match m.kind, m.cart, planTarget m s with
  | .scan, _, _ => scanSteps s
  | .mount, some i, .lane n => heldFirst m s ++ mountSteps i n s
  | .dismount, some i, _ => dismountSteps i s
  | _, some i, .slot k => sourcePart i s ++ destinationPart (.slot k)
  | _, some i, .mail k => sourcePart i s ++ destinationPart (.mail k)
  | _, _, _ => []

/-- Why a plan fails at its building (R123); where both cases hold, SOURCE_EMPTY (log entry 43). -/
def buildFailure (m : MountRequest) (steps : List PlanStep) (s : State) : Option PlanReason :=
  let gone := match m.cart with
    | none => false
    | some i =>
      match (recordAt i s).map Cart.location with
      | some .outside => true
      | some .missing => true
      | _ => false
  if gone = true then some .sourceEmpty
  else if steps.any (fun st => match st with | .travel l => (positionAt l s).isNone | _ => false) = true then
    some .positionUnset
  else none

/-- A lane state that does not keep a plan from taking the cartridge in its bay (R122). -/
def bayFree (n : LaneId) (s : State) : Bool :=
  decide (s.lanes[n].state = .empty) || decide (s.lanes[n].state = .ejected) ||
    decide (s.lanes[n].state = .unknownMedia) || decide (s.lanes[n].state = .hold) || readyIdle n s

/-- A lane state that a MOUNT to the lane can find (R122). -/
def mountable (n : LaneId) (s : State) : Bool :=
  decide (s.lanes[n].state = .empty) || decide (s.lanes[n].state = .ejected) || decide (s.lanes[n].state = .hold) ||
    readyIdle n s

/-- Some READ lane can take a MOUNT to "any read lane" (R122). -/
def readMountable (i : CartId) (s : State) : Bool :=
  allLanes.any fun n => decide (s.lanes[n].role = .read) &&
    (decide (s.lanes[n].state = .empty) || readyIdle n s ||
      (decide (s.lanes[n].state = .ejected) && decide (namedAt (.bay n) s = some i)))

/-- The picker does not stand in the way (R122): it is empty, or the request is of the held record, or a rebuilt MOUNT
carries home first the record that was held at its LOADER_RESET (R129). -/
def pickerAllows (m : MountRequest) (s : State) : Bool :=
  !pickerFull s ||
    (decide (m.kind ≠ .scan) && decide (m.kind ≠ .importCart) && (heldRecord s).isSome &&
      (decide (m.cart = heldRecord s) || (decide (m.kind = .mount) && decide (m.rebuilt = heldRecord s))))

/-- A request can run (R122). -/
def canRun (m : MountRequest) (s : State) : Bool :=
  pickerAllows m s &&
    (match m.cart with
      | none => true
      | some i =>
        match (recordAt i s).map Cart.location with
        | some (.bay n) => bayFree n s
        | _ => true) &&
    (match m.kind, m.target, m.cart with
      | .mount, .lane n, _ => mountable n s
      | .mount, .anyRead, some i => readMountable i s
      | _, _, _ => true)

/-- The request taken: of the highest class, and within it the oldest, that can run (R122). -/
def chooseRequest (s : State) : Option MountRequest :=
  [MountClass.urgent, .normal, .background].findSome? fun c =>
    s.mounts.find? fun m => decide (m.cls = c) && canRun m s

/-- A request is taken into service (R122, R123); a plan that fails at its building fails at step 0 (log entry 43). -/
def serve (m : MountRequest) (s : State) : State :=
  let steps := planSteps m s
  let skipped := if m.kind = .scan then scanLocations.filter fun l => (positionAt l s).isNone else []
  let p : Plan := { kind := m.kind, cart := m.cart, target := planTarget m s, steps := steps, current := 0,
                    missing := [], unknown := [], skipped := skipped }
  let failure := buildFailure m steps s
  let s := setMounts (s.mounts.replace m { m with inService := true })
    (modLdr (fun d => { d with state := .running, plan := some p }) s)
  match failure with
  | some r => planFails r s
  | none => runPlan s

/-- The serve test (R122). -/
def serveTest (s : State) : State :=
  if s.ldr.state = .idle then
    match chooseRequest s with
    | none => s
    | some m => serve m s
  else s

/-! ## Probes (R93, R125, R126) -/

/-- A location is found empty: the record becomes MISSING (R93) if it was at that location (R125, log entry 47). -/
def foundEmpty (i : CartId) (l : Location) (s : State) : State :=
  if (recordAt i s).map Cart.location = some l then moveRecord i .missing s else s

/-- A SCAN compares a reading with the directory's place (R126). -/
def scanReading (l : Location) (occupied : Bool) (s : State) : State :=
  match occupied, namedAt l s with
  | false, some i =>
    modLdr (fun d => { d with plan := d.plan.map fun p => { p with missing := p.missing ++ [i] } }) (foundEmpty i l s)
  | true, none =>
    modLdr (fun d => { d with plan := d.plan.map fun p => { p with unknown := p.unknown ++ [l] } }) s
  | _, _ => s

/-- A PROBE completes with its reading (R117, R123, R125). -/
def probed (l : Location) (e : Expectation) (occupied : Bool) (s : State) : State :=
  match e with
  | .scan => stepEnds (scanReading l occupied s)
  | .source i =>
    if s.ldr.state = .stopping ∨ occupied = true then stepEnds s else planFails .sourceEmpty (foundEmpty i l s)
  | .destination =>
    if s.ldr.state = .stopping ∨ occupied = false then stepEnds s else planFails .destOccupied s

/-! ## Reset (R129) -/

/-- The request in service goes back: it takes the place of the oldest request of its class (R129, log entry 20). -/
def requeue (m : MountRequest) (back : MountRequest) : List MountRequest → List MountRequest
  | [] => []
  | x :: rest =>
    if x = m then back :: rest
    else if x.cls = m.cls then back :: (x :: rest).erase m
    else x :: requeue m back rest

/-- LOADER_RESET (R129). -/
def loaderReset (s : State) : State :=
  let s := match inService s with
    | none => s
    | some m =>
      let back := { m with inService := false, rebuilt := if m.kind = .mount ∧ heldRecord s ≠ m.cart then heldRecord s
                                                          else none }
      setMounts (requeue m back s.mounts) s
  modLdr (fun d => { d with state := .unhomed, faultCode := none, logical := none, real := none, ramp := -1,
                            remaining := 0, plan := none, homingStop := false }) (releaseDoor s)

end Sys2Proof.Machine
end

