-- ==== Sys2Proof/Machine/TriggerOps.lean ====
section
/-! DEFINITION. Machine/TriggerOps.lean: captures, waves and compare matches (11). -/

namespace Sys2Proof.Machine

/-- What a wave's captures and notices record (R171, R179). -/
structure Happening where
  kind : CaptureKind
  qual : Option Nat
  time : Word32
  position : Option Nat
  deriving DecidableEq, Repr

/-- An event at the moment the unit takes it (R171). -/
def eventNow (k : EventKind) (q : Option Nat) (s : State) : Happening :=
  { kind := .event k, qual := q, time := s.ttu.time, position := s.ldr.logical }

/-- A fire at the moment it is taken (R179). -/
def fireNow (s : State) : Happening :=
  { kind := .fire, qual := none, time := s.ttu.time, position := s.ldr.logical }

/-- A capture into a slot (R172). -/
def captureInto (i : Fin 8) (w : Happening) (s : State) : State :=
  modTtu (fun t => { t with captures := upd t.captures i fun c =>
    { c with full := true, lost := c.lost || c.full, kind := some w.kind, time := w.time, position := w.position,
             qual := w.qual } }) s

/-- A pair of a kind and a qualifier or "any" selects an event (R172, R178). -/
def selects (k : EventKind) (q : Option Nat) (e : EventKind) (eq : Option Nat) : Bool :=
  decide (k = e) && (decide (q = none) || decide (q = eq))

/-- A capture source selects an event (R172). -/
def Source.selects : Source → EventKind → Option Nat → Bool
  | .byAction, _, _ => false
  | .event k q, e, eq => Machine.selects k q e eq

/-- A factor selects an event (R178). -/
def Factor.selects : Factor → EventKind → Option Nat → Bool
  | .none, _, _ => false
  | .event k q, e, eq => Machine.selects k q e eq

/-- The eight slots, sets or lines, in order. -/
def allEight : List (Fin 8) := List.finRange 8

/-- SUSPEND_VERIFY and VERIFY_SUSPEND where they are carried out (R155). -/
def serverSuspend (n : LaneId) (s : State) : State :=
  if s.vfy.contexts[n].state = .running then suspendPass n .server s else s

/-- RESUME_VERIFY and VERIFY_RESUME where they are carried out (R155). -/
def serverResume (n : LaneId) (s : State) : State :=
  if s.vfy.contexts[n].state = .suspended ∧ verifyGrants n s = true then resumePass n s else s

/-- An action of a set (R179). One aimed at another block is carried out at once (R178, log entry 46). -/
def act (i : Fin 8) (w : Happening) (a : Action) (s : State) : State :=
  match a with
  | .capture c => captureInto c w s
  | .lines m d => writeLines m d s
  | .stop mode => loaderStop mode s
  | .suspendVerify n => serverSuspend n s
  | .resumeVerify n => serverResume n s
  | .notice code => offerNotice (.trigger i code w.kind w.qual w.time) s
  | .compareArm c d =>
    modTtu (fun t => { t with compares := upd t.compares c fun x =>
      { x with value := t.time + BitVec.ofNat 32 d, enabled := true } }) s

/-- A set acts: its actions in order, then, in mode ONCE, its disarming (R178). -/
def actSet (i : Fin 8) (w : Happening) (s : State) : State :=
  let t := s.ttu.triggers[i]
  let s := forEach t.actions (act i w) s
  if t.mode = .once then
    modTtu (fun u => { u with triggers := upd u.triggers i fun t => { t with armed := false } }) s
  else s

/-- The sets a set that has acted chains to (R178). -/
def chained (i : Fin 8) (acted waiting : List (Fin 8)) (s : State) : List (Fin 8) :=
  allEight.filter fun j => s.ttu.triggers[i].chain.getLsbD j && s.ttu.triggers[j].armed && !acted.contains j &&
    !waiting.contains j

/-- A wave (R178): the activated sets from the front of the list; the answer adds the sets that acted, in order. Eight
sets that act each chain to at most seven, so 72 rounds use the list up. -/
def waveRounds (w : Happening) : Nat → List (Fin 8) → List (Fin 8) → State → List (Fin 8) × State
  | 0, _, acted, s => (acted, s)
  | _ + 1, [], acted, s => (acted, s)
  | k + 1, i :: rest, acted, s =>
    if acted.contains i = true ∨ s.ttu.triggers[i].armed = false then waveRounds w k rest acted s
    else
      let s := actSet i w s
      let acted := acted ++ [i]
      waveRounds w k (rest ++ chained i acted rest s) acted s

/-- A wave from its starting sets (R178). -/
def wave (w : Happening) (start : List (Fin 8)) (s : State) : List (Fin 8) × State := waveRounds w 72 start [] s

/-- The armed sets of a mask (R178, R181). -/
def armedOf (mask : BitVec 8) (s : State) : List (Fin 8) :=
  allEight.filter fun i => mask.getLsbD i && s.ttu.triggers[i].armed

/-- The armed flags of the eight sets (R181). -/
def armedFlags (s : State) : BitVec 8 :=
  allEight.foldl (fun m i => if s.ttu.triggers[i].armed = true then m ||| lineBit i else m) 0

/-- A fault disarms every fault-guarded set (R180). -/
def guardDisarm (k : EventKind) (s : State) : State :=
  if k = .laneFault ∨ k = .moveFault then
    modTtu (fun u => { u with triggers := u.triggers.map fun t => { t with armed := t.armed && !t.faultGuard } }) s
  else s

/-- The unit takes an event whole (R171); `mask` holds the sets that a compare match starts besides (R178). -/
def takeEvent (k : EventKind) (q : Option Nat) (mask : BitVec 8) (s : State) : State :=
  let s := guardDisarm k s
  let w := eventNow k q s
  let s := forEach allEight (fun i s => if s.ttu.captures[i].source.selects k q = true then captureInto i w s else s) s
  (wave w (allEight.filter fun i => s.ttu.triggers[i].armed &&
    (mask.getLsbD i || s.ttu.triggers[i].factor.selects k q)) s).2

/-- The line action of a compare slot (R175). -/
def compareLines (c : Fin 4) (s : State) : State :=
  writeLines s.ttu.compares[c].lineMask s.ttu.compares[c].lineData s

/-- A slot matches at the time (R174): it is enabled with that value. -/
def CompareSlot.matchesAt (time : Word32) (x : CompareSlot) : Bool := x.enabled && decide (x.value = time)

/-- The slots that match at the present time (R174, R175): those that matched at the last advance, with what a write
has since put there. A slot given the present value after the advance waits one full turn. -/
def matching (s : State) : List (Fin 4) :=
  (List.finRange 4).filter fun c => s.ttu.compareOwed[c] && s.ttu.compares[c].matchesAt s.ttu.time

/-- The compare test of the last advance of the time base (R175): lines, lowest slot last so that it prevails; disable;
waves, the lowest slot's first (log entry 4). With no slot left to test it changes nothing. -/
def compareMatch (s : State) : State :=
  let found := matching s
  let s := modTtu (fun t => { t with compareOwed := Vector.replicate 4 false }) (forEach found.reverse compareLines s)
  let off := fun (c : Fin 4) => modTtu fun t => { t with compares := upd t.compares c fun x => { x with enabled := false } }
  let s := forEach found off s
  forEach found (fun c s => takeEvent .compare (some c) s.ttu.compares[c].triggerMask s) s

end Sys2Proof.Machine
end

