-- ==== Sys2Proof/Machine/StreamOps.lean ====
section
/-! DEFINITION. Machine/StreamOps.lean: staging of chunks and the checks that end a pause, a flush, a close or an abort
(R8 to R17). -/

namespace Sys2Proof.Machine

/-- An entry joins the tail of the ready list, and the compressor's test falls due (R18, R19). -/
def joinReady (e : Entry) (s : State) : State :=
  post .compressorTake (modCmp (fun c => { c with ready := c.ready ++ [e] }) s)

/-- The open chunk is staged with a mark (R8). -/
def stageChunk (i : StreamId) (m : Mark) (s : State) : State :=
  match s.streams[i].openChunk with
  | none => s
  | some c =>
    joinReady { stream := i, seq := c.seq, raw := some c.bytes, mark := m }
      (modStream i (fun st => { st with openChunk := none, staged := st.staged + 1 }) s)

/-- A new chunk is opened for bytes (R8). -/
def openChunk (i : StreamId) (bytes : List Byte) (s : State) : State :=
  takeIngest (modStream i (fun st =>
    { st with openChunk := some { seq := st.nextSeq, bytes := bytes }, nextSeq := st.nextSeq + 1 }) s)

/-- A chunk whose fill has reached 4,096 is staged (R8). -/
def stageIfFull (i : StreamId) (s : State) : State :=
  match s.streams[i].openChunk with
  | none => s
  | some c => if c.bytes.length = Config.pageBytes then stageChunk i .none s else s

/-- The bytes of an accepted segment are placed (R8). -/
def placeBytes (i : StreamId) (data : List Byte) (s : State) : State :=
  let s := match s.streams[i].openChunk with
    | none => stageIfFull i (openChunk i data s)
    | some c =>
      let room := Config.pageBytes - c.bytes.length
      let s := stageIfFull i (modStream i (fun st =>
        { st with openChunk := some { c with bytes := c.bytes ++ data.take room } }) s)
      if room < data.length then stageIfFull i (openChunk i (data.drop room) s) else s
  modStream i (fun st => { st with nextOffset := st.nextOffset + data.length }) s

/-- The resume check of a paused stream (R10). -/
def streamResume (i : StreamId) (s : State) : State :=
  let st := s.streams[i]
  if st.paused = true ∧ (st.state = .opened ∨ st.state = .flushing) ∧ pageRoom st s = true then
    offerNotice (.streamResume i st.nextOffset) (modStream i (fun st => { st with paused := false }) s)
  else s

/-- The completion of a flush (R14). -/
def streamFlushed (i : StreamId) (s : State) : State :=
  let st := s.streams[i]
  if st.state = .flushing ∧ st.drained = true then
    offerNotice (.streamFlushed i st.nextOffset) (modStream i (fun st => { st with state := .opened }) s)
  else s

/-- One span is offered to the verify queue at a close (R15, R144): whether it was queued. -/
def offerSpan (i : StreamId) (sp : Span) (s : State) : Bool × State :=
  match recordAt sp.cart s with
  | none => (false, s)
  | some c =>
    if Config.mountRoom ≤ s.vfy.queue.length then (false, s)
    else
      let r : VerifyRequest := { cart := sp.cart, label := c.label, first := sp.first, last := some sp.last,
                                 origin := .close i, mountAsked := false }
      (true, post .verifyStart (modVfy (fun v => { v with queue := v.queue ++ [r] }) s))

/-- The spans of a closing stream are offered, oldest first: how many were not queued (R15). -/
def offerSpans (i : StreamId) : List Span → State → Nat × State
  | [], s => (0, s)
  | sp :: rest, s =>
    let a := offerSpan i sp s
    let b := offerSpans i rest a.2
    (if a.1 = true then b.1 else b.1 + 1, b.2)

/-- The completion of a close (R15). -/
def closeComplete (i : StreamId) (s : State) : State :=
  let st := s.streams[i]
  if st.state = .closing ∧ st.drained = true then
    let a := if st.verifyOnClose = true then offerSpans i st.spans s else (0, s)
    modStream i (fun st => { st with state := .closed })
      (offerNotice (.streamClosed i st.nextOffset st.lastCommitted st.spans st.spanOverflow false a.1) a.2)
  else s

/-- The completion of an abort (R17). -/
def abortComplete (i : StreamId) (s : State) : State :=
  let st := s.streams[i]
  if st.state = .aborted ∧ st.drained = true then
    modStream i (fun st => { st with state := .closed })
      (offerNotice (.streamClosed i st.nextOffset st.lastCommitted st.spans st.spanOverflow true 0) s)
  else s

end Sys2Proof.Machine
end

