-- ==== Sys2Proof/Machine/Settle.lean ====
section
/-! DEFINITION. Machine/Settle.lean: the tests that have fallen due are carried out (log entry 2), the transmit side
chooses its frames (R187), and a command is taken from outside or from the link (R184, R193). -/

namespace Sys2Proof.Machine

/-- A test that has fallen due is carried out. -/
def runDue (d : Due) (s : State) : State :=
  match d with
  | .compressorTake => compressorTake s
  | .streamResume i => streamResume i s
  | .streamFlushed i => streamFlushed i s
  | .closeComplete i => closeComplete i s
  | .abortComplete i => abortComplete i s
  | .expanderTake => expanderTake s
  | .readGrant => readGrant s
  | .writeStart n => writeStart n s
  | .holdResume n => holdResume n s
  | .catalogHold n => catalogResume n s
  | .event e => takeEvent e.kind e.qual 0 s
  | .scratchPick n => pickScratch n s
  | .serveTest => serveTest s
  | .verifyStart => verifyStart s
  | .verifyResume n => autoResume n s
  | .restoreActivate => restoreActivate s
  | .ejectAsk n => ejectAgain n s
  | .restoreLane n => restoreLane n s
  | .restoreGo => restoreGo s
  | .restoreRoom => restoreRoom s
  | .readAgain n => readAgain n s
where
  /-- A reading client whose read was refused asks again (R72, R149). -/
  readAgain (n : LaneId) (s : State) : State :=
    if s.lanes[n].command = none ∧ s.lanes[n].readBlock = none ∧ s.lanes[n].releasing = false then
      match s.lanes[n].activity, s.rse.active with
      | .verify, _ =>
        if s.vfy.contexts[n].state = .running ∧ s.vfy.contexts[n].stage = .read then
          laneRead n s.vfy.contexts[n].next s
        else s
      | .restore, some c => if c.state = .reading ∧ c.stage = .read ∧ c.lane = some n then restoreRead s else s
      | _, _ => s
    else s

/-- The transmit arbiter chooses the next frame while the transmit side is free (R187); while a PART_RESET reply waits,
replies only (R190). -/
def choose (s : State) : State :=
  match s.link.sending with
  | some _ => s
  | none =>
    match s.link.replies with
    | r :: rest => modLink (fun l => { l with replies := rest, sending := some (.reply r) }) s
    | [] =>
      if s.link.resetReply = true then s
      else
        match s.link.notices with
        | n :: rest => modLink (fun l => { l with notices := rest, sending := some (.notice n) }) s
        | [] =>
          match s.rse.active.bind RestoreContext.segment with
          | none => s
          | some g => segmentTaken g (modLink (fun l => { l with sending := some (.segment g) }) s)

/-- The tests that have fallen due are carried out, oldest first, with those that fall due meanwhile. -/
def settleRounds : Nat → State → State
  | 0, s => s
  | k + 1, s =>
    match s.due with
    | [] => s
    | d :: rest => settleRounds k (choose (runDue d { s with due := rest }))

/-- Rounds of tests in one command; what is left over is carried out with the next (log entry 2). -/
def settleLimit : Nat := 65536

/-- Every test that has fallen due is carried out before a command from outside is taken (log entry 2). -/
def settle (s : State) : State := settleRounds settleLimit s

/-- A command from outside: what has fallen due, the command's own effect, the arbiter's choice. -/
def outside (f : State → State) (s : State) : State := choose (f (settle s))

/-- A test of the table, commanded: it leaves the list of what has fallen due, and is made (log entry 2). -/
def commanded (d : Due) (s : State) : State := choose (runDue d (takeDue d s))

/-- A receive credit is sent unless the reply list is full or a PART_RESET reply waits (R193). -/
def renewCredit (s : State) : State :=
  modLink (fun l => { l with credit := decide (l.replies.length < Config.replyRoom) && !l.resetReply }) s

/-- A frame is taken from the link: it uses the credit, and a credit follows it (R184, R193). -/
def takeFrame (f : State → State) (s : State) : State := renewCredit (outside f s)

/-- A frame arrives: with a credit out it is taken, without one it waits at the server (R184, log entry 6). -/
def receive (c : Instr) (f : State → State) (s : State) : State :=
  if s.link.credit = true then takeFrame f s else modLink (fun l => { l with waiting := l.waiting ++ [c] }) s

end Sys2Proof.Machine
end

