-- ==== Sys2Proof/Machine/Directory.lean ====
section
/-! DEFINITION. Machine/Directory.lean: the directory requests and the scratch pick (06), and the catalog requests
(08). -/

namespace Sys2Proof.Machine

/-! ## Protection and contents (R99 to R104) -/

/-- A directory request that passes the index check of R99 finds a record, or is refused. -/
def withRecord (h : Hdr) (code index : Nat) (f : CartId → Cart → State → State) (s : State) : State :=
  match finOf 64 index with
  | none => refuse h code .badArgument s
  | some i =>
    match recordAt i s with
    | none => refuse h code .notFound s
    | some c => f i c s

/-- The floor after PROTECT (R100). -/
def raisedFloor (f : Nat) (c : Cart) : Nat := max c.floor (min f c.endOfData)

/-- PROTECT (R99, R100). -/
def protect (h : Hdr) (index floor : Nat) (s : State) : State :=
  if max32 < floor then refuse h 19 .badArgument s
  else
    withRecord h 19 index (fun i c s =>
      answer h 19 .ok (.number (raisedFloor floor c)) (modRecord i (fun c => { c with floor := raisedFloor floor c }) s)) s

/-- SET_WORM (R99, R101). -/
def setWorm (h : Hdr) (index : Nat) (s : State) : State :=
  withRecord h 20 index (fun i _ s => answer h 20 .ok .none (modRecord i (fun c => { c with worm := true }) s)) s

/-- The refusal of ERASE_FROM, if any (R102). -/
def eraseRefusal (i : CartId) (c : Cart) (b : Nat) (s : State) : Option Status :=
  if c.endOfData < b then some .badArgument
  else if c.worm = true ∨ b < c.floor then some .prot
  else if inMotion i s = true then some .busy
  else none

/-- ERASE_FROM (R99, R102, R140). -/
def eraseFrom (h : Hdr) (index block : Nat) (s : State) : State :=
  if max32 < block then refuse h 21 .badArgument s
  else
    withRecord h 21 index (fun i c s =>
      match eraseRefusal i c block s with
      | some st => refuse h 21 st s
      | none =>
        let s := modRecord i (fun c => { c with endOfData := block, verifiedTo := min c.verifiedTo block }) s
        writeTestFor i (answer h 21 .ok .none (removeEntries i block s))) s

/-- The refusal of RECYCLE, if any (R103). -/
def recycleRefusal (i : CartId) (c : Cart) (s : State) : Option Status :=
  if 0 < c.floor ∨ c.worm = true then some .prot
  else if inMotion i s = true then some .busy
  else none

/-- RECYCLE (R99, R103, R140). -/
def recycle (h : Hdr) (index : Nat) (s : State) : State :=
  withRecord h 22 index (fun i c s =>
    match recycleRefusal i c s with
    | some st => refuse h 22 st s
    | none =>
      let s := modRecord i (fun c => { c with state := .scratch, endOfData := 0, verifiedTo := 0 }) s
      askPickFor i (writeTestFor i (answer h 22 .ok .none (removeEntries i 0 s)))) s

/-- FORGET (R99, R104, R140). -/
def forget (h : Hdr) (index : Nat) (s : State) : State :=
  withRecord h 23 index (fun i c s =>
    if c.location ≠ .outside ∧ c.location ≠ .missing then refuse h 23 .badState s
    else if namedByQueue i s = true then refuse h 23 .busy s
    else answer h 23 .ok .none (dropRecord i (removeEntries i 0 s))) s

/-! ## Catalog requests (R137 to R139) -/

/-- What CAT_QUERY reports (R137). -/
def catalogFigures (s : State) : CatalogReport :=
  { count := s.cat.entries.length, freeRoom := freeRoom s, places := s.cat.places,
    high := decide (Config.highMark ≤ s.cat.entries.length), fullReported := s.cat.fullReported,
    oldest := s.cat.entries.head?.map CatEntry.serial, nextSerial := s.cat.nextSerial,
    unverified := statusCount .unverified s, verified := statusCount .verified s, bad := statusCount .bad s }

/-- CAT_QUERY (R137). -/
def catQuery (h : Hdr) (s : State) : State := answer h 24 .ok (.catalog (catalogFigures s)) s

/-- CAT_READ (R138). -/
def catRead (h : Hdr) (start count : Nat) (s : State) : State :=
  if start < 4096 ∧ 1 ≤ count ∧ count ≤ 16 then
    answer h 25 .ok (.entries s.cat.entries.length ((s.cat.entries.drop start).take count)) s
  else refuse h 25 .badArgument s

/-- CAT_RELEASE (R139). -/
def catRelease (h : Hdr) (count : Nat) (expected : Option Nat) (s : State) : State :=
  if 4096 < count ∨ s.cat.entries.length < count then refuse h 26 .badArgument s
  else if expected.isSome = true ∧ s.cat.entries.head?.map (fun e => e.serial.toNat) ≠ expected then
    refuse h 26 .badState s
  else
    let s := keepEntries (List.drop count) s
    answer h 26 .ok (.count s.cat.entries.length) s

/-! ## Commands -/

/-- PROTECT (R100). -/
def execProtect (h : Hdr) (index floor : Nat) (s : State) : Out :=
  .next (receive (.protect h index floor) (protect h index floor) s)

/-- SET_WORM (R101). -/
def execSetWorm (h : Hdr) (index : Nat) (s : State) : Out := .next (receive (.setWorm h index) (setWorm h index) s)

/-- ERASE_FROM (R102). -/
def execEraseFrom (h : Hdr) (index block : Nat) (s : State) : Out :=
  .next (receive (.eraseFrom h index block) (eraseFrom h index block) s)

/-- RECYCLE (R103). -/
def execRecycle (h : Hdr) (index : Nat) (s : State) : Out := .next (receive (.recycle h index) (recycle h index) s)

/-- FORGET (R104). -/
def execForget (h : Hdr) (index : Nat) (s : State) : Out := .next (receive (.forget h index) (forget h index) s)

/-- CAT_QUERY (R137). -/
def execCatQuery (h : Hdr) (s : State) : Out := .next (receive (.catQuery h) (catQuery h) s)

/-- CAT_READ (R138). -/
def execCatRead (h : Hdr) (start count : Nat) (s : State) : Out :=
  .next (receive (.catRead h start count) (catRead h start count) s)

/-- CAT_RELEASE (R139). -/
def execCatRelease (h : Hdr) (count : Nat) (expected : Option Nat) (s : State) : Out :=
  .next (receive (.catRelease h count expected) (catRelease h count expected) s)

/-- SCRATCH_PICK (R106). -/
def execScratchPick (n : LaneId) (s : State) : Out := .next (commanded (.scratchPick n) s)

end Sys2Proof.Machine
end

