-- ==== Sys2Proof/Machine/RestoreSteps.lean ====
section
/-! DEFINITION. Machine/RestoreSteps.lean: the restore requests (10) and the activation of a restore. -/

namespace Sys2Proof.Machine

/-- The start operand of a RESTORE: an index and a block in their ranges (R158). -/
def startOf (start : Option (Nat × Nat)) : Option (Option (CartId × Nat)) :=
  match start with
  | none => some none
  | some p =>
    match finOf 64 p.1, blockOf p.2 with
    | some i, some b => some (some (i, b))
    | _, _ => none

/-- The start a queued restore holds: the index, the block and the record's label; none when the index is empty
(R158). -/
def startRecord (start : Option (CartId × Nat)) (s : State) : Option (Option RestoreStart) :=
  match start with
  | none => some none
  | some p => (recordAt p.1 s).map fun c => some { cart := p.1, block := p.2, label := c.label }

/-- RESTORE (R158); the stream stands in the frame's subject (log entry 8). The count in the reply takes in a request that
becomes active at once (log entry 46). -/
def restore (h : Hdr) (first last : Nat) (start : Option (Nat × Nat)) (s : State) : State :=
  match finOf 32 h.subject, startOf start with
  | some i, some st =>
    if max32 < last ∨ last < first then refuse h 31 .badArgument s
    else
      match startRecord st s with
      | none => refuse h 31 .notFound s
      | some r =>
        if Config.restoreRoom ≤ s.rse.queue.length then refuse h 31 .noRoom s
        else
          let q : RestoreRequest := { tag := h.tag, stream := i, first := first, last := last, start := r }
          answer h 31 .ok (.count (s.rse.queue.length + 1))
            (post .restoreActivate (modRse (fun x => { x with queue := x.queue ++ [q] }) s))
  | _, _ => refuse h 31 .badArgument s

/-- A scope operand of RESTORE_CANCEL: kind 0 a tag, 1 ALL (R192), with which the tag is not read (log entry 18); none of
the inner option is ALL. -/
def restoreScopeOf (scope tag : Nat) : Option (Option Nat) :=
  if scope = 0 then some (some tag) else if scope = 1 then some none else none

/-- A tag lies within the scope (R169). -/
def inScope (k : Option Nat) (tag : Nat) : Bool :=
  match k with
  | none => true
  | some t => decide (t = tag)

/-- The active restore lies within the scope (R169). -/
def activeInScope (k : Option Nat) (s : State) : Bool :=
  match s.rse.active with
  | none => false
  | some c => inScope k c.tag

/-- RESTORE_CANCEL (R169). Its reply stands before the notices of what it ends (R184), and these stand with the queued
requests' first, oldest first, and the active one's last (log entry 46). -/
def restoreCancel (h : Hdr) (scope tag : Nat) (s : State) : State :=
  match restoreScopeOf scope tag with
  | none => refuse h 32 .badArgument s
  | some k =>
    let queued := s.rse.queue.filter fun r => inScope k r.tag
    let active := activeInScope k s
    let s := answer h 32 .ok (.count (queued.length + if active = true then 1 else 0)) s
    let s := modRse (fun x => { x with queue := x.queue.filter fun r => !inScope k r.tag }) s
    let s := forEach queued queuedRestoreNotice s
    post .restoreActivate (if active = true then finishRestore .cancelled (giveUp true s) else s)

/-! ## Commands -/

/-- RESTORE (R158). -/
def execRestore (h : Hdr) (first last : Nat) (start : Option (Nat × Nat)) (s : State) : Out :=
  .next (receive (.restore h first last start) (restore h first last start) s)

/-- RESTORE_CANCEL (R169). -/
def execRestoreCancel (h : Hdr) (scope tag : Nat) (s : State) : Out :=
  .next (receive (.restoreCancel h scope tag) (restoreCancel h scope tag) s)

/-- RESTORE_ACTIVATE (R160). -/
def execRestoreActivate (s : State) : Out := .next (commanded .restoreActivate s)

end Sys2Proof.Machine
end

