-- ==== Sys2Proof/Machine/Streams.lean ====
section
/-! DEFINITION. Machine/Streams.lean: the stream requests, segments, and the checks of a stream (01). -/

namespace Sys2Proof.Machine

/-- A refused segment: its notice and its event (R7). -/
def refuseSegment (i : StreamId) (r : RefusedReason) (expected : Nat) (s : State) : State :=
  raise .segRefused (some i) (offerNotice (.segRefused i r expected) s)

/-- A segment is tested against its stream, and accepted or refused whole (R6 to R9). -/
def takeSegment (i : StreamId) (offset : Nat) (data : List Byte) (s : State) : State :=
  let st := s.streams[i]
  if st.state ≠ .opened then refuseSegment i .notOpen 0 s
  else if st.nextSeq = max32 then refuseSegment i .limit st.nextOffset s
  else if offset ≠ st.nextOffset then refuseSegment i .order st.nextOffset s
  else if needsPage st data.length = true ∧ pageRoom st s = false then
    refuseSegment i .full st.nextOffset (modStream i (fun st => { st with paused := true }) s)
  else placeBytes i data s

/-- The link interface's checks of a SEG frame (R6, R183). -/
def segment (h : Hdr) (offset : Nat) (data : List Byte) (s : State) : State :=
  match finOf 32 h.subject with
  | some i =>
    if 1 ≤ data.length ∧ data.length ≤ Config.pageBytes then takeSegment i offset data s else countSeg s
  | none => countSeg s
where
  /-- A SEG frame discarded by these checks is counted (R6). -/
  countSeg (s : State) : State :=
    modLink (fun l => { l with counters := { l.counters with seg := satAdd max32 l.counters.seg 1 } }) s

/-- A stream context opened (R4). -/
def openedStream (p : Fin 8) (n : LaneId) (c : StreamClass) (v : Bool) (st : Stream) : Stream :=
  { Stream.reset with state := .opened, pool := p, lane := n, cls := c, verifyOnClose := v,
                      uncommitted := st.uncommitted }

/-- OPEN_STREAM (R3, R4). -/
def openStream (h : Hdr) (pool cls verify : Nat) (s : State) : State :=
  match finOf 32 h.subject, finOf 8 pool, classOf cls, flagOf verify with
  | some i, some p, some c, some v =>
    if s.streams[i].state ≠ .closed then refuse h 1 .badState s
    else
      match writeLane p s with
      | none => refuse h 1 .notFound s
      | some n => answer h 1 .ok .none (modStream i (openedStream p n c v) s)
  | _, _, _, _ => refuse h 1 .badArgument s

/-- The last entry of a stream in the ready list takes a mark (R14). -/
def markLast (i : StreamId) (m : Mark) : List Entry → List Entry
  | [] => []
  | e :: rest =>
    if e.stream = i ∧ rest.any (fun x => decide (x.stream = i)) = false then { e with mark := m } :: rest
    else e :: markLast i m rest

/-- The flush mark goes on the youngest staged chunk: in the ready list, or else in compression (R14). -/
def flushMark (i : StreamId) (s : State) : State :=
  if s.cmp.ready.any (fun e => decide (e.stream = i)) = true then
    modCmp (fun c => { c with ready := markLast i .flush c.ready }) s
  else
    modCmp (fun c => { c with engine := c.engine.map fun t =>
      if t.entry.stream = i then { t with entry := { t.entry with mark := .flush } } else t }) s

/-- The lane's open block holds a record of the stream (R14, R49). -/
def openHolds (i : StreamId) (n : LaneId) (s : State) : Bool :=
  match s.asm[n].openBlock with
  | none => false
  | some b => b.runs.any fun r => decide (r.stream = i)

/-- FLUSH_STREAM (R3, R14, R84). -/
def flushStream (h : Hdr) (s : State) : State :=
  match finOf 32 h.subject with
  | none => refuse h 2 .badArgument s
  | some i =>
    let st := s.streams[i]
    if st.state ≠ .opened then refuse h 2 .badState s
    else
      let go := modStream i fun st => { st with state := .flushing }
      let s := if st.openChunk.isSome = true then answer h 2 .ok .none (stageChunk i .flush (go s))
        else if 0 < st.staged then answer h 2 .ok .none (flushMark i (go s))
        else if 0 < st.uncommitted then
          answer h 2 .ok .none (if openHolds i st.lane s = true then askSeal st.lane .mark (go s) else go s)
        else offerNotice (.streamFlushed i st.nextOffset) (answer h 2 .ok .none s)
      post (.holdResume st.lane) s

/-- The end entry of a close (R15). -/
def addEnd (i : StreamId) (s : State) : State :=
  joinReady { stream := i, seq := s.streams[i].nextSeq, raw := none, mark := .close }
    (modStream i (fun st => { st with nextSeq := if st.nextSeq = max32 then max32 else st.nextSeq + 1,
                                      staged := st.staged + 1 }) s)

/-- CLOSE_STREAM (R3, R15). -/
def closeStream (h : Hdr) (s : State) : State :=
  match finOf 32 h.subject with
  | none => refuse h 3 .badArgument s
  | some i =>
    let st := s.streams[i]
    if st.state = .opened ∨ st.state = .flushing then
      let s := modStream i (fun st => { st with state := .closing, paused := false }) s
      answer h 3 .ok .none (if st.openChunk.isSome = true then stageChunk i .close s else addEnd i s)
    else refuse h 3 .badState s

/-- The chunks of an aborted stream that have not reached the compressor are removed (R16). -/
def dropChunks (i : StreamId) (s : State) : State :=
  let mine := s.cmp.ready.filter fun e => decide (e.stream = i)
  let pages := (mine.filter fun e => e.raw.isSome).length + (if s.streams[i].openChunk.isSome = true then 1 else 0)
  let s := modCmp (fun c => { c with ready := c.ready.filter fun e => decide (e.stream ≠ i) }) s
  freeIngest pages (modStream i (fun st => { st with openChunk := none, staged := st.staged - mine.length }) s)

/-- ABORT_STREAM (R3, R16, R17, R84). An abort complete at its acceptance sends STREAM_CLOSED before the resume checks
that its freed pages make due (log entry 46). -/
def abortStream (h : Hdr) (s : State) : State :=
  match finOf 32 h.subject with
  | none => refuse h 4 .badArgument s
  | some i =>
    let st := s.streams[i]
    if st.state = .opened ∨ st.state = .flushing ∨ st.state = .closing then
      let s := dropChunks i (modStream i (fun st => { st with state := .aborted, paused := false }) s)
      abortComplete i (post (.holdResume st.lane) (answer h 4 .ok .none s))
    else refuse h 4 .badState s

/-- STREAM_QUERY (R3, R5). -/
def streamQuery (h : Hdr) (s : State) : State :=
  match finOf 32 h.subject with
  | none => refuse h 5 .badArgument s
  | some i => answer h 5 .ok (.stream s.streams[i]) s

/-! ## Commands -/

/-- SEGMENT (R6). -/
def execSegment (h : Hdr) (offset : Nat) (data : List Byte) (s : State) : Out :=
  .next (receive (.segment h offset data) (segment h offset data) s)

/-- OPEN_STREAM (R4). -/
def execOpenStream (h : Hdr) (pool cls verify : Nat) (s : State) : Out :=
  .next (receive (.openStream h pool cls verify) (openStream h pool cls verify) s)

/-- FLUSH_STREAM (R14). -/
def execFlushStream (h : Hdr) (s : State) : Out := .next (receive (.flushStream h) (flushStream h) s)

/-- CLOSE_STREAM (R15). -/
def execCloseStream (h : Hdr) (s : State) : Out := .next (receive (.closeStream h) (closeStream h) s)

/-- ABORT_STREAM (R16). -/
def execAbortStream (h : Hdr) (s : State) : Out := .next (receive (.abortStream h) (abortStream h) s)

/-- STREAM_QUERY (R5). -/
def execStreamQuery (h : Hdr) (s : State) : Out := .next (receive (.streamQuery h) (streamQuery h) s)

/-- STREAM_RESUME (R10). -/
def execStreamResume (i : StreamId) (s : State) : Out := .next (commanded (.streamResume i) s)

/-- STREAM_FLUSHED (R14). -/
def execStreamFlushed (i : StreamId) (s : State) : Out := .next (commanded (.streamFlushed i) s)

/-- CLOSE_COMPLETE (R15). -/
def execCloseComplete (i : StreamId) (s : State) : Out := .next (commanded (.closeComplete i) s)

/-- ABORT_COMPLETE (R17). -/
def execAbortComplete (i : StreamId) (s : State) : Out := .next (commanded (.abortComplete i) s)

end Sys2Proof.Machine
end

