-- ==== Sys2Proof/Machine/Packer.lean ====
section
/-! DEFINITION. Machine/Packer.lean: the steps of the compressor, the assembler, the expander and the buffer pool
(02, 03). -/

namespace Sys2Proof.Machine

/-- The seal-age timer of a lane has reached SEAL_AGE (R50). -/
def ageReached (n : LaneId) (s : State) : Bool :=
  match s.asm[n].openBlock with
  | none => false
  | some b => decide (s.settings.sealAge * 100 ≤ elapsed b.openedAt s.ttu.time)

/-- The seal-age timer expires once its time has come (R50, log entry 4). -/
def sealAge (n : LaneId) (s : State) : State := if ageReached n s = true then askSeal n .age s else s

/-- COMPRESSOR_TAKE (R19). -/
def execCompressorTake (s : State) : Out := .next (commanded .compressorTake s)

/-- COMPRESSION_COMPLETE (R22). -/
def execCompressionComplete (s : State) : Out := .next (outside compressionComplete s)

/-- SEAL_AGE_EXPIRY (R50). -/
def execSealAgeExpiry (n : LaneId) (s : State) : Out := .next (outside (sealAge n) s)

/-- EXPANDER_TAKE (R32). -/
def execExpanderTake (s : State) : Out := .next (commanded .expanderTake s)

/-- EXPANSION_COMPLETE (R36). -/
def execExpansionComplete (s : State) : Out := .next (outside expansionComplete s)

/-- READ_GRANT (R43). -/
def execReadGrant (s : State) : Out := .next (commanded .readGrant s)

end Sys2Proof.Machine
end

