-- ==== Sys2Proof/Machine/Tables.lean ====
section
/-! DEFINITION. Machine/Tables.lean: TABLE_WRITE and TABLE_READ of the ten tables (Section 12.2 and the rules it
names). Their request codes are 6 and 7 (R192). -/

namespace Sys2Proof.Machine

/-- A change of the tables. -/
def modTables (f : Tables → Tables) (s : State) : State := { s with tables := f s.tables }

/-- A change of the settings. -/
def modSettings (f : Settings → Settings) (s : State) : State := { s with settings := f s.settings }

/-- Every item of a payload read by its form; a payload carries one or more (Section 12.2). -/
def readAll {α β : Type} (f : α → Option β) (l : List α) : Option (List β) := if l.isEmpty then none else l.mapM f

/-! ## Speed, ramp, positions (R82, R112, R111) -/

/-- TABLE_WRITE of the speed table (R82). -/
def writeSpeed (h : Hdr) (rates : List Nat) (s : State) : State :=
  if speedOk rates = true then
    answer h 6 .ok .none
      (forEach allLanes (fun n => modGov n (clampStep (rates.length - 1))) (modTables (fun t => { t with speed := rates }) s))
  else refuse h 6 .badArgument s

/-- TABLE_WRITE of the ramp table (R112). -/
def writeRamp (h : Hdr) (intervals : List Nat) (s : State) : State :=
  if rampOk intervals = false then refuse h 6 .badArgument s
  else if loaderMoving s = true then refuse h 6 .busy s
  else answer h 6 .ok .none (modTables (fun t => { t with ramp := intervals }) s)

/-- One entry of the positions table (R111). -/
def setPosition (p : Fin 54 × Option Nat) : State → State :=
  modTables fun t => { t with positions := upd t.positions p.1 fun _ => p.2 }

/-- TABLE_WRITE of the positions table (R111). A location named twice takes the later position (log entry 46). -/
def writePositions (h : Hdr) (pairs : List (Nat × Option Nat)) (s : State) : State :=
  match readAll positionOf pairs with
  | none => refuse h 6 .badArgument s
  | some ps =>
    if loaderMoving s = true then refuse h 6 .busy s else answer h 6 .ok .none (forEach ps setPosition s)

/-! ## Pool split (R39, R40) -/

/-- Some region holds a page (R39). -/
def poolInUse (s : State) : Bool := decide (freePages s ≠ Config.poolPages)

/-- TABLE_WRITE of the pool split table (R39), and the tests that follow (R40). -/
def writePoolSplit (h : Hdr) (quotas : QuotaArg) (s : State) : State :=
  match quotasOf quotas with
  | none => refuse h 6 .badArgument s
  | some q =>
    if poolInUse s = true then refuse h 6 .busy s
    else
      post .readGrant (post .compressorTake (checkAllResumes
        (answer h 6 .ok .none (modPool (fun p => { p with quotas := q }) s))))

/-! ## Lane roles (R58) -/

/-- Two entries are not WRITE for the same pool (R58). -/
def rolesDistinct (r : Vector Role 4) : Bool :=
  allLanes.all fun m => allLanes.all fun n => decide (m = n) || !r[m].isWrite || decide (r[m] ≠ r[n])

/-- A changed entry of a lane that is busy or serves a stream (R58). -/
def roleBusy (n : LaneId) (r : Role) (s : State) : Bool :=
  decide (s.lanes[n].role ≠ r) && (s.lanes[n].state.onTape ||
    (s.lanes[n].role.isWrite && allStreams.any fun i =>
      decide (s.streams[i].state ≠ .closed) && decide (s.streams[i].lane = n)))

/-- A lane takes its entry; a changed one clears fill wanted and makes the write-start test (R58). -/
def setRole (r : Vector Role 4) (n : LaneId) (s : State) : State :=
  if s.lanes[n].role = r[n] then s
  else
    post (.writeStart n) (modLane n (fun l => { l with role := r[n], fillWanted := false, pickNoRoom := false }) s)

/-- TABLE_WRITE of the lane role table (R58), the write-start tests of the changed lanes falling due in the order of the
lanes (log entry 3); the loader tests its queue again (R164, log entry 40). -/
def writeLaneRole (h : Hdr) (r0 r1 r2 r3 : RoleArg) (s : State) : State :=
  match roleOf r0, roleOf r1, roleOf r2, roleOf r3 with
  | some a, some b, some c, some d =>
    let r : Vector Role 4 := #v[a, b, c, d]
    if rolesDistinct r = false then refuse h 6 .badArgument s
    else if allLanes.any (fun n => roleBusy n r[n] s) = true then refuse h 6 .busy s
    else post .serveTest (forEach allLanes (setRole r) (answer h 6 .ok .none s))
  | _, _, _, _ => refuse h 6 .badArgument s

/-! ## Directory (R95 to R98) -/

/-- The written record conflicts with a record at another index (R95). -/
def recordConflicts (i : CartId) (c : Cart) (s : State) : Bool :=
  (List.finRange 64).any fun j => decide (j ≠ i) &&
    match recordAt j s with
    | none => false
    | some x => decide (x.label = c.label) || decide (namedAt c.location s = some j)

/-- Check 1 of R96, for a record that replaces the present one. -/
def writeProtected (old new : Cart) : Bool :=
  (old.worm && !new.worm) || decide (new.floor < old.floor) || decide (new.endOfData < old.floor) ||
    (old.worm && decide (new.endOfData < old.endOfData))

/-- Check 2 of R96, for a record that replaces the present one. -/
def writeLosesEntries (i : CartId) (old new : Cart) (s : State) : Bool :=
  hasEntries i s && (decide (new.label ≠ old.label) || decide (new.endOfData < old.endOfData))

/-- The present record is at PICKER, in use by a lane or named by the mount queue (R96 check 3). -/
def recordBusy (i : CartId) (c : Cart) (s : State) : Bool :=
  decide (c.location = .picker) || (usingLane i s).isSome || namedByQueue i s

/-- The written record is placed at a bay whose lane is LOADING or UNLOADING (R96 check 3). -/
def bayBusy (c : Cart) (s : State) : Bool :=
  match c.location with
  | .bay n => decide (s.lanes[n].state = .loading) || decide (s.lanes[n].state = .unloading)
  | _ => false

/-- The needs locate flag of a written record (R97). -/
def writtenLocate (old : Option Cart) (new : Cart) : Bool :=
  match old with
  | none => false
  | some o => if o.label = new.label then o.needsLocate || decide (o.endOfData ≠ new.endOfData) else true

/-- The refusal of a directory write that passes R95, if any (R96). -/
def writeRefusal (i : CartId) (c : Cart) (s : State) : Option Status :=
  match recordAt i s with
  | none => if bayBusy c s = true then some .busy else none
  | some o =>
    if writeProtected o c = true then some .prot
    else if writeLosesEntries i o c s = true then some .badState
    else if recordBusy i o s = true ∨ bayBusy c s = true then some .busy
    else none

/-- The tests of the neighbours after a directory write (R97). -/
def afterWrite (i : CartId) (old : Option Cart) (c : Cart) (s : State) : State :=
  let s := match c.location with
    | .bay n => if s.lanes[n].state = .unknownMedia then sendThread n s else s
    | _ => s
  let s := askPickFor i s
  if old.map (fun o => (o.state, o.endOfData)) ≠ some (c.state, c.endOfData) then writeTestFor i s else s

/-- TABLE_WRITE of the directory with a record (R95 to R97). -/
def writeRecord (h : Hdr) (index : Nat) (body : RecordArg) (s : State) : State :=
  match finOf 64 index, recordOf body with
  | some i, some c =>
    if recordConflicts i c s = true then refuse h 6 .badArgument s
    else
      match writeRefusal i c s with
      | some st => refuse h 6 st s
      | none =>
        let old := recordAt i s
        afterWrite i old c
          (answer h 6 .ok .none (putRecord i { c with needsLocate := writtenLocate old c } s))
  | _, _ => refuse h 6 .badArgument s

/-- The refusal of a removal, if any (R96). -/
def removeRefusal (i : CartId) (s : State) : Option Status :=
  match recordAt i s with
  | none => none
  | some o =>
    if o.worm = true then some .prot
    else if hasEntries i s = true then some .badState
    else if recordBusy i o s = true then some .busy
    else none

/-- TABLE_WRITE of the directory with "remove" (R95, R96). -/
def removeRecord (h : Hdr) (index : Nat) (s : State) : State :=
  match finOf 64 index with
  | none => refuse h 6 .badArgument s
  | some i =>
    match removeRefusal i s with
    | some st => refuse h 6 st s
    | none => answer h 6 .ok .none (dropRecord i s)

/-- TABLE_READ of the directory (R98). -/
def readDirectory (h : Hdr) (first count : Nat) (s : State) : State :=
  if first < 64 ∧ 1 ≤ count ∧ count ≤ 16 then
    answer h 7 .ok (.directory first ((s.cdr.records.toList.drop first).take count)) s
  else refuse h 7 .badArgument s

/-! ## Triggers, captures, compares (R177, R173, R174) -/

/-- TABLE_WRITE of the trigger table (R177). A set named twice takes the later definition (log entry 46). -/
def writeTriggers (h : Hdr) (sets : List TriggerArg) (s : State) : State :=
  match readAll triggerOf sets with
  | none => refuse h 6 .badArgument s
  | some ts =>
    if ts.any (fun t => s.ttu.triggers[t.1].armed) = true then refuse h 6 .busy s
    else
      let set := fun t : Fin 8 × TriggerSet => modTtu fun u => { u with triggers := upd u.triggers t.1 fun _ => t.2 }
      answer h 6 .ok .none (forEach ts set s)

/-- A capture slot is emptied: its contents stay as stale values (R173). -/
def emptied (c : CaptureSlot) : CaptureSlot := { c with full := false, lost := false }

/-- TABLE_WRITE of the capture table (R173). A slot named twice takes the later source (log entry 46). -/
def writeCaptures (h : Hdr) (pairs : List (Nat × SourceArg)) (s : State) : State :=
  match readAll captureOf pairs with
  | none => refuse h 6 .badArgument s
  | some ps =>
    let set := fun p : Fin 8 × Source =>
      modTtu fun u => { u with captures := upd u.captures p.1 fun c => { emptied c with source := p.2 } }
    answer h 6 .ok .none (forEach ps set s)

/-- TABLE_WRITE of the compare table (R174). A slot named twice takes the later fields (log entry 46). -/
def writeCompares (h : Hdr) (slots : List CompareArg) (s : State) : State :=
  match readAll compareOf slots with
  | none => refuse h 6 .badArgument s
  | some cs =>
    let set := fun p : Fin 4 × CompareSlot => modTtu fun u => { u with compares := upd u.compares p.1 fun _ => p.2 }
    answer h 6 .ok .none (forEach cs set s)

/-! ## Settings (R186) -/

/-- A setting takes a value (R186). -/
def setSetting (n : SettingName) (v : Nat) (t : Settings) : Settings :=
  match n with
  | .streamChunks => { t with streamChunks := v }
  | .sealAge => { t with sealAge := v }
  | .laneTimeout => { t with laneTimeout := v }
  | .govWindow => { t with govWindow := v }
  | .reposLimit => { t with reposLimit := v }
  | .resumeMark => { t with resumeMark := v }
  | .devLimit => { t with devLimit := v }
  | .gripTimeout => { t with gripTimeout := v }
  | .heldRampCap => { t with heldRampCap := v }
  | .doorLine => { t with doorLine := v }

/-- The tests that a written value starts (R186). Where one write names a setting twice, the overridden value starts its
tests as well: those of SEAL_AGE and DEV_LIMIT are made with it, and those of STREAM_CHUNKS and RESUME_MARK fall due and
see the final value (DESIGN CHOICE, log entry 46). SEAL_AGE is tested against the open blocks of lanes 0 to 3 in turn;
R186 gives no order of the lanes, and each seal puts its lane's write-start test in front of what is owed, so that of two
lanes sealed by one write the higher-numbered one is the first to ask for a catalog place (DESIGN CHOICE, log entry 46).
RESUME_MARK's tests fall due in the order of the lanes (log entry 3). -/
def settingTests (n : SettingName) (s : State) : State :=
  match n with
  | .streamChunks => checkAllResumes s
  | .sealAge => forEach allLanes sealAge s
  | .resumeMark => forEach allLanes (fun m => post (.holdResume m)) s
  | .devLimit => limitTest s
  | _ => s

/-- A pair of a settings write, clamped (R186). -/
def settingPair (p : Nat × Nat) : Option (SettingName × Nat) :=
  (settingOf p.1).map fun n => (n, n.clamp p.2)

/-- A pair is applied, with the tests of its value, before the next pair (R186, log entry 46). -/
def applySetting (p : SettingName × Nat) (s : State) : State := settingTests p.1 (modSettings (setSetting p.1 p.2) s)

/-- TABLE_WRITE of the settings table (R186). -/
def writeSettings (h : Hdr) (pairs : List (Nat × Nat)) (s : State) : State :=
  match readAll settingPair pairs with
  | none => refuse h 6 .badArgument s
  | some ps =>
    forEach ps applySetting (answer h 6 .ok (.taken ((pairs.map Prod.fst).zip (ps.map Prod.snd))) s)

/-! ## Commands -/

/-- TABLE_WRITE_SPEED (R82). -/
def execTableWriteSpeed (h : Hdr) (rates : List Nat) (s : State) : Out :=
  .next (receive (.tableWriteSpeed h rates) (writeSpeed h rates) s)

/-- TABLE_WRITE_RAMP (R112). -/
def execTableWriteRamp (h : Hdr) (intervals : List Nat) (s : State) : Out :=
  .next (receive (.tableWriteRamp h intervals) (writeRamp h intervals) s)

/-- TABLE_WRITE_POSITIONS (R111). -/
def execTableWritePositions (h : Hdr) (pairs : List (Nat × Option Nat)) (s : State) : Out :=
  .next (receive (.tableWritePositions h pairs) (writePositions h pairs) s)

/-- TABLE_WRITE_POOL_SPLIT (R39). -/
def execTableWritePoolSplit (h : Hdr) (quotas : QuotaArg) (s : State) : Out :=
  .next (receive (.tableWritePoolSplit h quotas) (writePoolSplit h quotas) s)

/-- TABLE_WRITE_LANE_ROLE (R58). -/
def execTableWriteLaneRole (h : Hdr) (r0 r1 r2 r3 : RoleArg) (s : State) : Out :=
  .next (receive (.tableWriteLaneRole h r0 r1 r2 r3) (writeLaneRole h r0 r1 r2 r3) s)

/-- TABLE_WRITE_DIRECTORY_RECORD (R97). -/
def execTableWriteDirectoryRecord (h : Hdr) (index : Nat) (body : RecordArg) (s : State) : Out :=
  .next (receive (.tableWriteDirectoryRecord h index body) (writeRecord h index body) s)

/-- TABLE_WRITE_DIRECTORY_REMOVE (R96). -/
def execTableWriteDirectoryRemove (h : Hdr) (index : Nat) (s : State) : Out :=
  .next (receive (.tableWriteDirectoryRemove h index) (removeRecord h index) s)

/-- TABLE_WRITE_TRIGGERS (R177). -/
def execTableWriteTriggers (h : Hdr) (sets : List TriggerArg) (s : State) : Out :=
  .next (receive (.tableWriteTriggers h sets) (writeTriggers h sets) s)

/-- TABLE_WRITE_CAPTURES (R173). -/
def execTableWriteCaptures (h : Hdr) (pairs : List (Nat × SourceArg)) (s : State) : Out :=
  .next (receive (.tableWriteCaptures h pairs) (writeCaptures h pairs) s)

/-- TABLE_WRITE_COMPARES (R174). -/
def execTableWriteCompares (h : Hdr) (slots : List CompareArg) (s : State) : Out :=
  .next (receive (.tableWriteCompares h slots) (writeCompares h slots) s)

/-- TABLE_WRITE_SETTINGS (R186). -/
def execTableWriteSettings (h : Hdr) (pairs : List (Nat × Nat)) (s : State) : Out :=
  .next (receive (.tableWriteSettings h pairs) (writeSettings h pairs) s)

/-- TABLE_READ of the speed table (R82). -/
def readSpeed (h : Hdr) (s : State) : State := answer h 7 .ok (.rates s.tables.speed) s

/-- TABLE_READ of the ramp table (R112). -/
def readRamp (h : Hdr) (s : State) : State := answer h 7 .ok (.rates s.tables.ramp) s

/-- TABLE_READ of the positions table (R111). -/
def readPositions (h : Hdr) (s : State) : State := answer h 7 .ok (.positions s.tables.positions) s

/-- TABLE_READ of the pool split table (R40). -/
def readPoolSplit (h : Hdr) (s : State) : State :=
  answer h 7 .ok (.poolSplit s.pool.quotas s.pool.held (freePages s)) s

/-- TABLE_READ of the lane role table (R58). -/
def readLaneRole (h : Hdr) (s : State) : State := answer h 7 .ok (.roles (s.lanes.map Lane.role)) s

/-- TABLE_READ of the trigger table (R177). -/
def readTriggers (h : Hdr) (s : State) : State := answer h 7 .ok (.triggers s.ttu.triggers) s

/-- TABLE_READ of the capture table (R173). -/
def readCaptures (h : Hdr) (s : State) : State :=
  answer h 7 .ok (.captures (s.ttu.captures.toList.map fun c => (c.source, c.full, c.lost))) s

/-- TABLE_READ of the compare table (R174). -/
def readCompares (h : Hdr) (s : State) : State := answer h 7 .ok (.compares s.ttu.compares) s

/-- TABLE_READ of the settings table (R186). -/
def readSettings (h : Hdr) (s : State) : State := answer h 7 .ok (.settings s.settings) s

/-- TABLE_READ_SPEED (R82). -/
def execTableReadSpeed (h : Hdr) (s : State) : Out := .next (receive (.tableReadSpeed h) (readSpeed h) s)

/-- TABLE_READ_RAMP (R112). -/
def execTableReadRamp (h : Hdr) (s : State) : Out := .next (receive (.tableReadRamp h) (readRamp h) s)

/-- TABLE_READ_POSITIONS (R111). -/
def execTableReadPositions (h : Hdr) (s : State) : Out := .next (receive (.tableReadPositions h) (readPositions h) s)

/-- TABLE_READ_POOL_SPLIT (R40). -/
def execTableReadPoolSplit (h : Hdr) (s : State) : Out := .next (receive (.tableReadPoolSplit h) (readPoolSplit h) s)

/-- TABLE_READ_LANE_ROLE (R58). -/
def execTableReadLaneRole (h : Hdr) (s : State) : Out := .next (receive (.tableReadLaneRole h) (readLaneRole h) s)

/-- TABLE_READ_DIRECTORY (R98). -/
def execTableReadDirectory (h : Hdr) (first count : Nat) (s : State) : Out :=
  .next (receive (.tableReadDirectory h first count) (readDirectory h first count) s)

/-- TABLE_READ_TRIGGERS (R177). -/
def execTableReadTriggers (h : Hdr) (s : State) : Out := .next (receive (.tableReadTriggers h) (readTriggers h) s)

/-- TABLE_READ_CAPTURES (R173). -/
def execTableReadCaptures (h : Hdr) (s : State) : Out := .next (receive (.tableReadCaptures h) (readCaptures h) s)

/-- TABLE_READ_COMPARES (R174). -/
def execTableReadCompares (h : Hdr) (s : State) : Out := .next (receive (.tableReadCompares h) (readCompares h) s)

/-- TABLE_READ_SETTINGS (R186). -/
def execTableReadSettings (h : Hdr) (s : State) : Out := .next (receive (.tableReadSettings h) (readSettings h) s)

end Sys2Proof.Machine
end

