-- ==== Sys2Proof/Machine/Lanes.lean ====
section
/-! DEFINITION. Machine/Lanes.lean: the lane requests and the steps of the drive lanes and their governors (04, 05). -/

namespace Sys2Proof.Machine

/-! ## Requests (R64, R75, R87) -/

/-- What LANE_QUERY reports (R53, R64, R88). -/
def laneFigures (n : LaneId) (s : State) : LaneReport :=
  { lane := s.lanes[n], place := s.cat.places[n], cart := (mountedRecord n s).map Prod.snd,
    assemblyHeld := s.pool.held.assembly[n], assemblyQuota := s.pool.quotas.assembly[n],
    openBlock := s.asm[n].openBlock.map fun b =>
      (b.fill, b.records.length, b.runs.length, elapsed b.openedAt s.ttu.time),
    sealedBlocks := s.asm[n].sealedQueue.length, governor := s.gov[n],
    windowElapsed := s.gov[n].window.map fun w => elapsed w.start s.ttu.time }

/-- LANE_QUERY, plain (R64). -/
def laneQuery (h : Hdr) (s : State) : State :=
  match finOf 4 h.subject with
  | none => refuse h 8 .badArgument s
  | some n => answer h 8 .ok (.lane (laneFigures n s)) s

/-- LANE_QUERY with clear (R87). -/
def laneQueryClear (h : Hdr) (s : State) : State :=
  match finOf 4 h.subject with
  | none => refuse h 8 .badArgument s
  | some n =>
    modGov n (fun g => { g with starve := 0, repositionTotal := 0 }) (answer h 8 .ok (.lane (laneFigures n s)) s)

/-- LANE_EJECT (R64); the lane remembers that the server began the eject. -/
def laneEject (h : Hdr) (s : State) : State :=
  match finOf 4 h.subject with
  | none => refuse h 9 .badArgument s
  | some n =>
    if ejectable n s = true then
      sendEject n (modLane n (fun l => { l with serverEject := true }) (answer h 9 .ok .none s))
    else refuse h 9 (laneRefusal n s) s

/-- LANE_RESET (R75). -/
def laneResetRequest (h : Hdr) (s : State) : State :=
  match finOf 4 h.subject with
  | none => refuse h 10 .badArgument s
  | some n => laneReset n (answer h 10 .ok .none s)

/-! ## The drive's reports (R60, R61) -/

/-- PRESENT (R61). -/
def drivePresent (n : LaneId) (cartridge : Bool) (s : State) : State :=
  if s.lanes[n].state ≠ .offline then s
  else if cartridge = true then threadIfPlaced n s
  else setLaneState n .empty s

/-- ABSENT (R61, R70; log entry 24). -/
def driveAbsent (n : LaneId) (s : State) : State :=
  if s.lanes[n].state = .offline then s else enterFault n .mechanism s

/-! ## Answers (R60 Table 11, R62, R65 to R72) -/

/-- THREAD answers DONE (R62). -/
def threadDone (n : LaneId) (s : State) : State :=
  if inFlight n s = some .thread then
    let s := clearCommand n (modLane n (fun l => { l with tapePosition := some 0, driveStep := none }) s)
    match namedAt (.bay n) s with
    | none => setLaneState n .unknownMedia (modLane n (fun l => { l with mounted := none }) s)
    | some i =>
      let s := modLane n (fun l => { l with mounted := some i }) s
      if s.lanes[n].claim = .restore then grantRestore n s else becomeReady n s
  else s

/-- THREAD answers FAIL (R60). -/
def threadFail (n : LaneId) (r : FailReason) (s : State) : State :=
  if inFlight n s = some .thread then failCommand n (if r = .loadError then .loadFail else .mechanism) s else s

/-- A LOCATE for a read client is answered (R72, R153): the read goes on, or was withdrawn and the lane is released. -/
def locatedRead (n : LaneId) (b : Nat) (s : State) : State :=
  if s.lanes[n].releasing = true then
    let c := s.vfy.contexts[n]
    let s := if c.state = .suspended ∧ c.stage = .read then
        freeRead Config.blockPages (modCtx n (fun c => { c with stage := .none, inHand := none, pages := false }) s)
      else s
    finishRelease n s
  else sendCommand n (.read b) (setLaneState n .reading s)

/-- A LOCATE for writing is answered (R65). -/
def locatedWrite (n : LaneId) (s : State) : State :=
  let s := setNeedsLocate n false s
  if s.lanes[n].claim = .restore then grantRestore n s else enterWriting n s

/-- LOCATE answers DONE (R60, R65, R72). -/
def locateDone (n : LaneId) (s : State) : State :=
  match inFlight n s with
  | some (.locate b p) =>
    let s := clearCommand n (modLane n (fun l => { l with tapePosition := some b }) s)
    match p with
    | .write => locatedWrite n s
    | .read => post (.readAgain n) (locatedRead n b s)
  | _ => s

/-- LOCATE answers FAIL (R60). -/
def locateFail (n : LaneId) (r : FailReason) (s : State) : State :=
  match inFlight n s with
  | some (.locate _ _) =>
    failCommand n (if r = .readError ∨ r = .mediaEnd then .readFail else .mechanism) s
  | _ => s

/-- WRITE answers DONE (R67, R68). -/
def writeDone (n : LaneId) (early : Bool) (s : State) : State :=
  match inFlight n s with
  | some (.write b) => continueWriting n (earlyWarning n early (commitHead n b (clearCommand n s)))
  | _ => s

/-- WRITE answers FAIL(MEDIA_END) (R69). -/
def writeMediaEnd (n : LaneId) (s : State) : State :=
  match inFlight n s with
  | some (.write _) => endCartridge n (releasePlace n (clearCommand n (modLane n (fun l => { l with tapePosition := none }) s)))
  | _ => s

/-- WRITE answers FAIL(WRITE_ERROR) or FAIL(MECHANISM): the cartridge becomes SUSPECT (R70). -/
def writeFail (n : LaneId) (s : State) : State :=
  match inFlight n s with
  | some (.write _) =>
    let s := match s.lanes[n].mounted with
      | none => s
      | some i => modRecord i (fun c => { c with state := .suspect }) s
    failCommand n .writeFail s
  | _ => s

/-- The reading client hears the outcome of its read (R72), unless it has withdrawn. -/
def tellReader (n : LaneId) (read : Option (List Byte)) (s : State) : State :=
  if s.lanes[n].discard = true then modLane n (fun l => { l with discard := false }) s
  else
    match s.lanes[n].activity with
    | .none => s
    | .verify => passBlock n read s
    | .restore => restoreBlock read s

/-- READ is answered, with the block or without (R72, R74). -/
def readAnswered (n : LaneId) (position : Option Nat) (read : Option (List Byte)) (s : State) : State :=
  let s := clearCommand n (modLane n (fun l => { l with tapePosition := position, readBlock := none }) s)
  post (.readAgain n) (finishRelease n (tellReader n read s))

/-- READ answers DONE (R72). -/
def readDone (n : LaneId) (block : List Byte) (s : State) : State :=
  match inFlight n s with
  | some (.read b) => readAnswered n (some (b + 1)) (some block) s
  | _ => s

/-- READ answers FAIL (R60, R72). -/
def readFail (n : LaneId) (r : FailReason) (s : State) : State :=
  match inFlight n s with
  | some (.read _) =>
    if r = .readError ∨ r = .mediaEnd then readAnswered n none none s else failCommand n .mechanism s
  | _ => s

/-- STEP answers DONE (R66, R81). -/
def stepDone (n : LaneId) (s : State) : State :=
  match inFlight n s with
  | some (.step k) => sendHead n (clearCommand n (modLane n (fun l => { l with driveStep := some k }) s))
  | _ => s

/-- STEP answers FAIL: no reason is listed for it (R60). -/
def stepFail (n : LaneId) (s : State) : State :=
  match inFlight n s with
  | some (.step _) => failCommand n .mechanism s
  | _ => s

/-- A WRITE lane that has ejected a FULL cartridge wants a scratch cartridge (R71). -/
def fillTest (n : LaneId) (s : State) : State :=
  match s.lanes[n].role, mountedRecord n s with
  | .write _, some (_, c) =>
    if c.state = .full then post (.scratchPick n) (modLane n (fun l => { l with fillWanted := true }) s) else s
  | _, _ => s

/-- EJECT answers DONE (R62, R71). An eject that the server asked for sets no fill wanted (R64, log entry 45). -/
def ejectDone (n : LaneId) (s : State) : State :=
  if inFlight n s = some .eject then
    let byServer := s.lanes[n].serverEject
    let s := modLane n (fun l => { l with tapePosition := none, driveStep := none, allowance := none,
                                          ejectPending := false, serverEject := false }) s
    let s := ejectAgain n (setLaneState n .ejected (clearCommand n s))
    if byServer = true then s else fillTest n s
  else s

/-- EJECT answers FAIL (R60). -/
def ejectFail (n : LaneId) (r : FailReason) (s : State) : State :=
  if inFlight n s = some .eject then failCommand n (if r = .loadError then .loadFail else .mechanism) s else s

/-! ## Deadlines and windows (R59, R77) -/

/-- A command times out once its deadline is reached (R59, R60, log entry 4). -/
def commandTimeout (n : LaneId) (s : State) : State :=
  match s.lanes[n].command with
  | none => s
  | some f => if f.limit ≤ elapsed f.sentAt s.ttu.time then failCommand n .timeout s else s

/-- A window ends once its length is reached (R77, log entry 4). -/
def windowExpiry (n : LaneId) (s : State) : State :=
  match s.gov[n].window with
  | none => s
  | some w => if 2 ^ w.exponent ≤ elapsed w.start s.ttu.time then windowEnd n s else s

/-! ## Commands -/

/-- LANE_QUERY (R64). -/
def execLaneQuery (h : Hdr) (s : State) : Out := .next (receive (.laneQuery h) (laneQuery h) s)

/-- LANE_QUERY_CLEAR (R87). -/
def execLaneQueryClear (h : Hdr) (s : State) : Out := .next (receive (.laneQueryClear h) (laneQueryClear h) s)

/-- LANE_EJECT (R64). -/
def execLaneEject (h : Hdr) (s : State) : Out := .next (receive (.laneEject h) (laneEject h) s)

/-- LANE_RESET (R75). -/
def execLaneReset (h : Hdr) (s : State) : Out := .next (receive (.laneReset h) (laneResetRequest h) s)

/-- DRIVE_PRESENT (R61). -/
def execDrivePresent (n : LaneId) (cartridge : Bool) (s : State) : Out :=
  .next (outside (drivePresent n cartridge) s)

/-- DRIVE_ABSENT (R61). -/
def execDriveAbsent (n : LaneId) (s : State) : Out := .next (outside (driveAbsent n) s)

/-- REPOSITION (R60, R78). -/
def execReposition (n : LaneId) (s : State) : Out := .next (outside (countReposition n) s)

/-- THREAD_DONE (R62). -/
def execThreadDone (n : LaneId) (s : State) : Out := .next (outside (threadDone n) s)

/-- THREAD_FAIL (R60). -/
def execThreadFail (n : LaneId) (r : FailReason) (s : State) : Out := .next (outside (threadFail n r) s)

/-- LOCATE_DONE (R65, R72). -/
def execLocateDone (n : LaneId) (s : State) : Out := .next (outside (locateDone n) s)

/-- LOCATE_FAIL (R60). -/
def execLocateFail (n : LaneId) (r : FailReason) (s : State) : Out := .next (outside (locateFail n r) s)

/-- WRITE_DONE (R67). -/
def execWriteDone (n : LaneId) (early : Bool) (s : State) : Out := .next (outside (writeDone n early) s)

/-- WRITE_MEDIA_END (R69). -/
def execWriteMediaEnd (n : LaneId) (s : State) : Out := .next (outside (writeMediaEnd n) s)

/-- WRITE_FAIL (R70); with reason MEDIA_END it is R69's answer (log entry 26). -/
def execWriteFail (n : LaneId) (r : FailReason) (s : State) : Out :=
  .next (outside (if r = .mediaEnd then writeMediaEnd n else writeFail n) s)

/-- READ_DONE (R72). -/
def execReadDone (n : LaneId) (block : List Byte) (s : State) : Out := .next (outside (readDone n block) s)

/-- READ_FAIL (R72). -/
def execReadFail (n : LaneId) (r : FailReason) (s : State) : Out := .next (outside (readFail n r) s)

/-- STEP_DONE (R81). -/
def execStepDone (n : LaneId) (s : State) : Out := .next (outside (stepDone n) s)

/-- STEP_FAIL (R81): every reason is treated as MECHANISM (R60). -/
def execStepFail (n : LaneId) (_ : FailReason) (s : State) : Out := .next (outside (stepFail n) s)

/-- EJECT_DONE (R62). -/
def execEjectDone (n : LaneId) (s : State) : Out := .next (outside (ejectDone n) s)

/-- EJECT_FAIL (R60). -/
def execEjectFail (n : LaneId) (r : FailReason) (s : State) : Out := .next (outside (ejectFail n r) s)

/-- COMMAND_TIMEOUT (R59). -/
def execCommandTimeout (n : LaneId) (s : State) : Out := .next (outside (commandTimeout n) s)

/-- WRITE_START_TEST (R65). -/
def execWriteStartTest (n : LaneId) (s : State) : Out := .next (commanded (.writeStart n) s)

/-- HOLD_RESUME (R84). -/
def execHoldResume (n : LaneId) (s : State) : Out := .next (commanded (.holdResume n) s)

/-- CATALOG_HOLD_RESUME (R85). -/
def execCatalogHoldResume (n : LaneId) (s : State) : Out := .next (commanded (.catalogHold n) s)

/-- WINDOW_END (R77). -/
def execWindowEnd (n : LaneId) (s : State) : Out := .next (outside (windowExpiry n) s)

end Sys2Proof.Machine
end

