-- ==== Sys2Proof/Machine/LoaderSteps.lean ====
section
/-! DEFINITION. Machine/LoaderSteps.lean: the loader requests, its motion and grips, its sensors (07; R107). -/

namespace Sys2Proof.Machine

/-! ## Requests (R107, R115, R116, R120, R128, R129) -/

/-- HOME (R116, R128): the home sensor as it reads now. -/
def home (h : Hdr) (homeActive : Bool) (s : State) : State :=
  let s := modLdr (fun d => { d with homeSensor := homeActive }) s
  match s.ldr.state with
  | .fault => refuse h 11 .faulted s
  | .unhomed | .idle =>
    let s := modLdr (fun d => { d with state := .homing, logical := none, real := none, direction := .towardZero,
                                       ramp := 0, homingSteps := 0, homingStop := false, stepStart := s.ttu.time })
      (answer h 11 .ok .none s)
    if homeActive = true then homed s else s
  | _ => refuse h 11 .badState s

/-- STOP (R115, R128); its mode is tested before the loader's state (log entry 43). -/
def stop (h : Hdr) (mode : Nat) (s : State) : State :=
  match stopModeOf mode with
  | none => refuse h 12 .badArgument s
  | some m =>
    match s.ldr.state with
    | .running | .stopping | .homing => loaderStop m (answer h 12 .ok .none s)
    | _ => refuse h 12 .badState s

/-- Check 3 of MOVE and EXPORT (R120): the cartridge can go from where it is to the destination. -/
def moveAllowed (i : CartId) (c : Cart) (dest : Location) (s : State) : Bool :=
  decide (c.location ≠ .outside) && decide (c.location ≠ .missing) && decide (c.location ≠ dest) &&
    (match dest with
      | .bay _ => true
      | _ => decide (namedAt dest s = none) || decide (namedAt dest s = some i)) &&
    !namedByQueue i s && (positionAt dest s).isSome &&
    (decide (c.location = .picker) || (positionAt c.location s).isSome)

/-- A server request of the mount queue (R119, R120). -/
def serverRequest (h : Hdr) (kind : MountKind) (i : Option CartId) (t : MountTarget) : MountRequest :=
  { kind := kind, cart := i, target := t, cls := .normal, requesters := [(.server, h.tag)], tag := h.tag,
    fillLane := none, inService := false, rebuilt := none }

/-- A server request for one cartridge: the checks of R120 from NOT_FOUND on. -/
def requestMove (h : Hdr) (code : Nat) (i : CartId) (dest : Location) (req : Cart → MountRequest) (s : State) : State :=
  match recordAt i s with
  | none => refuse h code .notFound s
  | some c =>
    if moveAllowed i c dest s = false then refuse h code .badState s
    else if Config.mountRoom ≤ s.mounts.length then refuse h code .noRoom s
    else enqueueMount (req c) (answer h code .ok .none s)

/-- The kind a MOVE is queued as (R120). -/
def moveRequest (h : Hdr) (i : CartId) (dest : Location) (c : Cart) : MountRequest :=
  match dest with
  | .bay n => serverRequest h .mount (some i) (.lane n)
  | .slot k =>
    match c.location with
    | .bay _ => serverRequest h (if c.home = k then .dismount else .move) (some i) (.slot k)
    | _ => serverRequest h .move (some i) (.slot k)
  | _ => serverRequest h .move (some i) .none

/-- MOVE (R120). -/
def move (h : Hdr) (index destination : Nat) (s : State) : State :=
  match finOf 64 index, locationOf destination with
  | some i, some (.slot k) => requestMove h 13 i (.slot k) (moveRequest h i (.slot k)) s
  | some i, some (.bay n) => requestMove h 13 i (.bay n) (moveRequest h i (.bay n)) s
  | _, _ => refuse h 13 .badArgument s

/-- EXPORT (R120). -/
def exportCart (h : Hdr) (index mailSlot : Nat) (s : State) : State :=
  match finOf 64 index, mailOf mailSlot with
  | some i, some m =>
    requestMove h 14 i (.mail m) (fun _ => serverRequest h .exportCart (some i) (.mail m)) s
  | _, _ => refuse h 14 .badArgument s

/-- The lowest empty index (R107). -/
def emptyIndex (s : State) : Option CartId := (List.finRange 64).find? fun i => (recordAt i s).isNone

/-- A label that a record carries (R107). -/
def labelTaken (l : List Byte) (s : State) : Bool :=
  (List.finRange 64).any fun i => decide ((recordAt i s).map Cart.label = some l)

/-- The record an IMPORT creates (R107). -/
def importedRecord (label : List Byte) (p : Fin 8) (m : Fin 2) (k : Fin 48) : Cart :=
  { label := label, pool := p, state := .scratch, location := .mail m, home := k, endOfData := 0, floor := 0,
    worm := false, verifiedTo := 0, needsLocate := false }

/-- IMPORT (R107, R120). Its acceptance makes no scratch pick: the new record stands at a mail slot, and the pick follows
at the PUT (DEDUCED, log entry 35). -/
def importCart (h : Hdr) (mailSlot : Nat) (label : List Byte) (pool slot : Nat) (s : State) : State :=
  match mailOf mailSlot, finOf 8 pool, slotOf slot with
  | some m, some p, some k =>
    if labelOk label = false ∨ labelTaken label s = true then refuse h 15 .badArgument s
    else if (namedAt (.mail m) s).isSome = true ∨ (namedAt (.slot k) s).isSome = true then refuse h 15 .badState s
    else
      match emptyIndex s with
      | none => refuse h 15 .noRoom s
      | some i =>
        if Config.mountRoom ≤ s.mounts.length then refuse h 15 .noRoom s
        else
          enqueueMount (serverRequest h .importCart (some i) (.slot k))
            (answer h 15 .ok (.index i) (putRecord i (importedRecord label p m k) s))
  | _, _, _ => refuse h 15 .badArgument s

/-- SCAN (R120). -/
def scan (h : Hdr) (s : State) : State :=
  if s.mounts.any (fun m => decide (m.kind = .scan)) = true then refuse h 16 .badState s
  else if Config.mountRoom ≤ s.mounts.length then refuse h 16 .noRoom s
  else enqueueMount (serverRequest h .scan none .none) (answer h 16 .ok .none s)

/-- What LOADER_QUERY reports (R128). -/
def loaderFigures (s : State) : LoaderReport :=
  { loader := s.ldr, held := heldRecord s,
    heldLabel := (heldRecord s).bind fun i => (recordAt i s).map Cart.label, mounts := s.mounts }

/-- LOADER_QUERY (R128). -/
def loaderQuery (h : Hdr) (s : State) : State := answer h 17 .ok (.loader (loaderFigures s)) s

/-- LOADER_RESET (R129). -/
def loaderResetRequest (h : Hdr) (s : State) : State := loaderReset (answer h 18 .ok .none s)

/-! ## Motion (R113, R114, R116) -/

/-- The interval of a ramp index, in ticks (R112). -/
def interval (r : Int) (s : State) : Nat := s.tables.ramp.getD r.toNat 0

/-- The interval of the step in progress has passed (R113, R116). -/
def intervalPassed (s : State) : Bool := decide (interval s.ldr.ramp s ≤ elapsed s.ldr.stepStart s.ttu.time)

/-- A travel step at the end of its interval (R113, log entry 4). -/
def travelStep (s : State) : State :=
  match currentStep s with
  | some (.travel _) => if 0 < s.ldr.remaining ∧ intervalPassed s = true then travelOutput s else s
  | _ => s

/-- A homing step at the end of its interval, with the sensor's reading after it (R115, R116). A stop decides, whether
the step finds the sensor or is the last that may (log entry 15). -/
def homingStep (homeActive : Bool) (s : State) : State :=
  if s.ldr.state = .homing ∧ intervalPassed s = true then
    let s := modLdr (fun d => { d with homeSensor := homeActive, homingSteps := d.homingSteps + 1,
                                       stepStart := s.ttu.time }) s
    if s.ldr.homingStop = true then modLdr (fun d => { d with state := .unhomed, ramp := -1, homingStop := false }) s
    else if homeActive = true then homed s
    else if 65536 ≤ s.ldr.homingSteps then loaderFault .homeNotFound s
    else s
  else s

/-- The real position after a count; a count off the axis gives an open value (R114, log entry 10). -/
def countedPosition (x : Nat) (s : State) : Nat × State :=
  match s.ldr.direction with
  | .towardZero => if 0 < x then (x - 1, s) else draw s
  | .away => if x < 65535 then (x + 1, s) else draw s
where
  /-- An open position is drawn (log entry 10). -/
  draw (s : State) : Nat × State := ((Config.freePosition s.freeCount).toNat, { s with freeCount := s.freeCount + 1 })

/-- An encoder count (R114). -/
def encoderCount (s : State) : State :=
  match s.ldr.real with
  | none => s
  | some x =>
    let a := countedPosition x s
    deviationTest (modLdr (fun d => { d with real := some a.1 }) a.2)

/-! ## Probe and grip (R117) -/

/-- A PROBE completes (R117). -/
def probeDone (occupied : Bool) (s : State) : State :=
  match currentStep s with
  | some (.probe l e) => probed l e occupied s
  | _ => s

/-- A GET completes at the held sensor's change from empty to held (R117). -/
def getDone (s : State) : State :=
  match currentStep s, s.ldr.heldSensor with
  | some (.get l), false => gripped l s
  | _, _ => s

/-- A PUT completes at the held sensor's change from held to empty (R117). -/
def putDone (s : State) : State :=
  match currentStep s, s.ldr.heldSensor with
  | some (.put l), true => released l s
  | _, _ => s

/-- A grip whose time has passed (R117, log entry 4). -/
def gripTimeout (s : State) : State :=
  match currentStep s with
  | some (.get _) => expire s
  | some (.put _) => expire s
  | _ => s
where
  /-- The loader faults once GRIP_TIMEOUT is reached (R117). -/
  expire (s : State) : State :=
    if s.ldr.gripLimit ≤ elapsed s.ldr.gripStart s.ttu.time then loaderFault .gripTimeout s else s

/-! ## Sensors (R117, R127) -/

/-- A change of the held sensor (R117): the change a grip waits for completes it; any other is recorded. -/
def heldSensorChange (held : Bool) (s : State) : State :=
  if s.ldr.heldSensor = held then s
  else
    match currentStep s, held with
    | some (.get l), true => gripped l s
    | some (.put l), false => released l s
    | _, _ => post .serveTest (modLdr (fun d => { d with heldSensor := held }) s)

/-- A change of the door sensor (R127). -/
def doorSensorChange (isOpen : Bool) (s : State) : State :=
  if s.ldr.doorOpen = isOpen then s
  else raise (if isOpen = true then .doorOpened else .doorClosed) none (modLdr (fun d => { d with doorOpen := isOpen }) s)

/-- A change of a mail slot's sensor (R93, R127). -/
def mailSlotSensorChange (m : Fin 2) (present : Bool) (s : State) : State :=
  if s.ldr.mailSensors[m] = present then s
  else
    let s := modLdr (fun d => { d with mailSensors := upd d.mailSensors m fun _ => present }) s
    if present = false ∧ s.ldr.doorOpen = true then
      match namedAt (.mail m) s with
      | none => s
      | some i => moveRecord i .outside s
    else s

/-! ## Commands -/

/-- HOME (R116). -/
def execHome (h : Hdr) (homeActive : Bool) (s : State) : Out := .next (receive (.home h homeActive) (home h homeActive) s)

/-- STOP (R115). -/
def execStop (h : Hdr) (mode : Nat) (s : State) : Out := .next (receive (.stop h mode) (stop h mode) s)

/-- MOVE (R120). -/
def execMove (h : Hdr) (index destination : Nat) (s : State) : Out :=
  .next (receive (.move h index destination) (move h index destination) s)

/-- EXPORT (R120). -/
def execExportCart (h : Hdr) (index mailSlot : Nat) (s : State) : Out :=
  .next (receive (.exportCart h index mailSlot) (exportCart h index mailSlot) s)

/-- IMPORT (R107). -/
def execImportCart (h : Hdr) (mailSlot : Nat) (label : List Byte) (pool slot : Nat) (s : State) : Out :=
  .next (receive (.importCart h mailSlot label pool slot) (importCart h mailSlot label pool slot) s)

/-- SCAN (R120). -/
def execScan (h : Hdr) (s : State) : Out := .next (receive (.scan h) (scan h) s)

/-- LOADER_QUERY (R128). -/
def execLoaderQuery (h : Hdr) (s : State) : Out := .next (receive (.loaderQuery h) (loaderQuery h) s)

/-- LOADER_RESET (R129). -/
def execLoaderReset (h : Hdr) (s : State) : Out := .next (receive (.loaderReset h) (loaderResetRequest h) s)

/-- SERVE_TEST (R122). -/
def execServeTest (s : State) : Out := .next (commanded .serveTest s)

/-- TRAVEL_STEP (R113). -/
def execTravelStep (s : State) : Out := .next (outside travelStep s)

/-- HOMING_STEP (R116). -/
def execHomingStep (homeActive : Bool) (s : State) : Out := .next (outside (homingStep homeActive) s)

/-- ENCODER_COUNT (R114). -/
def execEncoderCount (s : State) : Out := .next (outside encoderCount s)

/-- PROBE_DONE (R117). -/
def execProbeDone (occupied : Bool) (s : State) : Out := .next (outside (probeDone occupied) s)

/-- GET_DONE (R117). -/
def execGetDone (s : State) : Out := .next (outside getDone s)

/-- PUT_DONE (R117). -/
def execPutDone (s : State) : Out := .next (outside putDone s)

/-- GRIP_TIMEOUT (R117). -/
def execGripTimeout (s : State) : Out := .next (outside gripTimeout s)

/-- HELD_SENSOR_CHANGE (R117). -/
def execHeldSensorChange (held : Bool) (s : State) : Out := .next (outside (heldSensorChange held) s)

/-- DOOR_SENSOR_CHANGE (R127). -/
def execDoorSensorChange (isOpen : Bool) (s : State) : Out := .next (outside (doorSensorChange isOpen) s)

/-- MAIL_SLOT_SENSOR_CHANGE (R127). -/
def execMailSlotSensorChange (m : Fin 2) (present : Bool) (s : State) : Out :=
  .next (outside (mailSlotSensorChange m present) s)

end Sys2Proof.Machine
end

