-- ==== Sys2Proof/Machine/Triggers.lean ====
section
/-! DEFINITION. Machine/Triggers.lean: the requests of the time and trigger unit and its steps, the tick of the time
base among them (11). -/

namespace Sys2Proof.Machine

/-! ## Requests (R173, R175, R176, R181) -/

/-- A mask operand that names at least one item (R173, R181). -/
def someMask (mask : Nat) : Option (BitVec 8) := if mask = 0 then none else maskOf mask

/-- The sets of a mask take an armed flag (R181). -/
def setArmed (mask : BitVec 8) (b : Bool) (s : State) : State :=
  forEach allEight (fun i s => if mask.getLsbD i = true then
    modTtu (fun u => { u with triggers := upd u.triggers i fun t => { t with armed := b } }) s else s) s

/-- The mask includes a set whose fault guard is set (R181). -/
def guardedIn (mask : BitVec 8) (s : State) : Bool :=
  allEight.any fun i => mask.getLsbD i && s.ttu.triggers[i].faultGuard

/-- TRIGGER_ARM (R181). -/
def triggerArm (h : Hdr) (mask : Nat) (s : State) : State :=
  match someMask mask with
  | none => refuse h 33 .badArgument s
  | some m =>
    if guardedIn m s = true ∧ anyFault s = true then refuse h 33 .faulted s
    else
      let s := setArmed m true s
      answer h 33 .ok (.armed (armedFlags s)) s

/-- TRIGGER_DISARM (R181). -/
def triggerDisarm (h : Hdr) (mask : Nat) (s : State) : State :=
  match someMask mask with
  | none => refuse h 34 .badArgument s
  | some m =>
    let s := setArmed m false s
    answer h 34 .ok (.armed (armedFlags s)) s

/-- TRIGGER_FIRE (R181): the wave is carried out whole, then the reply is formed. -/
def triggerFire (h : Hdr) (mask : Nat) (s : State) : State :=
  match someMask mask with
  | none => refuse h 35 .badArgument s
  | some m =>
    let w := wave (fireNow s) (armedOf m s) s
    answer h 35 .ok (.fired s.ttu.time w.1 (armedFlags w.2)) w.2

/-- The slots of a mask with what they hold (R173). Neither R173 nor R192 says in which order CAPTURE_READ's reply lists
them, and its items carry no slot number: the model lists them in increasing slot number (DESIGN CHOICE, log entry 44). -/
def maskedSlots (mask : BitVec 8) (s : State) : List (Fin 8 × CaptureSlot) :=
  (allEight.filter fun i : Fin 8 => mask.getLsbD i).map fun i => (i, s.ttu.captures[i])

/-- A capture slot is emptied: its contents stay as stale values (R173). -/
def emptySlotOf (i : Fin 8) (s : State) : State :=
  modTtu (fun t => { t with captures := upd t.captures i fun c => { c with full := false, lost := false } }) s

/-- CAPTURE_READ (R173). -/
def captureRead (h : Hdr) (mask : Nat) (clear : Bool) (s : State) : State :=
  match someMask mask with
  | none => refuse h 36 .badArgument s
  | some m =>
    let s' := answer h 36 .ok (.captured s.ttu.time (maskedSlots m s)) s
    if clear = true then forEach (allEight.filter fun i : Fin 8 => m.getLsbD i) emptySlotOf s' else s'

/-- LINES_SET (R176). -/
def linesSet (h : Hdr) (mask data : Nat) (s : State) : State :=
  match maskOf mask, maskOf data with
  | some m, some d =>
    let s := writeLines m d s
    answer h 37 .ok (.linesAt s.ttu.time s.ttu.lines) s
  | _, _ => refuse h 37 .badArgument s

/-- COMPARE_FORCE (R175). -/
def compareForce (h : Hdr) (slot : Nat) (s : State) : State :=
  match finOf 4 slot with
  | none => refuse h 38 .badArgument s
  | some c =>
    let s := compareLines c s
    answer h 38 .ok (.lines s.ttu.lines) s

/-! ## The compare test and the tick (R170, R175; log entry 4) -/

/-- The timers whose expiry can fall due at a tick (R50, R59, R77, R113, R116, R117; log entry 4): the compare test
first, then lane by lane, then the loader. -/
def expiries : List (State → State) :=
  compareMatch :: allLanes.flatMap (fun n => [commandTimeout n, sealAge n, windowExpiry n]) ++
    [travelStep, fun s => homingStep s.ldr.homeSensor s, gripTimeout]

/-- A timer's expiry is carried out, with all that falls due by it. -/
def expire (f : State → State) (s : State) : State := settle (choose (f s))

/-- The time base steps to its next value, and the compare slots that match there are marked (R170, R174). -/
def Ttu.advance (t : Ttu) : Ttu :=
  { t with time := t.time + 1, compareOwed := t.compares.map (CompareSlot.matchesAt (t.time + 1)) }

/-- The time base advances by one tick (R170); a lane in HOLD counts it (R83), and the compare test is owed (R175). -/
def advance (s : State) : State := forEach allLanes countStarve (modTtu Ttu.advance s)

/-- A tick: everything due at the present time, then the advance (R170, log entry 4). -/
def tick (s : State) : State := advance (forEach expiries expire s)

/-! ## Commands -/

/-- TRIGGER_ARM (R181). -/
def execTriggerArm (h : Hdr) (mask : Nat) (s : State) : Out := .next (receive (.triggerArm h mask) (triggerArm h mask) s)

/-- TRIGGER_DISARM (R181). -/
def execTriggerDisarm (h : Hdr) (mask : Nat) (s : State) : Out :=
  .next (receive (.triggerDisarm h mask) (triggerDisarm h mask) s)

/-- TRIGGER_FIRE (R181). -/
def execTriggerFire (h : Hdr) (mask : Nat) (s : State) : Out :=
  .next (receive (.triggerFire h mask) (triggerFire h mask) s)

/-- CAPTURE_READ (R173). -/
def execCaptureRead (h : Hdr) (mask : Nat) (clear : Bool) (s : State) : Out :=
  .next (receive (.captureRead h mask clear) (captureRead h mask clear) s)

/-- LINES_SET (R176). -/
def execLinesSet (h : Hdr) (mask data : Nat) (s : State) : Out :=
  .next (receive (.linesSet h mask data) (linesSet h mask data) s)

/-- COMPARE_FORCE (R175). -/
def execCompareForce (h : Hdr) (slot : Nat) (s : State) : Out :=
  .next (receive (.compareForce h slot) (compareForce h slot) s)

/-- TIME_BASE_TICK (R170). -/
def execTimeBaseTick (s : State) : Out := .next (outside tick s)

/-- COMPARE_MATCH (R175). -/
def execCompareMatch (s : State) : Out := .next (outside compareMatch s)

/-- TTU_EVENT (R171). -/
def execTtuEvent (e : Event) (s : State) : Out := .next (commanded (.event e) s)

end Sys2Proof.Machine
end

