-- ==== Sys2Proof/Machine/VerifySteps.lean ====
section
/-! DEFINITION. Machine/VerifySteps.lean: the verify requests (09) and the tests of the verify engine. -/

namespace Sys2Proof.Machine

/-- A verify context that is SUSPENDED has this cartridge (R144 check 3). -/
def suspendedOn (i : CartId) (s : State) : Bool :=
  allLanes.any fun n => decide (s.vfy.contexts[n].state = .suspended) && decide (s.vfy.contexts[n].cart = i)

/-- The last block of a VERIFY: a block number, or 4,294,967,295 for END (R144, R192). -/
def verifyLast (last : Nat) : Option (Option Nat) :=
  if last = max32 then some none else (blockOf last).map some

/-- A last block that is given is not below the first (R144). -/
def verifyRangeOk (first : Nat) : Option Nat → Bool
  | none => true
  | some l => decide (first ≤ l)

/-- A request joins the verify queue, and the start test falls due (R144, R146). -/
def joinVerify (r : VerifyRequest) (s : State) : State :=
  post .verifyStart (modVfy (fun v => { v with queue := v.queue ++ [r] }) s)

/-- VERIFY (R144). -/
def verify (h : Hdr) (index first last : Nat) (s : State) : State :=
  match finOf 64 index, blockOf first, verifyLast last with
  | some i, some f, some l =>
    if verifyRangeOk f l = false then refuse h 27 .badArgument s
    else
      match recordAt i s with
      | none => refuse h 27 .notFound s
      | some c =>
        if suspendedOn i s = true then refuse h 27 .badState s
        else if Config.mountRoom ≤ s.vfy.queue.length then refuse h 27 .noRoom s
        else
          let r : VerifyRequest :=
            { cart := i, label := c.label, first := f, last := l, origin := .server h.tag, mountAsked := false }
          answer h 27 .ok (.count (s.vfy.queue.length + 1)) (joinVerify r s)
  | _, _, _ => refuse h 27 .badArgument s

/-- VERIFY_SUSPEND (R155): the reply reports the context as it stands after the request. -/
def verifySuspend (h : Hdr) (s : State) : State :=
  match finOf 4 h.subject with
  | none => refuse h 28 .badArgument s
  | some n =>
    if s.vfy.contexts[n].state = .running then
      let s := serverSuspend n s
      answer h 28 .ok (.verify s.vfy.contexts[n]) s
    else answer h 28 .badState (.verify s.vfy.contexts[n]) s

/-- The refusal of VERIFY_RESUME (R155). -/
def resumeRefusal (n : LaneId) (s : State) : Status :=
  if s.vfy.contexts[n].state ≠ .suspended then .badState
  else if s.lanes[n].command.isSome = true then .busy
  else if s.lanes[n].state = .ready ∨ s.lanes[n].state = .hold then .busy
  else .badState

/-- VERIFY_RESUME (R155): the reply reports the context as it stands after the request. -/
def verifyResume (h : Hdr) (s : State) : State :=
  match finOf 4 h.subject with
  | none => refuse h 29 .badArgument s
  | some n =>
    if s.vfy.contexts[n].state = .suspended ∧ verifyGrants n s = true then
      let s := serverResume n s
      answer h 29 .ok (.verify s.vfy.contexts[n]) s
    else answer h 29 (resumeRefusal n s) (.verify s.vfy.contexts[n]) s

/-- The scope of a VERIFY_CANCEL: a lane, a cartridge, or all (R156). -/
inductive CancelScope where
  | lane (n : LaneId)
  | cart (i : CartId)
  | all
  deriving DecidableEq, Repr

/-- A scope operand: kind 0 a lane, 1 an index, 2 ALL (R192), with which the value is not read (log entry 18). -/
def cancelScopeOf (scope value : Nat) : Option CancelScope :=
  if scope = 0 then (finOf 4 value).map CancelScope.lane
  else if scope = 1 then (finOf 64 value).map CancelScope.cart
  else if scope = 2 then some .all
  else none

/-- A queued request lies within the scope (R156). -/
def CancelScope.request : CancelScope → VerifyRequest → Bool
  | .lane _, _ => false
  | .cart i, r => decide (r.cart = i)
  | .all, _ => true

/-- A pass on lane n lies within the scope (R156). -/
def CancelScope.pass (n : LaneId) : CancelScope → VerifyContext → Bool
  | .lane m, _ => decide (m = n)
  | .cart i, c => decide (c.cart = i)
  | .all, _ => true

/-- A pass is cancelled; a RUNNING one releases its lane (R157). -/
def cancelPass (n : LaneId) (s : State) : State :=
  if s.vfy.contexts[n].state = .running then releaseLane n (endPass n .cancelled s) else endPass n .cancelled s

/-- The lanes whose passes lie within the scope (R156), in the order in which they are ended (log entry 43). -/
def cancelledPasses (k : CancelScope) (s : State) : List LaneId :=
  allLanes.filter fun n => decide (s.vfy.contexts[n].state ≠ .idle) && k.pass n s.vfy.contexts[n]

/-- VERIFY_CANCEL (R156). Its reply stands before the notices of what it ends (R184). Of those, the queued requests'
VERIFY_DONE come first, in queue order, and then the passes', lane by lane (DESIGN CHOICE, log entry 43). -/
def verifyCancel (h : Hdr) (scope value : Nat) (s : State) : State :=
  match cancelScopeOf scope value with
  | none => refuse h 30 .badArgument s
  | some k =>
    let queued := s.vfy.queue.filter k.request
    let passes := cancelledPasses k s
    let s := answer h 30 .ok (.count (queued.length + passes.length)) s
    let s := modVfy (fun v => { v with queue := v.queue.filter fun r => !k.request r }) s
    let s := forEach queued (fun r => requestNotice r .cancelled) s
    post .verifyStart (forEach passes cancelPass s)

/-! ## Commands -/

/-- VERIFY (R144). -/
def execVerify (h : Hdr) (index first last : Nat) (s : State) : Out :=
  .next (receive (.verify h index first last) (verify h index first last) s)

/-- VERIFY_SUSPEND (R155). -/
def execVerifySuspend (h : Hdr) (s : State) : Out := .next (receive (.verifySuspend h) (verifySuspend h) s)

/-- VERIFY_RESUME (R155). -/
def execVerifyResume (h : Hdr) (s : State) : Out := .next (receive (.verifyResume h) (verifyResume h) s)

/-- VERIFY_CANCEL (R156). -/
def execVerifyCancel (h : Hdr) (scope value : Nat) (s : State) : Out :=
  .next (receive (.verifyCancel h scope value) (verifyCancel h scope value) s)

/-- VERIFY_START_TEST (R146). -/
def execVerifyStartTest (s : State) : Out := .next (commanded .verifyStart s)

/-- VERIFY_AUTO_RESUME (R154). -/
def execVerifyAutoResume (n : LaneId) (s : State) : Out := .next (commanded (.verifyResume n) s)

end Sys2Proof.Machine
end

