-- ==== Sys2Proof/Machine/WireIn.lean ====
section
/-! DEFINITION. Machine/WireIn.lean: frames as bytes on the receive side (R183, R192, R193): the frame tests, and the
command that a SEG or CTL frame spells. -/

namespace Sys2Proof.Machine

/-! ## Reading a payload field by field (R192) -/

/-- A reader of a payload: what it reads and the bytes left, or none where the payload is too short. -/
abbrev Reader (α : Type) : Type := List Byte → Option (α × List Byte)

/-- A field of `k` bytes as they stand. -/
def takeBytes (k : Nat) : Reader (List Byte) := fun bs => if bs.length < k then none else some (bs.take k, bs.drop k)

/-- A number of `k` bytes. -/
def takeNum (k : Nat) : Reader Nat := fun bs => (takeBytes k bs).map fun p => (ofBe p.1, p.2)

/-- Two readers, one after the other. -/
def thenRead {α β : Type} (a : Reader α) (f : α → Reader β) : Reader β := fun bs => (a bs).bind fun p => f p.1 p.2

/-- What was read, converted; none where the conversion refuses it. -/
def readAs {α β : Type} (a : Reader α) (f : α → Option β) : Reader β :=
  fun bs => (a bs).bind fun p => (f p.1).map fun b => (b, p.2)

/-- A flag: 0 or 1 (R192; any other value is malformed, log entry 18). -/
def takeFlag : Reader Bool := readAs (takeNum 1) fun n => if n = 0 then some false else if n = 1 then some true else none

/-- An optional field: a presence byte, then the field, read in either case (R192); the bytes of an absent one are not
tested (log entry 18). -/
def takeOption {α : Type} (a : Reader α) : Reader (Option α) :=
  thenRead takeFlag fun b => readAs a fun x => some (if b = true then some x else none)

/-- `k` items one after another. -/
def takeMany {α : Type} (a : Reader α) : Nat → Reader (List α)
  | 0 => fun bs => some ([], bs)
  | k + 1 => thenRead a fun x => readAs (takeMany a k) fun xs => some (x :: xs)

/-- A list: a count byte, then the items (R192). -/
def takeList {α : Type} (a : Reader α) : Reader (List α) := thenRead (takeNum 1) (takeMany a)

/-- A pair. -/
def takePair {α β : Type} (a : Reader α) (b : Reader β) : Reader (α × β) :=
  thenRead a fun x => readAs b fun y => some (x, y)

/-! ## The forms of the table writes (12, Section 12.2) -/

/-- A source or a factor: the kind and the qualifier (R172, R177; log entry 18). -/
def takeSource : Reader SourceArg := readAs (takePair (takeNum 1) (takeNum 1)) fun p => some { kind := p.1, qual := p.2 }

/-- A lane role: kind and pool (R58; log entry 18). -/
def takeRole : Reader RoleArg := readAs (takePair (takeNum 1) (takeNum 1)) fun p => some { kind := p.1, pool := p.2 }

/-- The widths of the two arguments of an action (R179): CAPTURE, LINES, STOP_DECEL, STOP_INSTANT, SUSPEND_VERIFY,
RESUME_VERIFY, NOTICE, COMPARE_ARM. R192 gives no kind for NOTICE's trigger code and COMPARE_ARM's delay: the model
reads 2 bytes and 4 bytes (DESIGN CHOICE, log entry 18). -/
def actionWidths (kind : Nat) : Option (Nat × Nat) :=
  [(1, 0), (1, 1), (0, 0), (0, 0), (1, 0), (1, 0), (2, 0), (1, 4)][kind]?

/-- An action of a trigger set; an unknown one is malformed (R177). -/
def takeAction : Reader ActionArg :=
  thenRead (takeNum 1) fun kind =>
    match actionWidths kind with
    | none => fun _ => none
    | some w => readAs (takePair (takeNum w.1) (takeNum w.2)) fun p => some { kind := kind, x := p.1, y := p.2 }

/-- A trigger set of a write (R177). -/
def takeTrigger : Reader TriggerArg :=
  readAs (takePair (takePair (takeNum 1) takeSource) (takePair (takeList takeAction)
      (takePair (takeNum 1) (takePair (takeNum 1) takeFlag)))) fun p =>
    some { number := p.1.1, factor := p.1.2, actions := p.2.1, chain := p.2.2.1, mode := p.2.2.2.1,
           faultGuard := p.2.2.2.2 }

/-- A compare slot of a write (R174). -/
def takeCompare : Reader CompareArg :=
  readAs (takePair (takePair (takeNum 1) takeFlag) (takePair (takeNum 4)
      (takePair (takeNum 1) (takePair (takeNum 1) (takeNum 1))))) fun p =>
    some { slot := p.1.1, enabled := p.1.2, value := p.2.1, lineMask := p.2.2.1, lineData := p.2.2.2.1,
           triggerMask := p.2.2.2.2 }

/-- A record body: the fields of Table 13 but needs locate (R95). -/
def takeRecord : Reader RecordArg :=
  readAs (takePair (takePair (takeBytes 8) (takePair (takeNum 1) (takeNum 1)))
      (takePair (takePair (takeNum 1) (takeNum 1)) (takePair (takePair (takeNum 4) (takeNum 4))
        (takePair (takeNum 1) (takeNum 4))))) fun p =>
    some { label := p.1.1, pool := p.1.2.1, state := p.1.2.2, location := p.2.1.1, home := p.2.1.2,
           endOfData := p.2.2.1.1, floor := p.2.2.1.2, worm := p.2.2.2.1, verifiedTo := p.2.2.2.2 }

/-- The six quotas (R39). -/
def takeQuotas : Reader QuotaArg :=
  readAs (takeMany (takeNum 2) 6) fun l =>
    some { ingest := l.getD 0 0, lane0 := l.getD 1 0, lane1 := l.getD 2 0, lane2 := l.getD 3 0, lane3 := l.getD 4 0,
           read := l.getD 5 0 }

/-- The four lane roles (R58). -/
def readRoles (h : Hdr) : Reader Instr :=
  readAs (takePair (takePair takeRole takeRole) (takePair takeRole takeRole)) fun p =>
    some (.tableWriteLaneRole h p.1.1 p.1.2 p.2.1 p.2.2)

/-- A directory write: index, body kind, body (R95, R192). -/
def readDirectoryWrite (h : Hdr) : Reader Instr :=
  thenRead (takePair (takeNum 1) (takeNum 1)) fun p =>
    if p.2 = 0 then readAs takeRecord fun r => some (.tableWriteDirectoryRecord h p.1 r)
    else if p.2 = 1 then fun bs => some (.tableWriteDirectoryRemove h p.1, bs)
    else fun _ => none

/-- The rest of a TABLE_WRITE, by its table name: the names in the order of Section 12.2 (R192). -/
def readTableWrite (h : Hdr) (table : Nat) : Reader Instr :=
  match table with
  | 1 => readAs (takeList (takeNum 2)) fun l => some (.tableWriteSpeed h l)
  | 2 => readAs (takeList (takeNum 2)) fun l => some (.tableWriteRamp h l)
  | 3 => readAs (takeList (takePair (takeNum 1) (takeOption (takeNum 2)))) fun l => some (.tableWritePositions h l)
  | 4 => readAs takeQuotas fun q => some (.tableWritePoolSplit h q)
  | 5 => readRoles h
  | 6 => readDirectoryWrite h
  | 7 => readAs (takeList takeTrigger) fun l => some (.tableWriteTriggers h l)
  | 8 => readAs (takeList (takePair (takeNum 1) takeSource)) fun l => some (.tableWriteCaptures h l)
  | 9 => readAs (takeList takeCompare) fun l => some (.tableWriteCompares h l)
  | 10 => readAs (takeList (takePair (takeNum 1) (takeNum 4))) fun l => some (.tableWriteSettings h l)
  | _ => fun _ => none

/-- No further arguments. -/
def readNone (c : Instr) : Reader Instr := fun bs => some (c, bs)

/-- The rest of a TABLE_READ, by its table name (R192). R192 does not say whether the count of the directory read is a
16-bit or a 32-bit count: the model reads 2 bytes (DESIGN CHOICE, log entry 18). -/
def readTableRead (h : Hdr) (table : Nat) : Reader Instr :=
  match table with
  | 1 => readNone (.tableReadSpeed h)
  | 2 => readNone (.tableReadRamp h)
  | 3 => readNone (.tableReadPositions h)
  | 4 => readNone (.tableReadPoolSplit h)
  | 5 => readNone (.tableReadLaneRole h)
  | 6 => readAs (takePair (takeNum 1) (takeNum 2)) fun p => some (.tableReadDirectory h p.1 p.2)
  | 7 => readNone (.tableReadTriggers h)
  | 8 => readNone (.tableReadCaptures h)
  | 9 => readNone (.tableReadCompares h)
  | 10 => readNone (.tableReadSettings h)
  | _ => fun _ => none

/-! ## Requests (12, Section 12.4) -/

/-- The arguments of a request, by its code: 1 to 40 in the order of Section 12.4 (R192). `sensor` is the home
sensor's reading, which HOME finds when it is taken (R116). R192 does not say whether CAT_READ's and CAT_RELEASE's counts
are 16-bit or 32-bit counts, nor whether CAT_READ's start is of the kind "position": the model reads 2 bytes for each
(DESIGN CHOICE, log entry 18). -/
def readRequest (h : Hdr) (sensor : Bool) (code : Nat) : Reader Instr :=
  match code with
  | 1 => readAs (takePair (takeNum 1) (takePair (takeNum 1) (takeNum 1))) fun p => some (.openStream h p.1 p.2.1 p.2.2)
  | 2 => readNone (.flushStream h)
  | 3 => readNone (.closeStream h)
  | 4 => readNone (.abortStream h)
  | 5 => readNone (.streamQuery h)
  | 6 => thenRead (takeNum 1) (readTableWrite h)
  | 7 => thenRead (takeNum 1) (readTableRead h)
  | 8 => readAs takeFlag fun b => some (if b = true then .laneQueryClear h else .laneQuery h)
  | 9 => readNone (.laneEject h)
  | 10 => readNone (.laneReset h)
  | 11 => readNone (.home h sensor)
  | 12 => readAs (takeNum 1) fun m => some (.stop h m)
  | 13 => readAs (takePair (takeNum 1) (takeNum 1)) fun p => some (.move h p.1 p.2)
  | 14 => readAs (takePair (takeNum 1) (takeNum 1)) fun p => some (.exportCart h p.1 p.2)
  | 15 => readAs (takePair (takePair (takeNum 1) (takeBytes 8)) (takePair (takeNum 1) (takeNum 1))) fun p =>
      some (.importCart h p.1.1 p.1.2 p.2.1 p.2.2)
  | 16 => readNone (.scan h)
  | 17 => readNone (.loaderQuery h)
  | 18 => readNone (.loaderReset h)
  | 19 => readAs (takePair (takeNum 1) (takeNum 4)) fun p => some (.protect h p.1 p.2)
  | 20 => readAs (takeNum 1) fun i => some (.setWorm h i)
  | 21 => readAs (takePair (takeNum 1) (takeNum 4)) fun p => some (.eraseFrom h p.1 p.2)
  | 22 => readAs (takeNum 1) fun i => some (.recycle h i)
  | 23 => readAs (takeNum 1) fun i => some (.forget h i)
  | 24 => readNone (.catQuery h)
  | 25 => readAs (takePair (takeNum 2) (takeNum 2)) fun p => some (.catRead h p.1 p.2)
  | 26 => readAs (takePair (takeNum 2) (takeOption (takeNum 4))) fun p => some (.catRelease h p.1 p.2)
  | 27 => readAs (takePair (takeNum 1) (takePair (takeNum 4) (takeNum 4))) fun p => some (.verify h p.1 p.2.1 p.2.2)
  | 28 => readNone (.verifySuspend h)
  | 29 => readNone (.verifyResume h)
  | 30 => readAs (takePair (takeNum 1) (takeNum 1)) fun p => some (.verifyCancel h p.1 p.2)
  | 31 => readAs (takePair (takePair (takeNum 4) (takeNum 4)) (takeOption (takePair (takeNum 1) (takeNum 4)))) fun p =>
      some (.restore h p.1.1 p.1.2 p.2)
  | 32 => readAs (takePair (takeNum 1) (takeNum 2)) fun p => some (.restoreCancel h p.1 p.2)
  | 33 => readAs (takeNum 1) fun m => some (.triggerArm h m)
  | 34 => readAs (takeNum 1) fun m => some (.triggerDisarm h m)
  | 35 => readAs (takeNum 1) fun m => some (.triggerFire h m)
  | 36 => readAs (takePair (takeNum 1) takeFlag) fun p => some (.captureRead h p.1 p.2)
  | 37 => readAs (takePair (takeNum 1) (takeNum 1)) fun p => some (.linesSet h p.1 p.2)
  | 38 => readAs (takeNum 1) fun c => some (.compareForce h c)
  | 39 => readAs takeFlag fun b => some (.status h b)
  | 40 => readNone (.partReset h)
  | _ => fun _ => none

/-- The request that a CTL payload spells; none where the code is unknown or the payload too short (R184). Bytes
beyond the arguments are not read (R192). -/
def requestOf (h : Hdr) (sensor : Bool) (payload : List Byte) : Option Instr :=
  (thenRead (takeNum 1) (readRequest h sensor) payload).map Prod.fst

/-- The segment that a SEG payload spells: a 6-byte offset and the data (R192). A payload without data is a segment
of no bytes, which R6 counts. -/
def segmentOf (h : Hdr) (payload : List Byte) : Instr := .segment h (ofBe (payload.take 6)) (payload.drop 6)

/-! ## Frames (R183, R192 Table 21) -/

/-- The frame tests of R183, named by the counter each raises. -/
inductive FrameFault where
  | check | length | cls | direction
  deriving DecidableEq, Repr

/-- The first frame test that fails (R183); the bytes of a payload are those between the length field and the last
four. -/
def frameFault (bytes : List Byte) : Option FrameFault :=
  let body := bytes.take (bytes.length - 4)
  let cls := ofBe (bytes.take 1)
  let len := ofBe ((bytes.drop 4).take 2)
  if bytes.length < 10 ∨ crc32 body ≠ BitVec.ofNat 32 (ofBe (bytes.drop (bytes.length - 4))) ∨ len + 10 ≠ bytes.length then
    some .check
  else if 4160 < len then some .length
  else if cls < 1 ∨ 5 < cls then some .cls
  else if cls ≠ 1 ∧ cls ≠ 2 then some .direction
  else none

/-- The tag and subject of a frame (R192 Table 21). -/
def frameHdr (bytes : List Byte) : Hdr := { tag := ofBe ((bytes.drop 1).take 2), subject := ofBe ((bytes.drop 3).take 1) }

/-- The payload of a frame that has passed the tests (R192 Table 21). -/
def framePayload (bytes : List Byte) : List Byte := (bytes.drop 6).take (bytes.length - 10)

/-- The frame is of class SEG (R192). -/
def isSegFrame (bytes : List Byte) : Bool := decide (ofBe (bytes.take 1) = 1)

end Sys2Proof.Machine
end

