-- ==== Sys2Proof/Machine/WireOut.lean ====
section
/-! DEFINITION. Machine/WireOut.lean: frames as bytes on the transmit side (R187, R192): replies, notices and restore
segments. Enumerated values are numbered from 0 in the order in which the rule lists them, which is the order of the
constructors. Where the spec does not give a layout, log entry 18 says the one taken. -/

namespace Sys2Proof.Machine

/-! ## Kinds of fields (R192) -/

def flagByte (b : Bool) : List Byte := be 1 (if b = true then 1 else 0)

def maskByte (m : BitVec 8) : List Byte := [m]

/-- A number of four bytes; a next wanted of 2^32 has no such form, and its bytes are open (log entry 12). -/
def be4 (n : Nat) : List Byte := be 4 (if n ≤ max32 then n else (Config.freeCount n).toNat)

/-- An optional field of `k` bytes: a presence byte, then the field, all zero when absent. -/
def optBytes {α : Type} (k : Nat) (enc : α → List Byte) : Option α → List Byte
  | none => be 1 0 ++ be k 0
  | some x => be 1 1 ++ enc x

/-- A list: a count byte, then the items. -/
def listBytes {α : Type} (enc : α → List Byte) (l : List α) : List Byte := be 1 l.length ++ l.flatMap enc

def locationByte (l : Location) : List Byte := be 1 l.code

def labelField (l : List Byte) : List Byte := (l ++ List.replicate 8 32#8).take 8

def optIndex (i : Option CartId) : List Byte := optBytes 1 (fun i : CartId => be 1 i) i

/-! ## Streams, lanes and the governor (R5, R58, R64, R88) -/

def spanBytes (sp : Span) : List Byte := be 1 sp.cart ++ be4 sp.first ++ be4 sp.last

/-- The fields of Table 6, the open chunk as its sequence and fill (R5). -/
def streamBytes (st : Stream) : List Byte :=
  be 1 st.state.ctorIdx ++ be 1 st.pool ++ be 1 st.lane ++ be 1 st.cls.ctorIdx ++ flagByte st.verifyOnClose ++
    be 6 st.nextOffset ++ be4 st.nextSeq ++ optBytes 6 (fun c : Chunk => be4 c.seq ++ be 2 c.bytes.length) st.openChunk ++
    be 2 st.staged ++ be4 st.uncommitted ++ flagByte st.paused ++ be 2 st.storedRun ++ be 2 st.skip ++
    listBytes spanBytes st.spans ++ flagByte st.spanOverflow ++ optBytes 4 be4 st.lastCommitted

/-- A lane role: kind 0 WRITE with its pool, 1 READ (R58). -/
def roleBytes : Role → List Byte
  | .write p => be 1 0 ++ be 1 p
  | .read => be 1 1 ++ be 1 0

/-- A command in flight: command, purpose (0 WRITE, 1 READ) and deadline (Table 8). For a command to which Table 10
gives no purpose the byte is 0, but 1 for READ (log entry 44). -/
def commandBytes (f : InFlight) : List Byte :=
  let deadline := be 4 (f.sentAt + BitVec.ofNat 32 f.limit).toNat
  match f.command with
  | .thread => be 1 0 ++ be 1 0 ++ deadline
  | .locate _ p => be 1 1 ++ be 1 p.ctorIdx ++ deadline
  | .write _ => be 1 2 ++ be 1 0 ++ deadline
  | .read _ => be 1 3 ++ be 1 1 ++ deadline
  | .step _ => be 1 4 ++ be 1 0 ++ deadline
  | .eject => be 1 5 ++ be 1 0 ++ deadline

/-- The fields of Table 8. -/
def laneBytes (l : Lane) (place : Bool) : List Byte :=
  be 1 l.state.ctorIdx ++ optBytes 1 (fun c : FaultCode => be 1 c.ctorIdx) l.faultCode ++ roleBytes l.role ++
    optIndex l.mounted ++ optBytes 6 commandBytes l.command ++ optBytes 4 be4 l.tapePosition ++
    optBytes 1 (be 1) l.driveStep ++ be 1 l.activity.ctorIdx ++ be 1 l.claim.ctorIdx ++ flagByte place ++
    optBytes 2 (be 2) l.allowance ++ flagByte l.ejectPending ++ flagByte l.fillWanted ++
    optBytes 1 (fun r : HoldReason => be 1 r.ctorIdx) l.holdReason

/-- The governor's figures in the order of R88, S before the step; R64 names the step first (log entry 44). R192 gives
no kind for the stable count, the window exponent w and the reposition count P: the model's choice is 2 bytes, 1 byte and
2 bytes (DESIGN CHOICE, log entry 44). -/
def governorBytes (g : Governor) (elapsedTicks : Option Nat) : List Byte :=
  be4 g.smoothed ++ be 1 g.step ++ be 2 g.stable ++
    optBytes 15 (fun w : Window => be4 (elapsedTicks.getD 0) ++ be 1 w.exponent ++ be4 g.inflow ++ be 2 g.repositions ++
      be4 g.delivered) g.window ++
    be4 g.meter.inflow ++ be4 g.meter.delivered ++ be 2 g.meter.repositions ++ be 1 g.meter.exponent ++
    be4 g.starve ++ be 2 g.repositionTotal

/-- LANE_QUERY's fields (R64, R53, R88); the widths of its counts are log entry 44. -/
def laneReportBytes (r : LaneReport) : List Byte :=
  laneBytes r.lane r.place ++
    optBytes 13 (fun c : Cart => labelField c.label ++ be4 c.endOfData ++ flagByte c.needsLocate) r.cart ++
    be 2 r.assemblyHeld ++ be 2 r.assemblyQuota ++
    optBytes 10 (fun b : Nat × Nat × Nat × Nat => be 2 b.1 ++ be 2 b.2.1 ++ be 2 b.2.2.1 ++ be4 b.2.2.2) r.openBlock ++
    be 2 r.sealedBlocks ++ governorBytes r.governor r.windowElapsed

/-! ## Directory, catalog (R98, R137, R138) -/

/-- The fields of Table 13. -/
def cartBytes (c : Cart) : List Byte :=
  labelField c.label ++ be 1 c.pool ++ be 1 c.state.ctorIdx ++ locationByte c.location ++
    locationByte (.slot c.home) ++ be4 c.endOfData ++ be4 c.floor ++ flagByte c.worm ++ be4 c.verifiedTo ++
    flagByte c.needsLocate

/-- A catalog entry of 96 bytes (R192 Table 23). -/
def entryBytes (e : CatEntry) : List Byte :=
  let run := fun r : CatRun => be 1 r.stream ++ be4 r.first ++ be4 r.last
  be 4 e.serial.toNat ++ be 1 e.cart ++ labelField e.label ++ be4 e.block ++ be 1 e.lane ++ be 4 e.commitTime.toNat ++
    be 1 e.status.ctorIdx ++ be 1 e.runs.length ++ (e.runs.flatMap run ++ List.replicate 72 0#8).take 72

def catalogBytes (r : CatalogReport) : List Byte :=
  be 2 r.count ++ be 2 r.freeRoom ++ r.places.toList.flatMap flagByte ++ flagByte r.high ++ flagByte r.fullReported ++
    optBytes 4 (fun w : Word32 => be 4 w.toNat) r.oldest ++ be 4 r.nextSerial.toNat ++ be 2 r.unverified ++
    be 2 r.verified ++ be 2 r.bad

/-! ## Loader (R119, R128) -/

def targetBytes : MountTarget → List Byte
  | .lane n => be 1 0 ++ be 1 n
  | .anyRead => be 1 1 ++ be 1 0
  | .slot k => be 1 2 ++ locationByte (.slot k)
  | .mail m => be 1 3 ++ locationByte (.mail m)
  | .none => be 1 4 ++ be 1 0

/-- A step of a plan: its kind, and the lane or the location it acts at (R128, log entry 44). -/
def stepBytes : PlanStep → List Byte
  | .laneEject n => be 1 0 ++ be 1 n
  | .travel l => be 1 1 ++ locationByte l
  | .probe l _ => be 1 2 ++ locationByte l
  | .get l => be 1 3 ++ locationByte l
  | .put l => be 1 4 ++ locationByte l
  | .laneThread n => be 1 5 ++ be 1 n

def requesterBytes (l : List (Requester × Nat)) : List Byte := listBytes (fun p : Requester × Nat => be 1 p.1.ctorIdx) l

/-- A mount request's fields (R119). -/
def mountBytes (m : MountRequest) : List Byte :=
  be 1 m.kind.ctorIdx ++ optIndex m.cart ++ targetBytes m.target ++ be 1 m.cls.ctorIdx ++ requesterBytes m.requesters ++
    be 2 m.tag ++ optBytes 1 (fun n : LaneId => be 1 n) m.fillLane ++ flagByte m.inService

/-- LOADER_QUERY's fields (R128); the held sensor and the door sensor as flags, held and open as set (log entry 44). The
plan is an optional field of variable length: absent, it is sent as 3 zero bytes after its presence byte, the bytes of a
plan without steps (DESIGN CHOICE, log entry 44). -/
def loaderBytes (r : LoaderReport) : List Byte :=
  let d := r.loader
  be 1 d.state.ctorIdx ++ optBytes 1 (fun c : LoaderFault => be 1 c.ctorIdx) d.faultCode ++ optBytes 2 (be 2) d.logical ++
    optBytes 2 (be 2) d.real ++ be 1 d.direction.ctorIdx ++ be 1 (d.ramp % 256).toNat ++ be 2 d.remaining ++
    flagByte d.heldSensor ++ optIndex r.held ++ optBytes 8 labelField r.heldLabel ++ flagByte d.doorOpen ++
    d.mailSensors.toList.flatMap flagByte ++ optBytes 1 (fun l : Fin 8 => be 1 l) d.doorHold ++
    optBytes 3 (fun p : Plan => be 1 p.kind.ctorIdx ++ listBytes stepBytes p.steps ++ be 1 p.current) d.plan ++
    listBytes mountBytes r.mounts

/-! ## Time and trigger unit (R172 to R177) -/

def kindQual (k : EventKind) (q : Option Nat) : List Byte := be 1 (eventKindCode k) ++ be 1 (q.getD 255)

def sourceBytes : Source → List Byte
  | .byAction => be 1 12 ++ be 1 255
  | .event k q => kindQual k q

def factorBytes : Factor → List Byte
  | .none => be 1 12 ++ be 1 255
  | .event k q => kindQual k q

def actionBytes : Action → List Byte
  | .capture c => be 1 0 ++ be 1 c
  | .lines m d => be 1 1 ++ maskByte m ++ maskByte d
  | .stop .decel => be 1 2
  | .stop .instant => be 1 3
  | .suspendVerify n => be 1 4 ++ be 1 n
  | .resumeVerify n => be 1 5 ++ be 1 n
  | .notice k => be 1 6 ++ be 2 k
  | .compareArm c d => be 1 7 ++ be 1 c ++ be4 d

/-- A set's definition, then its armed flag (R177). -/
def triggerBytes (t : TriggerSet) : List Byte :=
  factorBytes t.factor ++ listBytes actionBytes t.actions ++ maskByte t.chain ++ be 1 t.mode.ctorIdx ++
    flagByte t.faultGuard ++ flagByte t.armed

def compareBytes (c : CompareSlot) : List Byte :=
  flagByte c.enabled ++ be 4 c.value.toNat ++ maskByte c.lineMask ++ maskByte c.lineData ++ maskByte c.triggerMask

def captureKindByte : CaptureKind → List Byte
  | .event k => be 1 (eventKindCode k)
  | .fire => be 1 12

/-- A slot of a CAPTURE_READ reply (R172, R173); a kind of none is sent as an absent optional field (log entry 44). -/
def captureBytes (c : CaptureSlot) : List Byte :=
  sourceBytes c.source ++ flagByte c.full ++ flagByte c.lost ++ optBytes 1 captureKindByte c.kind ++ be 4 c.time.toNat ++
    optBytes 2 (be 2) c.position ++ optBytes 1 (be 1) c.qual

/-! ## Verify, regions, settings, status (R155, R40, R186, R189) -/

/-- A last block: END, and the -1 of an empty range, take 4,294,967,295 (R192; log entry 23). -/
def lastBytes : Option Int → List Byte
  | none => be 4 max32
  | some l => be 4 (l % 4294967296).toNat

def verifyBytes (c : VerifyContext) : List Byte :=
  be 1 c.state.ctorIdx ++ be 1 c.cart ++ be4 c.next ++ lastBytes (some c.last) ++ be4 c.checked ++ be4 c.badBlocks ++
    be4 c.records ++ be4 c.badRecords ++ optBytes 1 (fun x : SuspendCause => be 1 x.ctorIdx) c.cause

def regionBytes (r : Regions) : List Byte := be 2 r.ingest ++ r.assembly.toList.flatMap (be 2) ++ be 2 r.read

def settingsBytes (t : Settings) : List Byte :=
  be4 t.streamChunks ++ be4 t.sealAge ++ be4 t.laneTimeout ++ be4 t.govWindow ++ be4 t.reposLimit ++ be4 t.resumeMark ++
    be4 t.devLimit ++ be4 t.gripTimeout ++ be4 t.heldRampCap ++ be4 t.doorLine

def statusBytes (r : StatusReport) : List Byte :=
  r.identity ++ be 4 r.time.toNat ++ flagByte r.overflow ++ be 2 r.notices ++
    (be4 r.counters.check ++ be4 r.counters.length ++ be4 r.counters.cls ++ be4 r.counters.direction ++
      be4 r.counters.seg) ++
    r.lanes.toList.flatMap (fun l : LaneState × Option FaultCode =>
      be 1 l.1.ctorIdx ++ optBytes 1 (fun c : FaultCode => be 1 c.ctorIdx) l.2) ++
    be 1 r.loader.1.ctorIdx ++ optBytes 1 (fun c : LoaderFault => be 1 c.ctorIdx) r.loader.2 ++
    r.streams.toList.flatMap (be 2) ++ be 2 r.entries ++ be 2 r.mounts ++ be 2 r.verifies ++ be 2 r.restores ++
    flagByte r.restoreActive

/-- The fields of a reply (R184, R192). Which table replies carry a count byte, and armed flags and line levels sent as
one mask byte, are log entry 44. A count is sent in 2 bytes: the entries left by CAT_RELEASE, the requests waiting after
VERIFY and RESTORE, and the number ended by VERIFY_CANCEL and RESTORE_CANCEL, whose width R192 does not give (DESIGN
CHOICE, log entry 44). -/
def bodyBytes : ReplyBody → List Byte
  | .none => []
  | .stream st => streamBytes st
  | .rates l => listBytes (be 2) l
  | .positions p => listBytes (optBytes 2 (be 2)) p.toList
  | .poolSplit q h f => regionBytes q ++ regionBytes h ++ be 2 f
  | .roles r => r.toList.flatMap roleBytes
  | .directory _ l => listBytes (optBytes 26 cartBytes) l
  | .triggers t => t.toList.flatMap triggerBytes
  | .captures l => l.flatMap fun c => sourceBytes c.1 ++ flagByte c.2.1 ++ flagByte c.2.2
  | .compares c => c.toList.flatMap compareBytes
  | .settings t => settingsBytes t
  | .taken l => listBytes (fun p : Nat × Nat => be 1 p.1 ++ be4 p.2) l
  | .lane r => laneReportBytes r
  | .number n => be4 n
  | .index i => be 1 i
  | .count n => be 2 n
  | .loader r => loaderBytes r
  | .catalog r => catalogBytes r
  | .entries n es => be 2 n ++ be 1 es.length ++ es.flatMap entryBytes
  | .verify c => verifyBytes c
  | .armed m => maskByte m
  | .fired t acted m => be 4 t.toNat ++ listBytes (fun i : Fin 8 => be 1 i) acted ++ maskByte m
  | .captured t l => be 4 t.toNat ++ listBytes (fun p : Fin 8 × CaptureSlot => captureBytes p.2) l
  | .linesAt t m => be 4 t.toNat ++ maskByte m
  | .lines m => maskByte m
  | .status r => statusBytes r

/-! ## Notices (R188, R192) -/

/-- The notice codes, 1 to 19 (R192): the constructors stand in the order of the table of R188. -/
def noticeCode (b : NoticeBody) : Nat := b.ctorIdx + 1

/-- The subject of a notice: the lane or stream concerned, or 0 (R192). A plan's notices concern a request and have 0,
also where the plan mounts to a lane; TRIGGER has 0 whatever its event names, and VERIFY_DONE its lane or 0, whatever its
origin (log entry 44). -/
def noticeSubject : NoticeBody → Nat
  | .segRefused i _ _ => i
  | .streamResume i _ => i
  | .streamFlushed i _ => i
  | .streamClosed i _ _ _ _ _ _ => i
  | .cartridgeFull n _ _ _ => n
  | .noScratch n _ => n
  | .laneFault n _ _ => n
  | .catalogFull n _ => n
  | .verifyDone n _ _ _ _ _ _ _ _ _ _ _ _ => (n.map Fin.val).getD 0
  | .restoreDone _ i _ _ _ _ _ _ _ => i
  | _ => 0

/-- A pass's origin: its kind, and the tag, or the stream and a zero byte (R152, log entry 44). -/
def originBytes : VerifyOrigin → List Byte
  | .server t => be 1 0 ++ be 2 t
  | .close i => be 1 1 ++ be 1 i ++ be 1 0

/-- Result, reason and plan reason of a verify pass: PASSED, FAILED, ABANDONED (R152). -/
def verifyResultBytes : VerifyResult → List Byte
  | .passed => be 1 0 ++ be 2 0 ++ be 2 0
  | .failed => be 1 1 ++ be 2 0 ++ be 2 0
  | .cancelled => be 1 2 ++ be 1 1 ++ be 1 0 ++ be 2 0
  | .unloaded => be 1 2 ++ be 1 1 ++ be 1 1 ++ be 2 0
  | .laneFault => be 1 2 ++ be 1 1 ++ be 1 2 ++ be 2 0
  | .laneReset => be 1 2 ++ be 1 1 ++ be 1 3 ++ be 2 0
  | .mountFailed r => be 1 2 ++ be 1 1 ++ be 1 4 ++ be 1 1 ++ be 1 r.ctorIdx
  | .noCartridge => be 1 2 ++ be 1 1 ++ be 1 5 ++ be 2 0

/-- Result, reason and plan reason of a restore: COMPLETE, PARTIAL, NOT_FOUND, ABANDONED (R167). -/
def restoreResultBytes : RestoreResult → List Byte
  | .complete => be 1 0 ++ be 2 0 ++ be 2 0
  | .partly => be 1 1 ++ be 2 0 ++ be 2 0
  | .notFound => be 1 2 ++ be 2 0 ++ be 2 0
  | .cancelled => be 1 3 ++ be 1 1 ++ be 1 0 ++ be 2 0
  | .laneFault => be 1 3 ++ be 1 1 ++ be 1 1 ++ be 2 0
  | .mountFailed r => be 1 3 ++ be 1 1 ++ be 1 2 ++ be 1 1 ++ be 1 r.ctorIdx

/-- What MOUNT_FAILED and MOVE_FAILED carry (R125). -/
def failureBytes (kind : MountKind) (cart : Option CartId) (tag : Nat) (rs : List (Requester × Nat)) (reason : PlanReason)
    (step : Nat) (held : Option CartId) : List Byte :=
  be 1 kind.ctorIdx ++ optIndex cart ++ be 2 tag ++ requesterBytes rs ++ be 1 reason.ctorIdx ++ be 1 step ++ optIndex held

/-- The fields of a notice (R188 and the rules of its table). A lane or stream that the frame's subject already carries
stands among the fields as well, where the notice's rule names it (DESIGN CHOICE, log entry 44). LOADER_FAULT without a
plan: log entry 44. -/
def noticeFields : NoticeBody → List Byte
  | .resetDone c => be 1 c.ctorIdx
  | .segRefused i r x => be 1 i ++ be 1 r.ctorIdx ++ be 6 x
  | .streamResume i x => be 1 i ++ be 6 x
  | .streamFlushed i x => be 1 i ++ be 6 x
  | .streamClosed i x last spans o a k =>
    be 1 i ++ be 6 x ++ optBytes 4 be4 last ++ listBytes spanBytes spans ++ flagByte o ++ flagByte a ++ be 2 k
  | .cartridgeFull n i l e => be 1 n ++ be 1 i ++ labelField l ++ be4 e
  | .noScratch n p => be 1 n ++ be 1 p
  | .laneFault n c i => be 1 n ++ be 1 c.ctorIdx ++ optIndex i
  | .homeDone => []
  | .loaderFault c k st held =>
    be 1 c.ctorIdx ++ optBytes 1 (fun k : MountKind => be 1 k.ctorIdx) k ++ optBytes 1 (be 1) st ++ optIndex held
  | .planDone k i t tag rs => be 1 k.ctorIdx ++ optIndex i ++ targetBytes t ++ be 2 tag ++ requesterBytes rs
  | .mountFailed k i tag rs r st held => failureBytes k i tag rs r st held
  | .moveFailed k i tag rs r st held => failureBytes k i tag rs r st held
  | .scanDone missing unknown skipped =>
    listBytes (fun i : CartId => be 1 i) missing ++ listBytes locationByte unknown ++ listBytes locationByte skipped
  | .catalogHigh n oldest next => be 2 n ++ be 4 oldest.toNat ++ be 4 next.toNat
  | .catalogFull n k => be 1 n ++ be 2 k
  | .verifyDone n i l o first last res c b r br fb next =>
    optBytes 1 (fun n : LaneId => be 1 n) n ++ be 1 i ++ labelField l ++ originBytes o ++ be4 first ++ lastBytes last ++
      verifyResultBytes res ++ be4 c ++ be4 b ++ be4 r ++ be4 br ++ optBytes 4 be4 fb ++ be4 next
  | .restoreDone tag i first last res g d nf next =>
    be 2 tag ++ be 1 i ++ be4 first ++ be4 last ++ restoreResultBytes res ++ be4 g ++ be4 d ++ be4 nf ++ be4 next
  | .trigger i code k q t =>
    be 1 i ++ be 2 code ++ captureKindByte k ++ optBytes 1 (be 1) q ++ be 4 t.toNat

/-! ## Frames (R192 Tables 21 and 22) -/

/-- A frame with its check (R191, R192). -/
def frameBytes (cls tag subject : Nat) (payload : List Byte) : List Byte :=
  let body := be 1 cls ++ be 2 tag ++ be 1 subject ++ be 2 payload.length ++ payload
  body ++ be 4 (crc32 body).toNat

/-- The payload of a restore segment (R192 Table 22). No bytes follow the header of a DAMAGED one, and neither Table 22
nor R165 gives its raw length: the model sends 0, the number of bytes that follow (DESIGN CHOICE, log entry 44). -/
def segmentPayload (g : Segment) : List Byte :=
  be4 g.seq ++ be 1 (if g.cause = .none then 0 else 1) ++ be 1 g.cause.ctorIdx ++ be 2 g.bytes.length ++ g.bytes

/-- The bytes of a frame of the transmit side (R187, R192). -/
def txBytes : TxFrame → List Byte
  | .reply r => frameBytes 3 r.tag r.subject (be 1 r.code ++ be 1 r.status.ctorIdx ++ bodyBytes r.body)
  | .segment g => frameBytes 4 g.tag g.stream (segmentPayload g)
  | .notice n =>
    frameBytes 5 0 (noticeSubject n.body) (be 1 (noticeCode n.body) ++ be 4 n.placed.toNat ++ noticeFields n.body)

/-- The frame that the server link carries now (R187, R193). -/
def linkOutput (s : State) : Option (List Byte) := s.link.sending.map txBytes

end Sys2Proof.Machine
end

