-- ==== Sys2Proof/Machine/Link.lean ====
section
/-! DEFINITION. Machine/Link.lean: the part's own requests, frames that are discarded or unknown, the end of a frame
sent, and the resets of the device (12). -/

namespace Sys2Proof.Machine

/-! ## STATUS and PART_RESET (R189, R190) -/

/-- The streams in a state. -/
def streamsIn (x : StreamState) (s : State) : Nat := (allStreams.filter fun i => decide (s.streams[i].state = x)).length

/-- What STATUS reports (R189). -/
def statusFigures (s : State) : StatusReport :=
  { identity := Config.identity, time := s.ttu.time, overflow := s.link.overflow, notices := s.link.notices.length,
    counters := s.link.counters, lanes := s.lanes.map fun l => (l.state, l.faultCode),
    loader := (s.ldr.state, s.ldr.faultCode),
    streams := #v[streamsIn .closed s, streamsIn .opened s, streamsIn .flushing s, streamsIn .closing s,
      streamsIn .aborted s],
    entries := s.cat.entries.length, mounts := s.mounts.length, verifies := s.vfy.queue.length,
    restores := s.rse.queue.length, restoreActive := s.rse.active.isSome }

/-- STATUS (R189). -/
def statusRequest (h : Hdr) (clear : Bool) (s : State) : State :=
  modLink (fun l => { l with overflow := false, counters := if clear = true then Counters.zero else l.counters })
    (answer h 39 .ok (.status (statusFigures s)) s)

/-- PART_RESET (R190): the reply is formed, and no further frame is taken until it has been sent. -/
def partResetRequest (h : Hdr) (s : State) : State :=
  modLink (fun l => { l with resetReply := true }) (answer h 40 .ok .none s)

/-! ## What a frame does when it is taken (R184) -/

/-- A CTL frame whose code is unknown or whose payload is too short (R184); a payload without a code gives the reply a
code that the spec leaves open (log entry 18). -/
def unknownReply (h : Hdr) (payload : List Byte) (s : State) : State :=
  match payload with
  | c :: _ => refuse h c.toNat .badArgument s
  | [] =>
    let d := drawCount s
    refuse h (d.1 % 256) .badArgument d.2

/-- What a frame does when it is taken; the commands that are no frames do nothing here. -/
def frameEffect (c : Instr) (s : State) : State :=
  match c with
  | .segment h o d => segment h o d s
  | .openStream h p k v => openStream h p k v s
  | .flushStream h => flushStream h s
  | .closeStream h => closeStream h s
  | .abortStream h => abortStream h s
  | .streamQuery h => streamQuery h s
  | .tableWriteSpeed h l => writeSpeed h l s
  | .tableWriteRamp h l => writeRamp h l s
  | .tableWritePositions h l => writePositions h l s
  | .tableWritePoolSplit h q => writePoolSplit h q s
  | .tableWriteLaneRole h a b c d => writeLaneRole h a b c d s
  | .tableWriteDirectoryRecord h i r => writeRecord h i r s
  | .tableWriteDirectoryRemove h i => removeRecord h i s
  | .tableWriteTriggers h l => writeTriggers h l s
  | .tableWriteCaptures h l => writeCaptures h l s
  | .tableWriteCompares h l => writeCompares h l s
  | .tableWriteSettings h l => writeSettings h l s
  | .tableReadSpeed h => readSpeed h s
  | .tableReadRamp h => readRamp h s
  | .tableReadPositions h => readPositions h s
  | .tableReadPoolSplit h => readPoolSplit h s
  | .tableReadLaneRole h => readLaneRole h s
  | .tableReadDirectory h f k => readDirectory h f k s
  | .tableReadTriggers h => readTriggers h s
  | .tableReadCaptures h => readCaptures h s
  | .tableReadCompares h => readCompares h s
  | .tableReadSettings h => readSettings h s
  | .laneQuery h => laneQuery h s
  | .laneQueryClear h => laneQueryClear h s
  | .laneEject h => laneEject h s
  | .laneReset h => laneResetRequest h s
  | .home h b => home h b s
  | .stop h m => stop h m s
  | .move h i d => move h i d s
  | .exportCart h i m => exportCart h i m s
  | .importCart h m l p k => importCart h m l p k s
  | .scan h => scan h s
  | .loaderQuery h => loaderQuery h s
  | .loaderReset h => loaderResetRequest h s
  | .protect h i f => protect h i f s
  | .setWorm h i => setWorm h i s
  | .eraseFrom h i b => eraseFrom h i b s
  | .recycle h i => recycle h i s
  | .forget h i => forget h i s
  | .catQuery h => catQuery h s
  | .catRead h a k => catRead h a k s
  | .catRelease h k e => catRelease h k e s
  | .verify h i f l => verify h i f l s
  | .verifySuspend h => verifySuspend h s
  | .verifyResume h => verifyResume h s
  | .verifyCancel h k v => verifyCancel h k v s
  | .restore h f l st => restore h f l st s
  | .restoreCancel h k t => restoreCancel h k t s
  | .triggerArm h m => triggerArm h m s
  | .triggerDisarm h m => triggerDisarm h m s
  | .triggerFire h m => triggerFire h m s
  | .captureRead h m b => captureRead h m b s
  | .linesSet h m d => linesSet h m d s
  | .compareForce h c => compareForce h c s
  | .status h b => statusRequest h b s
  | .partReset h => partResetRequest h s
  | _ => s

/-- A CTL frame's payload: the request it spells, or BAD_ARGUMENT (R184; log entry 32). -/
def takeRequest (h : Hdr) (payload : List Byte) (s : State) : State :=
  match requestOf h s.ldr.homeSensor payload with
  | some c => frameEffect c s
  | none => unknownReply h payload s

/-- A counter rises and saturates (R183). -/
def bump (n : Nat) : Nat := satAdd max32 n 1

/-- The counter of a failed frame test (R183). -/
def countFault (f : FrameFault) (c : Counters) : Counters :=
  match f with
  | .check => { c with check := bump c.check }
  | .length => { c with length := bump c.length }
  | .cls => { c with cls := bump c.cls }
  | .direction => { c with direction := bump c.direction }

/-- Bytes between a start and an end symbol: tested, counted and discarded, or taken as the frame they spell (R183,
R184; log entry 32). -/
def takeFrameBytes (bytes : List Byte) (s : State) : State :=
  match frameFault bytes with
  | some f => modLink (fun l => { l with counters := countFault f l.counters }) s
  | none =>
    if isSegFrame bytes = true then frameEffect (segmentOf (frameHdr bytes) (framePayload bytes)) s
    else takeRequest (frameHdr bytes) (framePayload bytes) s

/-- What a frame held at the server does when it is taken (R184). -/
def heldEffect (c : Instr) (s : State) : State :=
  match c with
  | .frameDiscarded bytes => takeFrameBytes bytes s
  | .unknownRequest h payload => takeRequest h payload s
  | c => frameEffect c s

/-! ## The frames held at the server (R184, R190, R193) -/

/-- Held frames are taken one at a time while a credit is out. -/
def takeHeld : List Instr → State → State
  | [], s => s
  | c :: rest, s =>
    if s.link.credit = true then takeHeld rest (takeFrame (heldEffect c) s)
    else modLink (fun l => { l with waiting := c :: rest }) s

/-- Reception resumes: the held frames are taken in the order of their arrival. -/
def resumeReception (s : State) : State := takeHeld s.link.waiting (modLink (fun l => { l with waiting := [] }) s)

/-! ## The end of a frame, and the resets (R187, R190) -/

/-- The end of a frame sent (R187): after a PART_RESET reply the device resets (R190); after any other reply the
withheld credit is sent (R184). -/
def frameSent (s : State) : State :=
  match s.link.sending with
  | none => choose s
  | some f =>
    let s := modLink (fun l => { l with sending := none }) s
    match f with
    | .reply _ => if s.link.resetReply = true ∧ s.link.replies = [] then State.afterReset .partReset s
        else renewCredit (choose s)
    | _ => choose s

/-- A reset of the device: the block rules' values, then the frames held at the server (R190). -/
def resetDevice (cause : ResetCause) (s : State) : State := resumeReception (State.afterReset cause s)

/-! ## Blocks on their way to tape (R66, R194) -/

/-- The bytes that a lane's drive receives with the WRITE in flight: the head of the sealed queue, with the mounted
cartridge's label and the block number of the send (R66 step 4, R194). -/
def driveBlock (n : LaneId) (s : State) : Option (List Byte) :=
  match inFlight n s, mountedRecord n s, s.asm[n].sealedQueue with
  | some (.write b), some (_, c), head :: _ => some (blockImage c.label b n head)
  | _, _, _ => none

/-! ## Commands -/

/-- STATUS (R189). -/
def execStatus (h : Hdr) (clear : Bool) (s : State) : Out := .next (receive (.status h clear) (statusRequest h clear) s)

/-- PART_RESET (R190). -/
def execPartReset (h : Hdr) (s : State) : Out := .next (receive (.partReset h) (partResetRequest h) s)

/-- UNKNOWN_REQUEST (R184). -/
def execUnknownRequest (h : Hdr) (payload : List Byte) (s : State) : Out :=
  .next (receive (.unknownRequest h payload) (takeRequest h payload) s)

/-- FRAME_DISCARDED (R183). -/
def execFrameDiscarded (bytes : List Byte) (s : State) : Out :=
  .next (receive (.frameDiscarded bytes) (takeFrameBytes bytes) s)

/-- FRAME_SENT (R187). -/
def execFrameSent (s : State) : Out := .next (resumeReception (frameSent (settle s)))

/-- POWER_ON (R190). -/
def execPowerOn (s : State) : Out := .next (resetDevice .powerOn s)

/-- RESET_INPUT (R190). -/
def execResetInput (s : State) : Out := .next (resetDevice .resetInput s)

end Sys2Proof.Machine
end

