-- ==== Sys2Proof/Machine/Dispatch.lean ====
section
/-! DEFINITION. Machine/Dispatch.lean: one arm per command, each one call of its meaning. -/

namespace Sys2Proof.Machine

def exec (i : Instr) (s : State) : Host.Outcome State Fault Refusal :=
  match i with
  | .powerOn => Sys2Proof.Machine.execPowerOn s
  | .resetInput => Sys2Proof.Machine.execResetInput s
  | .frameDiscarded bytes => Sys2Proof.Machine.execFrameDiscarded bytes s
  | .unknownRequest h payload => Sys2Proof.Machine.execUnknownRequest h payload s
  | .segment h offset data => Sys2Proof.Machine.execSegment h offset data s
  | .frameSent => Sys2Proof.Machine.execFrameSent s
  | .openStream h pool cls verify => Sys2Proof.Machine.execOpenStream h pool cls verify s
  | .flushStream h => Sys2Proof.Machine.execFlushStream h s
  | .closeStream h => Sys2Proof.Machine.execCloseStream h s
  | .abortStream h => Sys2Proof.Machine.execAbortStream h s
  | .streamQuery h => Sys2Proof.Machine.execStreamQuery h s
  | .tableWriteSpeed h rates => Sys2Proof.Machine.execTableWriteSpeed h rates s
  | .tableWriteRamp h intervals => Sys2Proof.Machine.execTableWriteRamp h intervals s
  | .tableWritePositions h pairs => Sys2Proof.Machine.execTableWritePositions h pairs s
  | .tableWritePoolSplit h quotas => Sys2Proof.Machine.execTableWritePoolSplit h quotas s
  | .tableWriteLaneRole h r0 r1 r2 r3 => Sys2Proof.Machine.execTableWriteLaneRole h r0 r1 r2 r3 s
  | .tableWriteDirectoryRecord h index body => Sys2Proof.Machine.execTableWriteDirectoryRecord h index body s
  | .tableWriteDirectoryRemove h index => Sys2Proof.Machine.execTableWriteDirectoryRemove h index s
  | .tableWriteTriggers h sets => Sys2Proof.Machine.execTableWriteTriggers h sets s
  | .tableWriteCaptures h pairs => Sys2Proof.Machine.execTableWriteCaptures h pairs s
  | .tableWriteCompares h slots => Sys2Proof.Machine.execTableWriteCompares h slots s
  | .tableWriteSettings h pairs => Sys2Proof.Machine.execTableWriteSettings h pairs s
  | .tableReadSpeed h => Sys2Proof.Machine.execTableReadSpeed h s
  | .tableReadRamp h => Sys2Proof.Machine.execTableReadRamp h s
  | .tableReadPositions h => Sys2Proof.Machine.execTableReadPositions h s
  | .tableReadPoolSplit h => Sys2Proof.Machine.execTableReadPoolSplit h s
  | .tableReadLaneRole h => Sys2Proof.Machine.execTableReadLaneRole h s
  | .tableReadDirectory h first count => Sys2Proof.Machine.execTableReadDirectory h first count s
  | .tableReadTriggers h => Sys2Proof.Machine.execTableReadTriggers h s
  | .tableReadCaptures h => Sys2Proof.Machine.execTableReadCaptures h s
  | .tableReadCompares h => Sys2Proof.Machine.execTableReadCompares h s
  | .tableReadSettings h => Sys2Proof.Machine.execTableReadSettings h s
  | .laneQuery h => Sys2Proof.Machine.execLaneQuery h s
  | .laneQueryClear h => Sys2Proof.Machine.execLaneQueryClear h s
  | .laneEject h => Sys2Proof.Machine.execLaneEject h s
  | .laneReset h => Sys2Proof.Machine.execLaneReset h s
  | .home h homeActive => Sys2Proof.Machine.execHome h homeActive s
  | .stop h mode => Sys2Proof.Machine.execStop h mode s
  | .move h index destination => Sys2Proof.Machine.execMove h index destination s
  | .exportCart h index mailSlot => Sys2Proof.Machine.execExportCart h index mailSlot s
  | .importCart h mailSlot label pool slot => Sys2Proof.Machine.execImportCart h mailSlot label pool slot s
  | .scan h => Sys2Proof.Machine.execScan h s
  | .loaderQuery h => Sys2Proof.Machine.execLoaderQuery h s
  | .loaderReset h => Sys2Proof.Machine.execLoaderReset h s
  | .protect h index floor => Sys2Proof.Machine.execProtect h index floor s
  | .setWorm h index => Sys2Proof.Machine.execSetWorm h index s
  | .eraseFrom h index block => Sys2Proof.Machine.execEraseFrom h index block s
  | .recycle h index => Sys2Proof.Machine.execRecycle h index s
  | .forget h index => Sys2Proof.Machine.execForget h index s
  | .catQuery h => Sys2Proof.Machine.execCatQuery h s
  | .catRead h start count => Sys2Proof.Machine.execCatRead h start count s
  | .catRelease h count expected => Sys2Proof.Machine.execCatRelease h count expected s
  | .verify h index first last => Sys2Proof.Machine.execVerify h index first last s
  | .verifySuspend h => Sys2Proof.Machine.execVerifySuspend h s
  | .verifyResume h => Sys2Proof.Machine.execVerifyResume h s
  | .verifyCancel h scope value => Sys2Proof.Machine.execVerifyCancel h scope value s
  | .restore h first last start => Sys2Proof.Machine.execRestore h first last start s
  | .restoreCancel h scope tag => Sys2Proof.Machine.execRestoreCancel h scope tag s
  | .triggerArm h mask => Sys2Proof.Machine.execTriggerArm h mask s
  | .triggerDisarm h mask => Sys2Proof.Machine.execTriggerDisarm h mask s
  | .triggerFire h mask => Sys2Proof.Machine.execTriggerFire h mask s
  | .captureRead h mask clear => Sys2Proof.Machine.execCaptureRead h mask clear s
  | .linesSet h mask data => Sys2Proof.Machine.execLinesSet h mask data s
  | .compareForce h slot => Sys2Proof.Machine.execCompareForce h slot s
  | .status h clear => Sys2Proof.Machine.execStatus h clear s
  | .partReset h => Sys2Proof.Machine.execPartReset h s
  | .drivePresent lane cartridge => Sys2Proof.Machine.execDrivePresent lane cartridge s
  | .driveAbsent lane => Sys2Proof.Machine.execDriveAbsent lane s
  | .reposition lane => Sys2Proof.Machine.execReposition lane s
  | .threadDone lane => Sys2Proof.Machine.execThreadDone lane s
  | .threadFail lane reason => Sys2Proof.Machine.execThreadFail lane reason s
  | .locateDone lane => Sys2Proof.Machine.execLocateDone lane s
  | .locateFail lane reason => Sys2Proof.Machine.execLocateFail lane reason s
  | .writeDone lane earlyWarning => Sys2Proof.Machine.execWriteDone lane earlyWarning s
  | .writeMediaEnd lane => Sys2Proof.Machine.execWriteMediaEnd lane s
  | .writeFail lane reason => Sys2Proof.Machine.execWriteFail lane reason s
  | .readDone lane block => Sys2Proof.Machine.execReadDone lane block s
  | .readFail lane reason => Sys2Proof.Machine.execReadFail lane reason s
  | .stepDone lane => Sys2Proof.Machine.execStepDone lane s
  | .stepFail lane reason => Sys2Proof.Machine.execStepFail lane reason s
  | .ejectDone lane => Sys2Proof.Machine.execEjectDone lane s
  | .ejectFail lane reason => Sys2Proof.Machine.execEjectFail lane reason s
  | .commandTimeout lane => Sys2Proof.Machine.execCommandTimeout lane s
  | .writeStartTest lane => Sys2Proof.Machine.execWriteStartTest lane s
  | .holdResume lane => Sys2Proof.Machine.execHoldResume lane s
  | .catalogHoldResume lane => Sys2Proof.Machine.execCatalogHoldResume lane s
  | .compressorTake => Sys2Proof.Machine.execCompressorTake s
  | .compressionComplete => Sys2Proof.Machine.execCompressionComplete s
  | .sealAgeExpiry lane => Sys2Proof.Machine.execSealAgeExpiry lane s
  | .expanderTake => Sys2Proof.Machine.execExpanderTake s
  | .expansionComplete => Sys2Proof.Machine.execExpansionComplete s
  | .windowEnd lane => Sys2Proof.Machine.execWindowEnd lane s
  | .timeBaseTick => Sys2Proof.Machine.execTimeBaseTick s
  | .compareMatch => Sys2Proof.Machine.execCompareMatch s
  | .ttuEvent e => Sys2Proof.Machine.execTtuEvent e s
  | .readGrant => Sys2Proof.Machine.execReadGrant s
  | .streamResume stream => Sys2Proof.Machine.execStreamResume stream s
  | .streamFlushed stream => Sys2Proof.Machine.execStreamFlushed stream s
  | .closeComplete stream => Sys2Proof.Machine.execCloseComplete stream s
  | .abortComplete stream => Sys2Proof.Machine.execAbortComplete stream s
  | .scratchPick lane => Sys2Proof.Machine.execScratchPick lane s
  | .serveTest => Sys2Proof.Machine.execServeTest s
  | .travelStep => Sys2Proof.Machine.execTravelStep s
  | .homingStep homeActive => Sys2Proof.Machine.execHomingStep homeActive s
  | .encoderCount => Sys2Proof.Machine.execEncoderCount s
  | .probeDone occupied => Sys2Proof.Machine.execProbeDone occupied s
  | .getDone => Sys2Proof.Machine.execGetDone s
  | .putDone => Sys2Proof.Machine.execPutDone s
  | .gripTimeout => Sys2Proof.Machine.execGripTimeout s
  | .heldSensorChange held => Sys2Proof.Machine.execHeldSensorChange held s
  | .doorSensorChange isOpen => Sys2Proof.Machine.execDoorSensorChange isOpen s
  | .mailSlotSensorChange slot present => Sys2Proof.Machine.execMailSlotSensorChange slot present s
  | .verifyStartTest => Sys2Proof.Machine.execVerifyStartTest s
  | .verifyAutoResume lane => Sys2Proof.Machine.execVerifyAutoResume lane s
  | .restoreActivate => Sys2Proof.Machine.execRestoreActivate s

end Sys2Proof.Machine
end

