-- ==== Sys2Proof/Safety.lean ====
section
/-! DEFINITION. Safety.lean: the terms in which statements speak of the whole part: the bounds of its queues and
tables, and the link rules that hold after every step. -/

namespace Sys2Proof.Machine

/-- A setting lies in its range (R186). -/
def inRange (n : SettingName) (v : Nat) : Bool := decide (n.range.1 ≤ v) && decide (v ≤ n.range.2)

/-- Every setting lies in its range (R186). -/
def Settings.ok (t : Settings) : Bool :=
  inRange .streamChunks t.streamChunks && inRange .sealAge t.sealAge && inRange .laneTimeout t.laneTimeout &&
    inRange .govWindow t.govWindow && inRange .reposLimit t.reposLimit && inRange .resumeMark t.resumeMark &&
    inRange .devLimit t.devLimit && inRange .gripTimeout t.gripTimeout && inRange .heldRampCap t.heldRampCap &&
    inRange .doorLine t.doorLine

/-- A reply is being sent. -/
def replyInTransit (l : Link) : Prop := ∃ r, l.sending = some (.reply r)

/-- The link as its rules leave it (R184, R187, R188, R190, R193): the lists keep within their room; a credit is out
only while a further frame can be taken, and then no frame is held back; the transmit side is free only when it has
nothing to send; and a withheld credit waits for a reply that is still to be sent. -/
structure Link.Ok (l : Link) : Prop where
  notices : l.notices.length ≤ Config.noticeRoom
  replies : l.replies.length ≤ Config.replyRoom
  credit : l.credit = true → l.replies.length < Config.replyRoom ∧ l.resetReply = false ∧ l.waiting = []
  free : l.sending = none → l.replies = [] ∧ (l.resetReply = false → l.notices = [])
  resumes : l.credit = false → l.replies ≠ [] ∨ replyInTransit l

/-- Every open chunk holds 1 to 4,095 bytes: one whose fill reaches 4,096 is staged at that instant (R1, R8). -/
def chunksOk (s : State) : Prop :=
  ∀ (i : StreamId) (c : Chunk), s.streams[i].openChunk = some c → 1 ≤ c.bytes.length ∧ c.bytes.length < Config.pageBytes

/-! ## Pages and the compressor (R12, R18 to R21, R38, R39) -/

/-- The quotas keep their minima and sum to at most 2,048 pages (R39). -/
def Regions.quotasOk (q : Regions) : Prop :=
  32 ≤ q.ingest ∧ (∀ n : LaneId, 16 ≤ q.assembly[n]) ∧ 32 ≤ q.read ∧
    q.ingest + q.assembly.toList.sum + q.read ≤ Config.poolPages

/-- No region holds more pages than its quota (R38). -/
def Pool.withinQuotas (p : Pool) : Prop :=
  p.held.ingest ≤ p.quotas.ingest ∧ (∀ n : LaneId, p.held.assembly[n] ≤ p.quotas.assembly[n]) ∧
    p.held.read ≤ p.quotas.read

/-- The entries in the ready list and in compression (R18, R19). -/
def Compressor.entries (c : Compressor) : List Entry := c.ready ++ (c.engine.map Taken.entry).toList

/-- A chunk's raw length is at most 4,096, and every stream's staged count is the count of its entries in the ready list
and in compression, which is 0 for a stream that is CLOSED (R1, R12, R18). -/
def entriesOk (s : State) : Prop :=
  (∀ e ∈ s.cmp.entries, ∀ b, e.raw = some b → b.length ≤ Config.pageBytes) ∧
  (∀ i : StreamId, s.streams[i].staged = s.cmp.entries.countP fun e => decide (e.stream = i)) ∧
  ∀ i : StreamId, s.streams[i].state = .closed → s.streams[i].staged = 0

/-- What the compressor has reserved for a record of a stream is there: the open block of the stream's lane can take the
largest record of the stream, or the lane's assembly region has 16 pages of room (R20, R21). -/
def roomStands (r : Reservation) (i : StreamId) (s : State) : Prop :=
  match r with
  | .openRoom => openRoom i s.streams[i].lane s = true
  | .newRoom => newRoom s.streams[i].lane s = true

/-- The reservation stands until its record is placed (R21). -/
def reservationOk (s : State) : Prop := ∀ t, s.cmp.engine = some t → roomStands t.reservation t.entry.stream s

/-! ## Lanes, catalog, directory, governors (R66, R81, R82, R83, R90, R92, R132, R134) -/

/-- A command of the writing lane: WRITE, or STEP before it (R66, R81). -/
def DriveCommand.ofWriting : DriveCommand → Bool
  | .write _ | .step _ => true
  | _ => false

/-- WRITE (R66). -/
def DriveCommand.isWrite : DriveCommand → Bool
  | .write _ => true
  | _ => false

/-- WRITE and STEP are in flight in WRITING only, WRITE with a catalog place held, and a hold reason stands in HOLD only
(R66, R81, R83, R133). -/
def Lane.ok (l : Lane) (place : Bool) : Prop :=
  (l.command.any (fun f => f.command.ofWriting) = true → l.state = .writing) ∧
  (l.command.any (fun f => f.command.isWrite) = true → place = true) ∧
  (l.holdReason.isSome = true → l.state = .hold)

/-- Every lane's drive command, catalog place and hold reason go together (R66, R81, R83, R133). -/
def lanesOk (s : State) : Prop := ∀ n : LaneId, s.lanes[n].ok s.cat.places[n]

/-- The entries and the places held are at most 4,096 together, so that the free room is never negative (R132, R134). -/
def Catalog.ok (c : Catalog) : Prop := c.entries.length + (c.places.toList.filter id).length ≤ Config.catalogEntries

/-- A cartridge's floor and verified to lie within its end of data, and that within its range (R90). -/
def Cart.ok (c : Cart) : Prop := c.floor ≤ c.endOfData ∧ c.verifiedTo ≤ c.endOfData ∧ c.endOfData ≤ max32

/-- A record's location and the location map agree: a place names a record exactly when that record's location is that
place (R92). -/
def Directory.agrees (d : Directory) : Prop :=
  ∀ (p : Fin 55) (i : CartId), d.map[p] = some i ↔ ∃ c, d.records[i] = some c ∧ c.location.place = some p

/-- Every record keeps its ranges (R90). -/
def Directory.cartsOk (d : Directory) : Prop := ∀ (i : CartId) (c : Cart), d.records[i] = some c → c.ok

/-- Every governor's step is a step of the speed table (R82). -/
def stepsOk (s : State) : Prop := ∀ n : LaneId, s.gov[n].step < s.tables.speed.length

/-- The invariant of the part: the link (R184, R187, R188, R190, R193), the rooms of the queues (R119, R143, R158), the
settings and the speed and ramp tables (R186, R82, R112), the fill of the open chunks (R1), the pages within their
quotas (R38, R39), the staged entries and the reservation (R12, R18, R21), the drive commands of a writing lane and
their catalog places (R66, R81, R83, R133), the catalog's room (R132, R134), the directory's records and map (R90,
R92), and the governors' steps (R82). -/
structure Inv (s : State) : Prop where
  link : s.link.Ok
  mounts : s.mounts.length ≤ Config.mountRoom
  verifies : s.vfy.queue.length ≤ Config.mountRoom
  restores : s.rse.queue.length ≤ Config.restoreRoom
  settings : s.settings.ok = true
  speed : speedOk s.tables.speed = true
  ramp : rampOk s.tables.ramp = true
  chunks : chunksOk s
  quotas : s.pool.quotas.quotasOk
  pages : s.pool.withinQuotas
  entries : entriesOk s
  reservation : reservationOk s
  lanes : lanesOk s
  catalog : s.cat.ok
  map : s.cdr.agrees
  carts : s.cdr.cartsOk
  steps : stepsOk s

/-- The frames of the server link: SEG and CTL frames, and received bytes as such (R183, R184). -/
def isFrame : Instr → Bool
  | .frameDiscarded _ | .unknownRequest _ _ | .segment _ _ _ => true
  | .openStream _ _ _ _ | .flushStream _ | .closeStream _ | .abortStream _ | .streamQuery _ => true
  | .tableWriteSpeed _ _ | .tableWriteRamp _ _ | .tableWritePositions _ _ | .tableWritePoolSplit _ _ => true
  | .tableWriteLaneRole _ _ _ _ _ | .tableWriteDirectoryRecord _ _ _ | .tableWriteDirectoryRemove _ _ => true
  | .tableWriteTriggers _ _ | .tableWriteCaptures _ _ | .tableWriteCompares _ _ | .tableWriteSettings _ _ => true
  | .tableReadSpeed _ | .tableReadRamp _ | .tableReadPositions _ | .tableReadPoolSplit _ | .tableReadLaneRole _ => true
  | .tableReadDirectory _ _ _ | .tableReadTriggers _ | .tableReadCaptures _ | .tableReadCompares _ => true
  | .tableReadSettings _ | .laneQuery _ | .laneQueryClear _ | .laneEject _ | .laneReset _ => true
  | .home _ _ | .stop _ _ | .move _ _ _ | .exportCart _ _ _ | .importCart _ _ _ _ _ | .scan _ => true
  | .loaderQuery _ | .loaderReset _ | .protect _ _ _ | .setWorm _ _ | .eraseFrom _ _ _ | .recycle _ _ => true
  | .forget _ _ | .catQuery _ | .catRead _ _ _ | .catRelease _ _ _ | .verify _ _ _ _ | .verifySuspend _ => true
  | .verifyResume _ | .verifyCancel _ _ _ | .restore _ _ _ _ | .restoreCancel _ _ _ | .triggerArm _ _ => true
  | .triggerDisarm _ _ | .triggerFire _ _ | .captureRead _ _ _ | .linesSet _ _ _ | .compareForce _ _ => true
  | .status _ _ | .partReset _ => true
  | _ => false

end Sys2Proof.Machine
end

