-- ==== Sys2Proof/WellFormed.lean ====
section
/-! DEFINITION. WellFormed.lean: the commands whose operands fit the fields that carry them (R192): every number below
the range of its field, every list as long as its count byte can say. The ranges of the rules are tested by the rules
themselves, so that a frame with a value out of range is well formed and is refused. -/

namespace Sys2Proof

/-- A number fits a field of `k` bytes. -/
def fits (k n : Nat) : Bool := decide (n < 256 ^ k)

/-- A tag of two bytes and a subject of one (R192 Table 21). -/
def Hdr.ok (h : Hdr) : Bool := fits 2 h.tag && fits 1 h.subject

/-- A list's count fits one byte (R192). -/
def listOk {α : Type} (p : α → Bool) (l : List α) : Bool := fits 1 l.length && l.all p

def SourceArg.ok (a : SourceArg) : Bool := fits 1 a.kind && fits 1 a.qual

def RoleArg.ok (a : RoleArg) : Bool := fits 1 a.kind && fits 1 a.pool

def QuotaArg.ok (q : QuotaArg) : Bool :=
  fits 2 q.ingest && fits 2 q.lane0 && fits 2 q.lane1 && fits 2 q.lane2 && fits 2 q.lane3 && fits 2 q.read

def RecordArg.ok (r : RecordArg) : Bool :=
  decide (r.label.length = 8) && fits 1 r.pool && fits 1 r.state && fits 1 r.location && fits 1 r.home &&
    fits 4 r.endOfData && fits 4 r.floor && fits 1 r.worm && fits 4 r.verifiedTo

/-- An action whose kind the table of R179 lists, with arguments that fit theirs. -/
def ActionArg.ok (a : ActionArg) : Bool :=
  match [(1, 0), (1, 1), (0, 0), (0, 0), (1, 0), (1, 0), (2, 0), (1, 4)][a.kind]? with
  | none => false
  | some (x, y) => fits x a.x && fits y a.y

def TriggerArg.ok (t : TriggerArg) : Bool :=
  fits 1 t.number && t.factor.ok && listOk ActionArg.ok t.actions && fits 1 t.chain && fits 1 t.mode

def CompareArg.ok (c : CompareArg) : Bool :=
  fits 1 c.slot && fits 4 c.value && fits 1 c.lineMask && fits 1 c.lineData && fits 1 c.triggerMask

/-- An optional operand that fits when it is there. -/
def optOk {α : Type} (p : α → Bool) : Option α → Bool
  | none => true
  | some a => p a

/-- An event carries a qualifier exactly when its kind has one, within its range (R171). -/
def Event.ok (e : Event) : Bool :=
  match e.kind with
  | .laneEw | .laneHold | .laneFull | .laneFault | .verifyMismatch | .compare => e.qual.elim false fun q => decide (q < 4)
  | .segRefused => e.qual.elim false fun q => decide (q < 32)
  | _ => e.qual.isNone

/-- The command fits the frame, the report or the event that carries it. -/
def Instr.wellFormed : Instr → Bool
  | .frameDiscarded bytes => decide (bytes.length ≤ 65545)
  | .unknownRequest h payload => h.ok && decide (payload.length ≤ 4160)
  | .segment h offset data => h.ok && fits 6 offset && decide (data.length ≤ 4154)
  | .openStream h p k v => h.ok && fits 1 p && fits 1 k && fits 1 v
  | .flushStream h | .closeStream h | .abortStream h | .streamQuery h => h.ok
  | .tableWriteSpeed h l | .tableWriteRamp h l => h.ok && listOk (fits 2) l
  | .tableWritePositions h l => h.ok && listOk (fun p => fits 1 p.1 && optOk (fits 2) p.2) l
  | .tableWritePoolSplit h q => h.ok && q.ok
  | .tableWriteLaneRole h a b c d => h.ok && a.ok && b.ok && c.ok && d.ok
  | .tableWriteDirectoryRecord h i r => h.ok && fits 1 i && r.ok
  | .tableWriteDirectoryRemove h i => h.ok && fits 1 i
  | .tableWriteTriggers h l => h.ok && listOk TriggerArg.ok l
  | .tableWriteCaptures h l => h.ok && listOk (fun p => fits 1 p.1 && p.2.ok) l
  | .tableWriteCompares h l => h.ok && listOk CompareArg.ok l
  | .tableWriteSettings h l => h.ok && listOk (fun p => fits 1 p.1 && fits 4 p.2) l
  | .tableReadSpeed h | .tableReadRamp h | .tableReadPositions h | .tableReadPoolSplit h | .tableReadLaneRole h => h.ok
  | .tableReadDirectory h i k => h.ok && fits 1 i && fits 2 k
  | .tableReadTriggers h | .tableReadCaptures h | .tableReadCompares h | .tableReadSettings h => h.ok
  | .laneQuery h | .laneQueryClear h | .laneEject h | .laneReset h => h.ok
  | .home h _ | .scan h | .loaderQuery h | .loaderReset h => h.ok
  | .stop h m => h.ok && fits 1 m
  | .move h i d | .exportCart h i d => h.ok && fits 1 i && fits 1 d
  | .importCart h m l p k => h.ok && fits 1 m && decide (l.length = 8) && fits 1 p && fits 1 k
  | .protect h i b | .eraseFrom h i b => h.ok && fits 1 i && fits 4 b
  | .setWorm h i | .recycle h i | .forget h i => h.ok && fits 1 i
  | .catQuery h => h.ok
  | .catRead h a k => h.ok && fits 2 a && fits 2 k
  | .catRelease h k e => h.ok && fits 2 k && optOk (fits 4) e
  | .verify h i f l => h.ok && fits 1 i && fits 4 f && fits 4 l
  | .verifySuspend h | .verifyResume h => h.ok
  | .verifyCancel h k v => h.ok && fits 1 k && fits 1 v
  | .restore h f l st => h.ok && fits 4 f && fits 4 l && optOk (fun p => fits 1 p.1 && fits 4 p.2) st
  | .restoreCancel h k t => h.ok && fits 1 k && fits 2 t
  | .triggerArm h m | .triggerDisarm h m | .triggerFire h m | .captureRead h m _ => h.ok && fits 1 m
  | .linesSet h m d => h.ok && fits 1 m && fits 1 d
  | .compareForce h c => h.ok && fits 1 c
  | .status h _ | .partReset h => h.ok
  | .readDone _ block => decide (block.length = 65536)
  | .ttuEvent e => e.ok
  | .powerOn | .resetInput | .frameSent | .drivePresent _ _ | .driveAbsent _ | .reposition _ | .threadDone _ => true
  | .threadFail _ _ | .locateDone _ | .locateFail _ _ | .writeDone _ _ | .writeMediaEnd _ | .writeFail _ _ => true
  | .readFail _ _ | .stepDone _ | .stepFail _ _ | .ejectDone _ | .ejectFail _ _ | .commandTimeout _ => true
  | .writeStartTest _ | .holdResume _ | .catalogHoldResume _ | .compressorTake | .compressionComplete => true
  | .sealAgeExpiry _ | .expanderTake | .expansionComplete | .windowEnd _ | .timeBaseTick | .compareMatch => true
  | .readGrant | .streamResume _ | .streamFlushed _ | .closeComplete _ | .abortComplete _ | .scratchPick _ => true
  | .serveTest | .travelStep | .homingStep _ | .encoderCount | .probeDone _ | .getDone | .putDone | .gripTimeout => true
  | .heldSensorChange _ | .doorSensorChange _ | .mailSlotSensorChange _ _ => true
  | .verifyStartTest | .verifyAutoResume _ | .restoreActivate => true

end Sys2Proof
end

