-- ==== Sys2Proof/Certificates/Slice0/Obligations.lean ====
section
/-! DEFINITION. Certificates/Slice0/Obligations.lean: the statements for the provers. A frame's statement says what the
frame does to the state `settle s`, in which the tests that had fallen due have been carried out (log entry 2). -/

open Sys2Proof Sys2Proof.Machine

/-! ## The queue of commands, frames and credits -/

/-- A step takes the command at the front of the queue and carries it out with the queue's rest; with an empty queue
the part idles (log entry 1). -/
def Obligations.StepRunsFrontCommand : Prop :=
  ∀ (c : Instr) (rest : List Instr) (s : State),
    step { s with pending := c :: rest } = exec c { s with pending := rest } ∧
    step { s with pending := [] } = .next { s with pending := [] }

/-- Every command answers a next state, and leaves the queue of the commands that wait as it was. -/
def Obligations.EveryCommandCompletes : Prop :=
  ∀ (c : Instr) (s : State), ∃ t, exec c s = .next t ∧ t.pending = s.pending

/-- A frame that finds a receive credit out is taken: the owed tests, the frame's own effect, the arbiter's choice, a
new credit. One that finds none waits at the server behind those already there, and nothing else changes (R184, R193;
log entries 2 and 6). Frames held at the server are taken one by one, in the order of their arrival, while a credit is
out; what is left goes on waiting (R184, R190, R193). A credit goes out exactly when the reply list holds fewer than 8
replies and no PART_RESET reply waits; nothing else changes (R193). -/
def Obligations.FramesTakenByCredit : Prop :=
  (∀ (c : Instr) (s : State), isFrame c = true →
     (s.link.credit = true → exec c s = .next (renewCredit (choose (heldEffect c (settle s))))) ∧
     (s.link.credit = false →
       exec c s = .next { s with link := { s.link with waiting := s.link.waiting ++ [c] } })) ∧
  (∀ (c : Instr) (rest : List Instr) (s : State),
     takeHeld [] s = s ∧
     (s.link.credit = true → takeHeld (c :: rest) s = takeHeld rest (renewCredit (choose (heldEffect c (settle s))))) ∧
     (s.link.credit = false → takeHeld (c :: rest) s = { s with link := { s.link with waiting := c :: rest } }) ∧
     resumeReception s = takeHeld s.link.waiting { s with link := { s.link with waiting := [] } }) ∧
  (∀ (s : State), ∃ b, renewCredit s = { s with link := { s.link with credit := b } } ∧
     (b = true ↔ s.link.replies.length < 8 ∧ s.link.resetReply = false))

/-- The owed tests are carried out oldest first, each followed by the arbiter's choice, until none is left or the
limit of rounds is reached (log entry 2, the model's own device for the tests the table lists as steps). The transmit
side sends one frame at a time; when it is free the arbiter chooses the oldest reply, or else the oldest notice, or
else the restore segment waiting in SENDING, which is thereby taken; while a PART_RESET reply waits it chooses replies
only (R187, R190). -/
def Obligations.OwedTestsAndArbiter : Prop :=
  (∀ (k : Nat) (d : Due) (s : State),
     settleRounds 0 s = s ∧
     (s.due = [] → settleRounds k s = s) ∧
     (s.due.head? = some d →
       settleRounds (k + 1) s = settleRounds k (choose (runDue d { s with due := s.due.tail })))) ∧
  (∀ (s : State),
     (∀ f, s.link.sending = some f → choose s = s) ∧
     (s.link.sending = none →
       (∀ r rest, s.link.replies = r :: rest →
         choose s = { s with link := { s.link with replies := rest, sending := some (.reply r) } }) ∧
       (s.link.replies = [] → s.link.resetReply = true → choose s = s) ∧
       (∀ n rest, s.link.replies = [] → s.link.resetReply = false → s.link.notices = n :: rest →
         choose s = { s with link := { s.link with notices := rest, sending := some (.notice n) } }) ∧
       (s.link.replies = [] → s.link.resetReply = false → s.link.notices = [] →
         (∀ c g, s.rse.active = some c → c.segment = some g →
           choose s = segmentTaken g { s with link := { s.link with sending := some (.segment g) } }) ∧
         ((∀ c, s.rse.active = some c → c.segment = none) → choose s = s))))

/-- A reply carries the request's tag and subject, its code, a status and its fields, and joins the tail of the reply
list; a refusal is such a reply without fields, and changes nothing else (R184, R185). A notice offered while the
queue holds 64 is dropped and sets the overflow flag; one offered while it holds fewer joins the tail with the time
base of its placing. Nothing else changes (R188, R192). -/
def Obligations.RepliesAndNotices : Prop :=
  (∀ (h : Hdr) (code : Nat) (st : Status) (body : ReplyBody) (s : State),
     answer h code st body s = { s with link := { s.link with replies := s.link.replies ++
       [{ tag := h.tag, subject := h.subject, code := code, status := st, body := body }] } } ∧
     refuse h code st s = { s with link := { s.link with replies := s.link.replies ++
       [{ tag := h.tag, subject := h.subject, code := code, status := st, body := .none }] } }) ∧
  (∀ (b : NoticeBody) (s : State),
     (64 ≤ s.link.notices.length → offerNotice b s = { s with link := { s.link with overflow := true } }) ∧
     (s.link.notices.length < 64 →
       offerNotice b s = { s with link := { s.link with notices := s.link.notices ++ [{ body := b, placed := s.ttu.time }] } }))

/-! ## The frame check, the frame tests, and frames that spell no request -/

/-- The four tests of a received frame, in order, for a frame of class byte `c`, tag, subject, length field, payload
and check: the check and the count of payload bytes, the length limit, the known classes, the classes the server may
send (R183, R192 Table 21). -/
def Obligations.FrameTestsInOrder : Prop :=
  ∀ (c tag subject len : Nat) (payload : List Byte) (check : Word32), c < 256 → len < 65536 →
    let body := be 1 c ++ be 2 tag ++ be 1 subject ++ be 2 len ++ payload
    frameFault (body ++ be 4 check.toNat) =
      if check ≠ crc32 body ∨ len ≠ payload.length then some .check
      else if 4160 < len then some .length
      else if c = 0 ∨ 5 < c then some .cls
      else if 2 < c then some .direction
      else none

/-- A frame that fails a test raises that test's counter, saturating at 4,294,967,295, and changes nothing else; it is
answered by nothing (R183). One that passes is taken as the segment or the request it spells (R183, R184; log entry
32). A CTL payload that spells a request does what that request's own command does (R184, log entry 32). A CTL frame
whose request code is unknown or whose payload is too short for its arguments is refused with
BAD_ARGUMENT, whatever the state; a code outside 1 to 40 is unknown (R184, R192). One without a payload is refused in
the same way; it has no request code to repeat, and the code of its reply is a free value (log entry 18). -/
def Obligations.BadFramesAndRequests : Prop :=
  (∀ (bytes : List Byte) (s : State), s.link.credit = true →
     exec (.frameDiscarded bytes) s = .next (renewCredit (choose ((fun u : State =>
       let k := u.link.counters
       let up := fun n => min 4294967295 (n + 1)
       match frameFault bytes with
       | some .check => { u with link := { u.link with counters := { k with check := up k.check } } }
       | some .length => { u with link := { u.link with counters := { k with length := up k.length } } }
       | some .cls => { u with link := { u.link with counters := { k with cls := up k.cls } } }
       | some .direction => { u with link := { u.link with counters := { k with direction := up k.direction } } }
       | none =>
         if bytes.head? = some 1 then heldEffect (segmentOf (frameHdr bytes) (framePayload bytes)) u
         else heldEffect (.unknownRequest (frameHdr bytes) (framePayload bytes)) u) (settle s))))) ∧
  (∀ (h : Hdr) (payload : List Byte) (c : Instr) (s : State), s.link.credit = true →
     requestOf h (settle s).ldr.homeSensor payload = some c → exec (.unknownRequest h payload) s = exec c s) ∧
  (∀ (h : Hdr) (code : Byte) (rest : List Byte) (s : State), s.link.credit = true →
     ((∀ sensor, requestOf h sensor (code :: rest) = none) →
       exec (.unknownRequest h (code :: rest)) s =
         .next (renewCredit (choose (refuse h code.toNat .badArgument (settle s))))) ∧
     (code.toNat = 0 ∨ 40 < code.toNat → ∀ sensor, requestOf h sensor (code :: rest) = none)) ∧
  (∀ (h : Hdr) (s : State), s.link.credit = true → ∃ code, exec (.unknownRequest h []) s =
     .next (renewCredit (choose (refuse h code .badArgument
       { settle s with freeCount := (settle s).freeCount + 1 }))))

/-- The end of a frame sent. With nothing on the wire the event has no meaning (log entry 21). After a PART_RESET
reply, once no earlier reply is left, the part resets with cause PART_RESET; after any other reply the arbiter chooses
and a withheld credit goes out; after a notice or a segment the arbiter chooses. Then the frames held at the server
are taken (R184, R187, R190, R193). -/
def Obligations.FrameSentFreesTheSide : Prop :=
  ∀ (s : State), exec .frameSent s = .next (resumeReception (
    let u := settle s
    let v : State := { u with link := { u.link with sending := none } }
    match u.link.sending with
    | none => choose u
    | some (.reply _) =>
      if u.link.resetReply = true ∧ u.link.replies = [] then State.afterReset .partReset v else renewCredit (choose v)
    | some (.notice _) => choose v
    | some (.segment _) => choose v))

/-! ## The bytes of the server link -/

/-- The bytes of every request. A CTL payload of the request's code and its arguments, in the order and widths below,
spells the request, whatever follows; one cut short within the arguments, and one without a code, spells none (R184,
R192). Codes 1 to 40 and table names 1 to 10 in the order of Chapter 12; a list has a count byte, an optional field a
presence byte and zeros when absent; the scopes of the cancel requests, the flag of LANE_QUERY and the body kind of a
directory write as R192 lays them out (the widths R192 does not give and the layout of roles, sources and actions are
the model's choice, log entry 18). A SEG payload is an offset of 6 bytes and the data; the tag, the subject and the
payload of a frame stand as Table 21 says (R192). -/
def Obligations.RequestBytes : Prop :=
  ∀ (h : Hdr) (a b c d : Nat) (on sensor : Bool) (text : List Byte) (numbers : List Nat)
    (places : List (Nat × Option Nat)) (q : QuotaArg) (r0 r1 r2 r3 : RoleArg) (body : RecordArg)
    (sets : List TriggerArg) (sources : List (Nat × SourceArg)) (slots : List CompareArg) (pairs : List (Nat × Nat))
    (expected : Option Nat) (start : Option (Nat × Nat)),
    let spells := fun (code : Nat) (args : List Byte) (i : Instr) => i.wellFormed = true →
      (∀ more, requestOf h sensor (be 1 code ++ args ++ more) = some i) ∧
      (∀ k < args.length, requestOf h sensor (be 1 code ++ args.take k) = none)
    let flag := fun x : Bool => be 1 (if x = true then 1 else 0)
    let list := fun items : List (List Byte) => be 1 items.length ++ items.flatten
    let opt := fun (k : Nat) (field : Option (List Byte)) =>
      match field with
      | none => be 1 0 ++ be k 0
      | some f => be 1 1 ++ f
    let role := fun r : RoleArg => be 1 r.kind ++ be 1 r.pool
    let source := fun x : SourceArg => be 1 x.kind ++ be 1 x.qual
    let action := fun x : ActionArg => be 1 x.kind ++
      match x.kind with
      | 1 => be 1 x.x ++ be 1 x.y
      | 2 => []
      | 3 => []
      | 6 => be 2 x.x
      | 7 => be 1 x.x ++ be 4 x.y
      | _ => be 1 x.x
    let trigger := fun t : TriggerArg => be 1 t.number ++ source t.factor ++ list (t.actions.map action) ++
      be 1 t.chain ++ be 1 t.mode ++ flag t.faultGuard
    let compare := fun x : CompareArg => be 1 x.slot ++ flag x.enabled ++ be 4 x.value ++ be 1 x.lineMask ++
      be 1 x.lineData ++ be 1 x.triggerMask
    requestOf h sensor [] = none ∧
    spells 1 (be 1 a ++ be 1 b ++ be 1 c) (.openStream h a b c) ∧
    spells 2 [] (.flushStream h) ∧ spells 3 [] (.closeStream h) ∧ spells 4 [] (.abortStream h) ∧
    spells 5 [] (.streamQuery h) ∧
    spells 6 (be 1 1 ++ list (numbers.map (be 2))) (.tableWriteSpeed h numbers) ∧
    spells 6 (be 1 2 ++ list (numbers.map (be 2))) (.tableWriteRamp h numbers) ∧
    spells 6 (be 1 3 ++ list (places.map fun p => be 1 p.1 ++ opt 2 (p.2.map (be 2)))) (.tableWritePositions h places) ∧
    spells 6 (be 1 4 ++ be 2 q.ingest ++ be 2 q.lane0 ++ be 2 q.lane1 ++ be 2 q.lane2 ++ be 2 q.lane3 ++ be 2 q.read)
      (.tableWritePoolSplit h q) ∧
    spells 6 (be 1 5 ++ role r0 ++ role r1 ++ role r2 ++ role r3) (.tableWriteLaneRole h r0 r1 r2 r3) ∧
    spells 6 (be 1 6 ++ be 1 a ++ be 1 0 ++ body.label ++ be 1 body.pool ++ be 1 body.state ++ be 1 body.location ++
      be 1 body.home ++ be 4 body.endOfData ++ be 4 body.floor ++ be 1 body.worm ++ be 4 body.verifiedTo)
      (.tableWriteDirectoryRecord h a body) ∧
    spells 6 (be 1 6 ++ be 1 a ++ be 1 1) (.tableWriteDirectoryRemove h a) ∧
    spells 6 (be 1 7 ++ list (sets.map trigger)) (.tableWriteTriggers h sets) ∧
    spells 6 (be 1 8 ++ list (sources.map fun p => be 1 p.1 ++ source p.2)) (.tableWriteCaptures h sources) ∧
    spells 6 (be 1 9 ++ list (slots.map compare)) (.tableWriteCompares h slots) ∧
    spells 6 (be 1 10 ++ list (pairs.map fun p => be 1 p.1 ++ be 4 p.2)) (.tableWriteSettings h pairs) ∧
    spells 7 (be 1 1) (.tableReadSpeed h) ∧ spells 7 (be 1 2) (.tableReadRamp h) ∧
    spells 7 (be 1 3) (.tableReadPositions h) ∧ spells 7 (be 1 4) (.tableReadPoolSplit h) ∧
    spells 7 (be 1 5) (.tableReadLaneRole h) ∧ spells 7 (be 1 6 ++ be 1 a ++ be 2 b) (.tableReadDirectory h a b) ∧
    spells 7 (be 1 7) (.tableReadTriggers h) ∧ spells 7 (be 1 8) (.tableReadCaptures h) ∧
    spells 7 (be 1 9) (.tableReadCompares h) ∧ spells 7 (be 1 10) (.tableReadSettings h) ∧
    spells 8 (be 1 0) (.laneQuery h) ∧ spells 8 (be 1 1) (.laneQueryClear h) ∧
    spells 9 [] (.laneEject h) ∧ spells 10 [] (.laneReset h) ∧
    spells 11 [] (.home h sensor) ∧ spells 12 (be 1 a) (.stop h a) ∧
    spells 13 (be 1 a ++ be 1 b) (.move h a b) ∧ spells 14 (be 1 a ++ be 1 b) (.exportCart h a b) ∧
    spells 15 (be 1 a ++ text ++ be 1 b ++ be 1 c) (.importCart h a text b c) ∧
    spells 16 [] (.scan h) ∧ spells 17 [] (.loaderQuery h) ∧ spells 18 [] (.loaderReset h) ∧
    spells 19 (be 1 a ++ be 4 b) (.protect h a b) ∧ spells 20 (be 1 a) (.setWorm h a) ∧
    spells 21 (be 1 a ++ be 4 b) (.eraseFrom h a b) ∧ spells 22 (be 1 a) (.recycle h a) ∧
    spells 23 (be 1 a) (.forget h a) ∧ spells 24 [] (.catQuery h) ∧
    spells 25 (be 2 a ++ be 2 b) (.catRead h a b) ∧
    spells 26 (be 2 a ++ opt 4 (expected.map (be 4))) (.catRelease h a expected) ∧
    spells 27 (be 1 a ++ be 4 b ++ be 4 c) (.verify h a b c) ∧
    spells 28 [] (.verifySuspend h) ∧ spells 29 [] (.verifyResume h) ∧
    spells 30 (be 1 a ++ be 1 b) (.verifyCancel h a b) ∧
    spells 31 (be 4 a ++ be 4 b ++ opt 5 (start.map fun p => be 1 p.1 ++ be 4 p.2)) (.restore h a b start) ∧
    spells 32 (be 1 a ++ be 2 b) (.restoreCancel h a b) ∧
    spells 33 (be 1 a) (.triggerArm h a) ∧ spells 34 (be 1 a) (.triggerDisarm h a) ∧
    spells 35 (be 1 a) (.triggerFire h a) ∧ spells 36 (be 1 a ++ flag on) (.captureRead h a on) ∧
    spells 37 (be 1 a ++ be 1 b) (.linesSet h a b) ∧ spells 38 (be 1 a) (.compareForce h a) ∧
    spells 39 (flag on) (.status h on) ∧ spells 40 [] (.partReset h) ∧
    (a < 256 ^ 6 → segmentOf h (be 6 a ++ text) = .segment h a text) ∧
    (a < 256 → b < 65536 → c < 256 → text.length < 65536 →
      let frame := be 1 a ++ be 2 b ++ be 1 c ++ be 2 text.length ++ text ++ be 4 d
      frameHdr frame = { tag := b, subject := c } ∧ framePayload frame = text)

/-- The bytes of every frame the part sends. A frame is class, tag, subject, length, payload and check; a reply's
payload is the request's code, the status and the fields, a segment's Table 22's, a notice's its code, the time of its
placing and its fields, with tag 0 and the lane or stream concerned as the subject (R192 Tables 21 and 22). The fields
of every reply and every notice, and a catalog entry's 96 bytes (R192 Table 23), enumerated values numbered from 0 in
the order in which they are listed (R192). The widths and layouts that R192 does not give are the model's choice (log
entry 18 and log entry 44), as are a next wanted of 2^32 (log entry 12) and the last block -1 (log entry 23). -/
def Obligations.SentBytes : Prop :=
  let flag := fun x : Bool => be 1 (if x = true then 1 else 0)
  let mask := fun x : BitVec 8 => be 1 x.toNat
  let word := fun x : Word32 => be 4 x.toNat
  let list := fun items : List (List Byte) => be 1 items.length ++ items.flatten
  let opt := fun (k : Nat) (field : Option (List Byte)) =>
    match field with
    | none => be 1 0 ++ be k 0
    | some f => be 1 1 ++ f
  let text := fun l : List Byte => (l ++ List.replicate 8 32#8).take 8
  let place := fun l : Location => be 1 (match l with
    | .slot i => i.val + 1
    | .mail i => i.val + 49
    | .bay n => n.val + 51
    | .picker => 55
    | .outside => 56
    | .missing => 57)
  let index := fun i : Option CartId => opt 1 (i.map fun i => be 1 i.val)
  let span := fun x : Span => be 1 x.cart ++ be4 x.first ++ be4 x.last
  let requesters := fun l : List (Requester × Nat) => list (l.map fun p => be 1 p.1.ctorIdx)
  let target := fun t : MountTarget =>
    match t with
    | .lane n => be 1 0 ++ be 1 n
    | .anyRead => be 1 1 ++ be 1 0
    | .slot k => be 1 2 ++ place (.slot k)
    | .mail m => be 1 3 ++ place (.mail m)
    | .none => be 1 4 ++ be 1 0
  let last := fun l : Option Int => be 4 (match l with
    | none => 4294967295
    | some x => (x % 4294967296).toNat)
  let kind := fun k : CaptureKind => be 1 (match k with
    | .event k => k.ctorIdx
    | .fire => 12)
  let source := fun x : Source =>
    match x with
    | .byAction => be 1 12 ++ be 1 255
    | .event k q => be 1 k.ctorIdx ++ be 1 (q.getD 255)
  (∀ n, n ≤ 4294967295 → be4 n = be 4 n) ∧
  (∀ (cls tag subject : Nat) (payload : List Byte),
     let bytes := be 1 cls ++ be 2 tag ++ be 1 subject ++ be 2 payload.length ++ payload
     frameBytes cls tag subject payload = bytes ++ be 4 (crc32 bytes).toNat) ∧
  (∀ (r : Reply) (g : Segment) (n : Notice),
     txBytes (.reply r) = frameBytes 3 r.tag r.subject (be 1 r.code ++ be 1 r.status.ctorIdx ++ bodyBytes r.body) ∧
     txBytes (.segment g) = frameBytes 4 g.tag g.stream (be4 g.seq ++ be 1 (if g.cause = .none then 0 else 1) ++
       be 1 g.cause.ctorIdx ++ be 2 g.bytes.length ++ g.bytes) ∧
     txBytes (.notice n) = frameBytes 5 0
       (match n.body with
        | .segRefused i _ _ => i.val
        | .streamResume i _ => i.val
        | .streamFlushed i _ => i.val
        | .streamClosed i _ _ _ _ _ _ => i.val
        | .cartridgeFull m _ _ _ => m.val
        | .noScratch m _ => m.val
        | .laneFault m _ _ => m.val
        | .catalogFull m _ => m.val
        | .verifyDone m _ _ _ _ _ _ _ _ _ _ _ _ => (m.map Fin.val).getD 0
        | .restoreDone _ i _ _ _ _ _ _ _ => i.val
        | _ => 0)
       (be 1 (n.body.ctorIdx + 1) ++ word n.placed ++ noticeFields n.body)) ∧
  (∀ (e : CatEntry), e.runs.length ≤ 8 → (entryBytes e).length = 96 ∧
     entryBytes e = word e.serial ++ be 1 e.cart ++ text e.label ++ be4 e.block ++ be 1 e.lane ++ word e.commitTime ++
       be 1 e.status.ctorIdx ++ be 1 e.runs.length ++
       (e.runs.map fun r => be 1 r.stream ++ be4 r.first ++ be4 r.last).flatten ++
       List.replicate (72 - 9 * e.runs.length) 0#8) ∧
  -- the fields of the replies
  (∀ (st : Stream),
     bodyBytes .none = [] ∧
     bodyBytes (.stream st) = be 1 st.state.ctorIdx ++ be 1 st.pool ++ be 1 st.lane ++ be 1 st.cls.ctorIdx ++
       flag st.verifyOnClose ++ be 6 st.nextOffset ++ be4 st.nextSeq ++
       opt 6 (st.openChunk.map fun c => be4 c.seq ++ be 2 c.bytes.length) ++ be 2 st.staged ++ be4 st.uncommitted ++
       flag st.paused ++ be 2 st.storedRun ++ be 2 st.skip ++ list (st.spans.map span) ++ flag st.spanOverflow ++
       opt 4 (st.lastCommitted.map be4)) ∧
  (∀ (l : List Nat) (p : Vector (Option Nat) 54) (q held : Regions) (k n : Nat) (roles : Vector Role 4)
     (records : List (Option Cart)) (es : List CatEntry),
     let regions := fun r : Regions => be 2 r.ingest ++ be 2 r.assembly[0] ++ be 2 r.assembly[1] ++ be 2 r.assembly[2] ++
       be 2 r.assembly[3] ++ be 2 r.read
     let role := fun r : Role =>
       match r with
       | .write p => be 1 0 ++ be 1 p
       | .read => be 1 1 ++ be 1 0
     let cart := fun c : Cart => text c.label ++ be 1 c.pool ++ be 1 c.state.ctorIdx ++ place c.location ++
       place (.slot c.home) ++ be4 c.endOfData ++ be4 c.floor ++ flag c.worm ++ be4 c.verifiedTo ++ flag c.needsLocate
     bodyBytes (.rates l) = list (l.map (be 2)) ∧
     bodyBytes (.positions p) = list (p.toList.map fun x => opt 2 (x.map (be 2))) ∧
     bodyBytes (.poolSplit q held k) = regions q ++ regions held ++ be 2 k ∧
     bodyBytes (.roles roles) = role roles[0] ++ role roles[1] ++ role roles[2] ++ role roles[3] ∧
     bodyBytes (.directory n records) = list (records.map fun x => opt 26 (x.map cart)) ∧
     bodyBytes (.entries n es) = be 2 n ++ list (es.map entryBytes) ∧
     bodyBytes (.number n) = be4 n ∧ bodyBytes (.count n) = be 2 n) ∧
  (∀ (sets : Vector TriggerSet 8) (captures : List (Source × Bool × Bool)) (slots : Vector CompareSlot 4)
     (time : Word32) (acted : List (Fin 8)) (taken : List (Fin 8 × CaptureSlot)) (m : BitVec 8),
     let factor := fun x : Factor =>
       match x with
       | .none => be 1 12 ++ be 1 255
       | .event k q => be 1 k.ctorIdx ++ be 1 (q.getD 255)
     let action := fun x : Action =>
       match x with
       | .capture c => be 1 0 ++ be 1 c
       | .lines m d => be 1 1 ++ mask m ++ mask d
       | .stop .decel => be 1 2
       | .stop .instant => be 1 3
       | .suspendVerify n => be 1 4 ++ be 1 n
       | .resumeVerify n => be 1 5 ++ be 1 n
       | .notice k => be 1 6 ++ be 2 k
       | .compareArm c d => be 1 7 ++ be 1 c ++ be4 d
     bodyBytes (.triggers sets) = (sets.toList.map fun t => factor t.factor ++ list (t.actions.map action) ++
       mask t.chain ++ be 1 t.mode.ctorIdx ++ flag t.faultGuard ++ flag t.armed).flatten ∧
     bodyBytes (.captures captures) = (captures.map fun c => source c.1 ++ flag c.2.1 ++ flag c.2.2).flatten ∧
     bodyBytes (.compares slots) = (slots.toList.map fun c => flag c.enabled ++ word c.value ++ mask c.lineMask ++
       mask c.lineData ++ mask c.triggerMask).flatten ∧
     bodyBytes (.armed m) = mask m ∧
     bodyBytes (.fired time acted m) = word time ++ list (acted.map fun i => be 1 i.val) ++ mask m ∧
     bodyBytes (.captured time taken) = word time ++ list (taken.map fun p => source p.2.source ++ flag p.2.full ++
       flag p.2.lost ++ opt 1 (p.2.kind.map kind) ++ word p.2.time ++ opt 2 (p.2.position.map (be 2)) ++
       opt 1 (p.2.qual.map (be 1))) ∧
     bodyBytes (.linesAt time m) = word time ++ mask m ∧ bodyBytes (.lines m) = mask m) ∧
  (∀ (t : Settings) (pairs : List (Nat × Nat)) (i : CartId) (c : VerifyContext) (r : CatalogReport) (x : StatusReport),
     bodyBytes (.settings t) = be4 t.streamChunks ++ be4 t.sealAge ++ be4 t.laneTimeout ++ be4 t.govWindow ++
       be4 t.reposLimit ++ be4 t.resumeMark ++ be4 t.devLimit ++ be4 t.gripTimeout ++ be4 t.heldRampCap ++
       be4 t.doorLine ∧
     bodyBytes (.taken pairs) = list (pairs.map fun p => be 1 p.1 ++ be4 p.2) ∧
     bodyBytes (.index i) = be 1 i ∧
     bodyBytes (.verify c) = be 1 c.state.ctorIdx ++ be 1 c.cart ++ be4 c.next ++ last (some c.last) ++ be4 c.checked ++
       be4 c.badBlocks ++ be4 c.records ++ be4 c.badRecords ++ opt 1 (c.cause.map fun y => be 1 y.ctorIdx) ∧
     bodyBytes (.catalog r) = be 2 r.count ++ be 2 r.freeRoom ++ flag r.places[0] ++ flag r.places[1] ++
       flag r.places[2] ++ flag r.places[3] ++ flag r.high ++ flag r.fullReported ++ opt 4 (r.oldest.map word) ++
       word r.nextSerial ++ be 2 r.unverified ++ be 2 r.verified ++ be 2 r.bad ∧
     bodyBytes (.status x) = x.identity ++ word x.time ++ flag x.overflow ++ be 2 x.notices ++ be4 x.counters.check ++
       be4 x.counters.length ++ be4 x.counters.cls ++ be4 x.counters.direction ++ be4 x.counters.seg ++
       (x.lanes.toList.map fun l => be 1 l.1.ctorIdx ++ opt 1 (l.2.map fun y => be 1 y.ctorIdx)).flatten ++
       be 1 x.loader.1.ctorIdx ++ opt 1 (x.loader.2.map fun y => be 1 y.ctorIdx) ++
       (x.streams.toList.map (be 2)).flatten ++ be 2 x.entries ++ be 2 x.mounts ++ be 2 x.verifies ++ be 2 x.restores ++
       flag x.restoreActive) ∧
  (∀ (r : LaneReport),
     let l := r.lane
     let g := r.governor
     let command := fun f : InFlight => (match f.command with
         | .thread => be 1 0 ++ be 1 0
         | .locate _ p => be 1 1 ++ be 1 p.ctorIdx
         | .write _ => be 1 2 ++ be 1 0
         | .read _ => be 1 3 ++ be 1 1
         | .step _ => be 1 4 ++ be 1 0
         | .eject => be 1 5 ++ be 1 0) ++ word (f.sentAt + BitVec.ofNat 32 f.limit)
     bodyBytes (.lane r) =
       be 1 l.state.ctorIdx ++ opt 1 (l.faultCode.map fun c => be 1 c.ctorIdx) ++
       (match l.role with
        | .write p => be 1 0 ++ be 1 p
        | .read => be 1 1 ++ be 1 0) ++ index l.mounted ++ opt 6 (l.command.map command) ++
       opt 4 (l.tapePosition.map be4) ++ opt 1 (l.driveStep.map (be 1)) ++ be 1 l.activity.ctorIdx ++
       be 1 l.claim.ctorIdx ++ flag r.place ++ opt 2 (l.allowance.map (be 2)) ++ flag l.ejectPending ++
       flag l.fillWanted ++ opt 1 (l.holdReason.map fun c => be 1 c.ctorIdx) ++
       opt 13 (r.cart.map fun c => text c.label ++ be4 c.endOfData ++ flag c.needsLocate) ++
       be 2 r.assemblyHeld ++ be 2 r.assemblyQuota ++
       opt 10 (r.openBlock.map fun b => be 2 b.1 ++ be 2 b.2.1 ++ be 2 b.2.2.1 ++ be4 b.2.2.2) ++
       be 2 r.sealedBlocks ++ be4 g.smoothed ++ be 1 g.step ++ be 2 g.stable ++
       opt 15 (g.window.map fun w => be4 (r.windowElapsed.getD 0) ++ be 1 w.exponent ++ be4 g.inflow ++
         be 2 g.repositions ++ be4 g.delivered) ++
       be4 g.meter.inflow ++ be4 g.meter.delivered ++ be 2 g.meter.repositions ++ be 1 g.meter.exponent ++
       be4 g.starve ++ be 2 g.repositionTotal) ∧
  (∀ (r : LoaderReport),
     let d := r.loader
     let step := fun st : PlanStep =>
       match st with
       | .laneEject n => be 1 0 ++ be 1 n
       | .travel l => be 1 1 ++ place l
       | .probe l _ => be 1 2 ++ place l
       | .get l => be 1 3 ++ place l
       | .put l => be 1 4 ++ place l
       | .laneThread n => be 1 5 ++ be 1 n
     bodyBytes (.loader r) =
       be 1 d.state.ctorIdx ++ opt 1 (d.faultCode.map fun c => be 1 c.ctorIdx) ++ opt 2 (d.logical.map (be 2)) ++
       opt 2 (d.real.map (be 2)) ++ be 1 d.direction.ctorIdx ++ be 1 (d.ramp % 256).toNat ++ be 2 d.remaining ++
       flag d.heldSensor ++ index r.held ++ opt 8 (r.heldLabel.map text) ++ flag d.doorOpen ++ flag d.mailSensors[0] ++
       flag d.mailSensors[1] ++ opt 1 (d.doorHold.map fun l => be 1 l.val) ++
       opt 3 (d.plan.map fun p => be 1 p.kind.ctorIdx ++ list (p.steps.map step) ++ be 1 p.current) ++
       list (r.mounts.map fun m => be 1 m.kind.ctorIdx ++ index m.cart ++ target m.target ++ be 1 m.cls.ctorIdx ++
         requesters m.requesters ++ be 2 m.tag ++ opt 1 (m.fillLane.map fun n => be 1 n.val) ++ flag m.inService)) ∧
  -- the fields of the notices
  (∀ (cause : ResetCause) (i : StreamId) (why : RefusedReason) (x : Nat) (lastSeq : Option Nat) (spans : List Span)
     (lost aborted : Bool) (k : Nat) (n : LaneId) (c : CartId) (label : List Byte) (p : Fin 8) (code : FaultCode)
     (oc : Option CartId) (oldest next : Word32),
     noticeFields (.resetDone cause) = be 1 cause.ctorIdx ∧
     noticeFields (.segRefused i why x) = be 1 i ++ be 1 why.ctorIdx ++ be 6 x ∧
     noticeFields (.streamResume i x) = be 1 i ++ be 6 x ∧ noticeFields (.streamFlushed i x) = be 1 i ++ be 6 x ∧
     noticeFields (.streamClosed i x lastSeq spans lost aborted k) = be 1 i ++ be 6 x ++ opt 4 (lastSeq.map be4) ++
       list (spans.map span) ++ flag lost ++ flag aborted ++ be 2 k ∧
     noticeFields (.cartridgeFull n c label x) = be 1 n ++ be 1 c ++ text label ++ be4 x ∧
     noticeFields (.noScratch n p) = be 1 n ++ be 1 p ∧
     noticeFields (.laneFault n code oc) = be 1 n ++ be 1 code.ctorIdx ++ index oc ∧
     noticeFields .homeDone = [] ∧
     noticeFields (.catalogHigh x oldest next) = be 2 x ++ word oldest ++ word next ∧
     noticeFields (.catalogFull n x) = be 1 n ++ be 2 x) ∧
  (∀ (code : LoaderFault) (ok : Option MountKind) (os : Option Nat) (oc held : Option CartId) (k : MountKind)
     (t : MountTarget) (tag step : Nat) (rs : List (Requester × Nat)) (why : PlanReason) (missing : List CartId)
     (unknown skipped : List Location),
     let failure := be 1 k.ctorIdx ++ index oc ++ be 2 tag ++ requesters rs ++ be 1 why.ctorIdx ++ be 1 step ++ index held
     noticeFields (.loaderFault code ok os held) = be 1 code.ctorIdx ++ opt 1 (ok.map fun k => be 1 k.ctorIdx) ++
       opt 1 (os.map (be 1)) ++ index held ∧
     noticeFields (.planDone k oc t tag rs) = be 1 k.ctorIdx ++ index oc ++ target t ++ be 2 tag ++ requesters rs ∧
     noticeFields (.mountFailed k oc tag rs why step held) = failure ∧
     noticeFields (.moveFailed k oc tag rs why step held) = failure ∧
     noticeFields (.scanDone missing unknown skipped) = list (missing.map fun i => be 1 i.val) ++
       list (unknown.map place) ++ list (skipped.map place)) ∧
  (∀ (n : Option LaneId) (i : CartId) (st : StreamId) (label : List Byte) (o : VerifyOrigin) (first lst : Nat)
     (l : Option Int) (v : VerifyResult) (w : RestoreResult) (a b c d next tag code : Nat) (bad : Option Nat) (set : Fin 8)
     (k : CaptureKind) (q : Option Nat) (t : Word32),
     let origin := match o with
       | .server t => be 1 0 ++ be 2 t
       | .close i => be 1 1 ++ be 1 i ++ be 1 0
     let plain := fun r : Nat => be 1 r ++ be 2 0 ++ be 2 0
     let ended := fun r why : Nat => be 1 r ++ be 1 1 ++ be 1 why ++ be 2 0
     let unmounted := fun (r why : Nat) (p : PlanReason) => be 1 r ++ be 1 1 ++ be 1 why ++ be 1 1 ++ be 1 p.ctorIdx
     let verified := match v with
       | .passed => plain 0
       | .failed => plain 1
       | .cancelled => ended 2 0
       | .unloaded => ended 2 1
       | .laneFault => ended 2 2
       | .laneReset => ended 2 3
       | .mountFailed p => unmounted 2 4 p
       | .noCartridge => ended 2 5
     let restored := match w with
       | .complete => plain 0
       | .partly => plain 1
       | .notFound => plain 2
       | .cancelled => ended 3 0
       | .laneFault => ended 3 1
       | .mountFailed p => unmounted 3 2 p
     noticeFields (.verifyDone n i label o first l v a b c d bad next) = opt 1 (n.map fun n => be 1 n.val) ++ be 1 i ++
       text label ++ origin ++ be4 first ++ last l ++ verified ++ be4 a ++ be4 b ++ be4 c ++ be4 d ++ opt 4 (bad.map be4) ++
       be4 next ∧
     noticeFields (.restoreDone tag st first lst w a b c next) = be 2 tag ++ be 1 st ++ be4 first ++ be4 lst ++ restored ++
       be4 a ++ be4 b ++ be4 c ++ be4 next ∧
     noticeFields (.trigger set code k q t) = be 1 set ++ be 2 code ++ kind k ++ opt 1 (q.map (be 1)) ++ word t) ∧
  -- enumerated values
  ([StreamState.closed, .opened, .flushing, .closing, .aborted].map StreamState.ctorIdx = List.range 5 ∧
   [StreamClass.pack, .raw].map StreamClass.ctorIdx = List.range 2 ∧
   [LaneState.offline, .empty, .loading, .unknownMedia, .ready, .locating, .writing, .hold, .reading, .unloading,
     .ejected, .fault].map LaneState.ctorIdx = List.range 12 ∧
   [FaultCode.timeout, .writeFail, .readFail, .loadFail, .mechanism].map FaultCode.ctorIdx = List.range 5 ∧
   [Purpose.write, .read].map Purpose.ctorIdx = List.range 2 ∧
   [Activity.none, .verify, .restore].map Activity.ctorIdx = List.range 3 ∧
   [Claim.none, .restore, .write].map Claim.ctorIdx = List.range 3 ∧
   [HoldReason.queueEmpty, .catalogFull].map HoldReason.ctorIdx = List.range 2 ∧
   [CartState.scratch, .filling, .full, .suspect].map CartState.ctorIdx = List.range 4 ∧
   [BlockStatus.unverified, .verified, .bad].map BlockStatus.ctorIdx = List.range 3 ∧
   [LoaderState.unhomed, .homing, .idle, .running, .stopping, .fault].map LoaderState.ctorIdx = List.range 6 ∧
   [LoaderFault.positionError, .gripTimeout, .homeNotFound].map LoaderFault.ctorIdx = List.range 3 ∧
   [Direction.towardZero, .away].map Direction.ctorIdx = List.range 2 ∧
   [MountKind.mount, .dismount, .move, .exportCart, .importCart, .scan].map MountKind.ctorIdx = List.range 6 ∧
   [MountClass.urgent, .normal, .background].map MountClass.ctorIdx = List.range 3 ∧
   [Requester.laneFill, .restore, .verify, .server].map Requester.ctorIdx = List.range 4 ∧
   [EventKind.moveDone, .moveFault, .homeFound, .doorOpened, .doorClosed, .laneEw, .laneHold, .laneFull, .laneFault,
     .verifyMismatch, .compare, .segRefused].map EventKind.ctorIdx = List.range 12 ∧
   [TriggerMode.once, .repeating].map TriggerMode.ctorIdx = List.range 2 ∧
   [VerifyState.idle, .running, .suspended].map VerifyState.ctorIdx = List.range 3 ∧
   [SuspendCause.server, .restore, .write].map SuspendCause.ctorIdx = List.range 3 ∧
   [SegmentCause.none, .record, .block, .cartridge].map SegmentCause.ctorIdx = List.range 4 ∧
   [Status.ok, .busy, .badArgument, .badState, .noRoom, .prot, .notFound, .faulted].map Status.ctorIdx = List.range 8 ∧
   [ResetCause.powerOn, .resetInput, .partReset].map ResetCause.ctorIdx = List.range 3 ∧
   [RefusedReason.notOpen, .limit, .order, .full].map RefusedReason.ctorIdx = List.range 4 ∧
   [PlanReason.sourceEmpty, .destOccupied, .doorOpen, .stopped, .laneRefused, .positionUnset].map PlanReason.ctorIdx =
     List.range 6)

/-! ## STATUS, PART_RESET and the resets -/

/-- STATUS is answered with OK and the figures of R189 as they stand; then the overflow flag is cleared, and with the
clear flag the five counters become 0. It changes nothing else. -/
def Obligations.StatusReportsThenClears : Prop :=
  ∀ (h : Hdr) (clear : Bool) (s : State), s.link.credit = true →
    exec (.status h clear) s = .next (renewCredit (choose ((fun u : State =>
      let report : StatusReport :=
        { identity := Config.identity, time := u.ttu.time, overflow := u.link.overflow,
          notices := u.link.notices.length, counters := u.link.counters,
          lanes := u.lanes.map fun l => (l.state, l.faultCode), loader := (u.ldr.state, u.ldr.faultCode),
          streams := #v[streamsIn .closed u, streamsIn .opened u, streamsIn .flushing u, streamsIn .closing u,
            streamsIn .aborted u],
          entries := u.cat.entries.length, mounts := u.mounts.length, verifies := u.vfy.queue.length,
          restores := u.rse.queue.length, restoreActive := u.rse.active.isSome }
      let zero : Counters := { check := 0, length := 0, cls := 0, direction := 0, seg := 0 }
      let w := answer h 39 .ok (.status report) u
      { w with link := { w.link with overflow := false, counters := if clear = true then zero else u.link.counters } })
      (settle s))))

/-- PART_RESET is answered with OK in every state, and its reply holds back the credit and every notice and segment
until it has been sent (R190). Power-on and a low level of the reset input reset the part at once, without a reply;
then the frames held at the server are taken (log entry 28). The state after power-on is the state that a power-on
reset leaves, on a part whose sensors are all inactive, with no frame held and no command waiting (R190; the sensors'
levels are the model's choice, log entry 5). R190 says of PART_RESET that the frames held at the server are then taken;
that they stay held through power-on and the reset input too is the model's inference, log entry 28, and that these two
cut off whatever frame is being sent is its choice, log entry 48. -/
def Obligations.ResetsOfThePart : Prop :=
  (∀ (h : Hdr) (s : State), s.link.credit = true →
     ∃ t, exec (.partReset h) s = .next t ∧ t.link.credit = false ∧ t.link.resetReply = true ∧
       t = renewCredit (choose ((fun u : State =>
         let w := answer h 40 .ok .none u
         { w with link := { w.link with resetReply := true } }) (settle s)))) ∧
  (∀ (s : State),
     exec .powerOn s = .next (resumeReception (State.afterReset .powerOn s)) ∧
     exec .resetInput s = .next (resumeReception (State.afterReset .resetInput s))) ∧
  (∀ (s : State), s.link.waiting = [] → s.pending = [] → s.freeCount = 0 → s.ldr.heldSensor = false →
     s.ldr.homeSensor = false → s.ldr.doorOpen = false → s.ldr.mailSensors = #v[false, false] →
     State.afterReset .powerOn s = State.reset ∧ exec .powerOn s = .next State.reset)

/-- What a reset of the part leaves, piece by piece: every stream CLOSED, every lane OFFLINE with role READ, every
governor at 0 with window exponent 10 in its meter, the loader UNHOMED, every queue and collection empty, every table
and setting at its default, the time base and the counters 0, the default pool split, and RESET_DONE with its cause as
the first notice, already chosen by the free transmit side, whatever frame was being sent (log entry 48; R2, R37, R45,
R57, R58, R89, R94, R110, R182, R186, R188, R190; also R23, R39, R145, R183, R193). The fields in which a reset value
is the model's choice are those of INVENTORY.md's list so marked. The sensors keep their levels (log entry 5), the
frames held at the server stay (log entry 28), and the commands that wait and the draws of free values are outside the
part (log entries 1 and 10). -/
def Obligations.ResetLeaves : Prop :=
  ∀ (cause : ResetCause) (s : State),
    let t := State.afterReset cause s
    (∀ i : StreamId, t.streams[i] =
      { state := .closed, pool := 0, lane := 0, cls := .pack, verifyOnClose := false, nextOffset := 0, nextSeq := 0,
        openChunk := none, staged := 0, uncommitted := 0, paused := false, storedRun := 0, skip := 0, spans := [],
        spanOverflow := false, lastCommitted := none }) ∧
    (∀ n : LaneId, t.lanes[n] =
      { state := .offline, faultCode := none, role := .read, mounted := none, command := none, tapePosition := none,
        driveStep := none, activity := .none, claim := .none, allowance := none, ejectPending := false,
        fillWanted := false, holdReason := none, serverEject := false, readBlock := none, releasing := false,
        discard := false, pickNoRoom := false }) ∧
    (∀ n : LaneId, t.gov[n] =
      { smoothed := 0, step := 0, stable := 0, window := none, inflow := 0, repositions := 0, delivered := 0,
        meter := { inflow := 0, delivered := 0, repositions := 0, exponent := 10 }, starve := 0,
        repositionTotal := 0 }) ∧
    (∀ n : LaneId, t.asm[n] = { openBlock := none, sealedQueue := [] }) ∧
    (∀ n : LaneId, t.vfy.contexts[n] =
      { state := .idle, cart := 0, label := [], origin := .server 0, first := 0, last := 0, next := 0, stage := .none,
        inHand := none, blockBad := false, checked := 0, badBlocks := 0, records := 0, badRecords := 0,
        firstBad := none, cause := none, todo := [], pages := false }) ∧
    t.pool = { quotas := { ingest := 512, assembly := #v[256, 256, 256, 256], read := 512 },
               held := { ingest := 0, assembly := #v[0, 0, 0, 0], read := 0 }, waiting := [] } ∧
    t.cmp = { ready := [], engine := none } ∧
    t.exp = { restoreSlot := none, verifySlots := #v[none, none, none, none], engine := none, lastServed := 3 } ∧
    (∀ i : CartId, t.cdr.records[i] = none) ∧ (∀ p : Fin 55, t.cdr.map[p] = none) ∧
    t.ldr =
      { state := .unhomed, faultCode := none, logical := none, real := none, direction := .towardZero, ramp := -1,
        remaining := 0, heldSensor := s.ldr.heldSensor, plan := none, doorHold := none, top := 0, stepStart := 0,
        gripStart := 0, gripLimit := 0, homingSteps := 0, homingStop := false, homeSensor := s.ldr.homeSensor,
        doorOpen := s.ldr.doorOpen, mailSensors := s.ldr.mailSensors } ∧
    t.mounts = [] ∧
    t.cat = { entries := [], places := #v[false, false, false, false], nextSerial := 0, fullReported := false } ∧
    t.vfy.queue = [] ∧ t.rse = { queue := [], active := none } ∧
    t.ttu.time = 0 ∧ t.ttu.lines = 0 ∧ t.ttu.compareOwed = #v[false, false, false, false] ∧
    (∀ i : Fin 8, t.ttu.captures[i] =
      { source := .byAction, full := false, lost := false, kind := none, time := 0, position := none, qual := none }) ∧
    (∀ c : Fin 4, t.ttu.compares[c] =
      { enabled := false, value := 0, lineMask := 0, lineData := 0, triggerMask := 0 }) ∧
    (∀ i : Fin 8, t.ttu.triggers[i] =
      { armed := false, factor := .none, actions := [], chain := 0, mode := .once, faultGuard := false }) ∧
    t.settings = { streamChunks := 4, sealAge := 2000, laneTimeout := 300, govWindow := 10, reposLimit := 3,
                   resumeMark := 4, devLimit := 8, gripTimeout := 2000, heldRampCap := 31, doorLine := 7 } ∧
    t.tables.speed = [100] ∧ t.tables.ramp = [100] ∧ (∀ i : Fin 54, t.tables.positions[i] = none) ∧
    t.link =
      { replies := [], notices := [], overflow := false,
        counters := { check := 0, length := 0, cls := 0, direction := 0, seg := 0 },
        sending := some (.notice { body := .resetDone cause, placed := 0 }), credit := true, resetReply := false,
        waiting := s.link.waiting } ∧
    t.due = [] ∧ t.freeCount = s.freeCount ∧ t.pending = s.pending

/-! ## Streams -/

/-- A SEG frame for a stream 0 to 31 with 1 to 4,096 bytes meets the tests of R6 in order; the first that fails
refuses it whole, with its notice and its event, and with the paused flag under FULL (R6, R7, R9, R11). A SEG frame
outside those ranges is counted and discarded. -/
def Obligations.SegmentTests : Prop :=
  ∀ (h : Hdr) (offset : Nat) (data : List Byte) (s : State), s.link.credit = true →
    let u := settle s
    (31 < h.subject ∨ data.length = 0 ∨ 4096 < data.length →
      exec (.segment h offset data) s = .next (renewCredit (choose { u with
        link := { u.link with
          counters := { u.link.counters with seg := min 4294967295 (u.link.counters.seg + 1) } } }))) ∧
    (∀ i : StreamId, h.subject = i → 1 ≤ data.length → data.length ≤ 4096 →
      let st := u.streams[i]
      let refused := fun (r : RefusedReason) (expected : Nat) (v : State) =>
        post (.event { kind := .segRefused, qual := some i }) (offerNotice (.segRefused i r expected) v)
      let newPage := match st.openChunk with
        | none => True
        | some c => 4096 < c.bytes.length + data.length
      (st.state ≠ .opened →
        exec (.segment h offset data) s = .next (renewCredit (choose (refused .notOpen 0 u)))) ∧
      (st.state = .opened → st.nextSeq = 4294967295 →
        exec (.segment h offset data) s = .next (renewCredit (choose (refused .limit st.nextOffset u)))) ∧
      (st.state = .opened → st.nextSeq ≠ 4294967295 → offset ≠ st.nextOffset →
        exec (.segment h offset data) s = .next (renewCredit (choose (refused .order st.nextOffset u)))) ∧
      (st.state = .opened → st.nextSeq ≠ 4294967295 → offset = st.nextOffset → newPage →
        (u.settings.streamChunks ≤ st.staged ∨ u.pool.quotas.ingest ≤ u.pool.held.ingest) →
        exec (.segment h offset data) s = .next (renewCredit (choose (refused .full st.nextOffset
          (modStream i (fun st => { st with paused := true }) u))))))

/-- A segment that passes the tests of R6 is accepted whole. Its bytes go into the open chunk, or into a new one with
a granted page and the next sequence; a chunk whose fill reaches 4,096 is staged at the tail of the ready list; what
is left of the segment opens a second chunk; and the next offset rises by the segment's length (R8). An open chunk's
fill lies in 1 to 4,095 (R1). -/
def Obligations.SegmentAccepted : Prop :=
  ∀ (h : Hdr) (i : StreamId) (offset : Nat) (data : List Byte) (s : State), s.link.credit = true →
    let u := settle s
    let st := u.streams[i]
    let stage := fun (e : Entry) (v : State) => post .compressorTake (modCmp (fun c => { c with ready := c.ready ++ [e] }) v)
    let page := fun v : State => modHeld (fun r => { r with ingest := r.ingest + 1 }) v
    let done := fun v : State => exec (.segment h offset data) s = .next (renewCredit (choose v))
    let off := st.nextOffset + data.length
    let room := st.staged < u.settings.streamChunks ∧ u.pool.held.ingest < u.pool.quotas.ingest
    h.subject = i → 1 ≤ data.length → data.length ≤ 4096 → st.state = .opened → st.nextSeq ≠ 4294967295 →
    offset = st.nextOffset →
    (st.openChunk = none → room →
      (data.length < 4096 →
        done (page (modStream i (fun st => { st with
          openChunk := some { seq := st.nextSeq, bytes := data }
          nextSeq := st.nextSeq + 1
          nextOffset := off }) u))) ∧
      (data.length = 4096 →
        done (stage { stream := i, seq := st.nextSeq, raw := some data, mark := .none }
          (page (modStream i (fun st => { st with
            staged := st.staged + 1
            nextSeq := st.nextSeq + 1
            nextOffset := off }) u))))) ∧
    (∀ c, st.openChunk = some c → 1 ≤ c.bytes.length → c.bytes.length ≤ 4095 →
      (c.bytes.length + data.length < 4096 →
        done (modStream i (fun st => { st with
          openChunk := some { c with bytes := c.bytes ++ data }
          nextOffset := off }) u)) ∧
      (c.bytes.length + data.length = 4096 →
        done (stage { stream := i, seq := c.seq, raw := some (c.bytes ++ data), mark := .none }
          (modStream i (fun st => { st with
            openChunk := none
            staged := st.staged + 1
            nextOffset := off }) u))) ∧
      (4096 < c.bytes.length + data.length → room →
        let n := 4096 - c.bytes.length
        done (stage { stream := i, seq := c.seq, raw := some (c.bytes ++ data.take n), mark := .none }
          (page (modStream i (fun st => { st with
            openChunk := some { seq := st.nextSeq, bytes := data.drop n }
            nextSeq := st.nextSeq + 1
            staged := st.staged + 1
            nextOffset := off }) u)))))

/-- OPEN_STREAM checks its arguments, then that the stream is CLOSED, then that a lane holds WRITE for the pool; the
stream then opens for that lane with a context at its start (R3, R4). FLUSH_STREAM of an OPEN stream marks the youngest
chunk that is no record yet: the open chunk, staged with the mark, or else the youngest staged chunk, the last in the
ready list or, with none there, the one in compression; with records uncommitted only, it asks for the seal of an open
block that holds one; with nothing to write it sends STREAM_FLUSHED at once and the stream stays OPEN. Any other stream
refuses it (R3, R14); the stream's lane in HOLD tests whether it resumes (R84). -/
def Obligations.OpenAndFlushStream : Prop :=
  (∀ (h : Hdr) (pool cls verify : Nat) (s : State), s.link.credit = true →
     let u := settle s
     let done := fun v : State => exec (.openStream h pool cls verify) s = .next (renewCredit (choose v))
     (31 < h.subject ∨ 7 < pool ∨ 1 < cls ∨ 1 < verify → done (refuse h 1 .badArgument u)) ∧
     (∀ (i : StreamId) (p : Fin 8), h.subject = i → pool = p → cls ≤ 1 → verify ≤ 1 →
       (u.streams[i].state ≠ .closed → done (refuse h 1 .badState u)) ∧
       (u.streams[i].state = .closed → (∀ n : LaneId, u.lanes[n].role ≠ .write p) → done (refuse h 1 .notFound u)) ∧
       (∀ n : LaneId, u.streams[i].state = .closed → u.lanes[n].role = .write p →
         (∀ m : LaneId, u.lanes[m].role = .write p → m = n) →
         done (answer h 1 .ok .none (modStream i (fun st =>
           { state := .opened, pool := p, lane := n, cls := if cls = 0 then .pack else .raw,
             verifyOnClose := decide (verify = 1), nextOffset := 0, nextSeq := 0, openChunk := none, staged := 0,
             uncommitted := st.uncommitted, paused := false, storedRun := 0, skip := 0, spans := [],
             spanOverflow := false, lastCommitted := none }) u))))) ∧
  (∀ (h : Hdr) (s : State), s.link.credit = true →
     let u := settle s
     let done := fun v : State => exec (.flushStream h) s = .next (renewCredit (choose v))
     (31 < h.subject → done (refuse h 2 .badArgument u)) ∧
     (∀ i : StreamId, h.subject = i →
       let st := u.streams[i]
       let go := modStream i (fun st => { st with state := .flushing }) u
       let ok := fun v : State => done (post (.holdResume st.lane) (answer h 2 .ok .none v))
       (st.state ≠ .opened → done (refuse h 2 .badState u)) ∧
       (∀ c, st.state = .opened → st.openChunk = some c →
         ok (post .compressorTake (modCmp (fun x => { x with
             ready := x.ready ++ [{ stream := i, seq := c.seq, raw := some c.bytes, mark := .flush }] })
           (modStream i (fun st => { st with state := .flushing, openChunk := none, staged := st.staged + 1 }) u)))) ∧
       (st.state = .opened → st.openChunk = none → 0 < st.staged →
         (∀ front e rest, u.cmp.ready = front ++ e :: rest → e.stream = i → (∀ x ∈ rest, x.stream ≠ i) →
           ok { go with cmp := { u.cmp with ready := front ++ { e with mark := .flush } :: rest } }) ∧
         (∀ t, (∀ x ∈ u.cmp.ready, x.stream ≠ i) → u.cmp.engine = some t → t.entry.stream = i →
           ok { go with cmp := { u.cmp with
             engine := some { t with entry := { t.entry with mark := .flush } } } })) ∧
       (st.state = .opened → st.openChunk = none → st.staged = 0 → 0 < st.uncommitted →
         ok (if openHolds i st.lane u = true then askSeal st.lane .mark go else go)) ∧
       (st.state = .opened → st.openChunk = none → st.staged = 0 → st.uncommitted = 0 →
         done (post (.holdResume st.lane)
           (offerNotice (.streamFlushed i st.nextOffset) (answer h 2 .ok .none u))))))

/-- CLOSE_STREAM of an OPEN or FLUSHING stream clears the paused flag, stages the open chunk with the close mark or
adds an end entry that takes the next sequence (which is not raised past 4,294,967,295), and makes the stream CLOSING.
Any other stream refuses it (R3, R15). ABORT_STREAM of an OPEN, FLUSHING or CLOSING stream clears the paused flag,
removes the chunks that have not reached the compressor and frees their ingest pages (an end entry holds none), makes
the stream ABORTED, and completes at once when nothing is left. Any other stream refuses it (R3, R16, R17, R41). That
STREAM_CLOSED of an abort with nothing left is sent at its acceptance, ahead of the resume checks that the freed pages
make due, is the model's choice, log entry 46. -/
def Obligations.CloseAndAbortStream : Prop :=
  (∀ (h : Hdr) (s : State), s.link.credit = true →
     let u := settle s
     let done := fun v : State => exec (.closeStream h) s = .next (renewCredit (choose v))
     (31 < h.subject → done (refuse h 3 .badArgument u)) ∧
     (∀ i : StreamId, h.subject = i →
       let st := u.streams[i]
       let join := fun (e : Entry) (f : Stream → Stream) => done (answer h 3 .ok .none
         (post .compressorTake (modCmp (fun x => { x with ready := x.ready ++ [e] }) (modStream i f u))))
       (st.state ≠ .opened → st.state ≠ .flushing → done (refuse h 3 .badState u)) ∧
       (∀ c, st.state = .opened ∨ st.state = .flushing → st.openChunk = some c →
         join { stream := i, seq := c.seq, raw := some c.bytes, mark := .close } (fun st => { st with
           state := .closing
           paused := false
           openChunk := none
           staged := st.staged + 1 })) ∧
       (st.state = .opened ∨ st.state = .flushing → st.openChunk = none →
         join { stream := i, seq := st.nextSeq, raw := none, mark := .close } (fun st => { st with
           state := .closing
           paused := false
           nextSeq := if st.nextSeq = 4294967295 then 4294967295 else st.nextSeq + 1
           staged := st.staged + 1 })))) ∧
  (∀ (h : Hdr) (s : State), s.link.credit = true →
     let u := settle s
     let done := fun v : State => exec (.abortStream h) s = .next (renewCredit (choose v))
     (31 < h.subject → done (refuse h 4 .badArgument u)) ∧
     (∀ i : StreamId, h.subject = i →
       let st := u.streams[i]
       let mine := u.cmp.ready.filter fun e => decide (e.stream = i)
       let pages := (mine.filter fun e => e.raw.isSome).length + (if st.openChunk.isSome = true then 1 else 0)
       (st.state = .closed ∨ st.state = .aborted → done (refuse h 4 .badState u)) ∧
       (st.state = .opened ∨ st.state = .flushing ∨ st.state = .closing →
         done (abortComplete i (post (.holdResume st.lane) (answer h 4 .ok .none (freeIngest pages
           { u with
             streams := upd u.streams i fun st => { st with
               state := .aborted
               paused := false
               openChunk := none
               staged := st.staged - mine.length }
             cmp := { u.cmp with ready := u.cmp.ready.filter fun e => decide (e.stream ≠ i) } })))))))

/-- The checks of a stream. A paused stream in OPEN or FLUSHING whose condition holds is resumed (R10). A FLUSHING
stream whose two counts are 0 is flushed and OPEN again (R14). A CLOSING stream whose counts are 0 offers its spans to
the verify queue if verify on close is yes, sends STREAM_CLOSED and becomes CLOSED (R15). An ABORTED stream whose
counts are 0 sends STREAM_CLOSED with the aborted indication and becomes CLOSED (R17). Otherwise a check changes
nothing. The spans of a closing stream are offered to the verify queue in order: one whose index is empty, or for
which the queue of 8 has no room, is not queued and is counted; the others join the tail with the record's label (R15,
R143, R144). -/
def Obligations.StreamChecksAndSpans : Prop :=
  (∀ (i : StreamId) (s : State),
     (let u := takeDue (.streamResume i) s
      let st := u.streams[i]
      exec (.streamResume i) s = .next (choose (
        if st.paused = true ∧ (st.state = .opened ∨ st.state = .flushing) ∧ st.staged < u.settings.streamChunks ∧
            u.pool.held.ingest < u.pool.quotas.ingest then
          offerNotice (.streamResume i st.nextOffset) (modStream i (fun st => { st with paused := false }) u)
        else u))) ∧
     (let u := takeDue (.streamFlushed i) s
      let st := u.streams[i]
      exec (.streamFlushed i) s = .next (choose (
        if st.state = .flushing ∧ st.staged = 0 ∧ st.uncommitted = 0 then
          offerNotice (.streamFlushed i st.nextOffset) (modStream i (fun st => { st with state := .opened }) u)
        else u))) ∧
     (let u := takeDue (.closeComplete i) s
      let st := u.streams[i]
      let offered := if st.verifyOnClose = true then offerSpans i st.spans u else (0, u)
      exec (.closeComplete i) s = .next (choose (
        if st.state = .closing ∧ st.staged = 0 ∧ st.uncommitted = 0 then
          modStream i (fun st => { st with state := .closed }) (offerNotice
            (.streamClosed i st.nextOffset st.lastCommitted st.spans st.spanOverflow false offered.1) offered.2)
        else u))) ∧
     (let u := takeDue (.abortComplete i) s
      let st := u.streams[i]
      exec (.abortComplete i) s = .next (choose (
        if st.state = .aborted ∧ st.staged = 0 ∧ st.uncommitted = 0 then
          modStream i (fun st => { st with state := .closed }) (offerNotice
            (.streamClosed i st.nextOffset st.lastCommitted st.spans st.spanOverflow true 0) u)
        else u)))) ∧
  (∀ (i : StreamId) (sp : Span) (rest : List Span) (s : State),
     offerSpans i [] s = (0, s) ∧
     (s.cdr.records[sp.cart] = none ∨ 8 ≤ s.vfy.queue.length →
       offerSpans i (sp :: rest) s = ((offerSpans i rest s).1 + 1, (offerSpans i rest s).2)) ∧
     (∀ c, s.cdr.records[sp.cart] = some c → s.vfy.queue.length < 8 →
       offerSpans i (sp :: rest) s = offerSpans i rest (post .verifyStart (modVfy (fun v => { v with
         queue := v.queue ++ [{ cart := sp.cart, label := c.label, first := sp.first, last := some sp.last,
                                origin := .close i, mountAsked := false }] }) s))))

/-! ## Tables -/

/-- TABLE_WRITE of the speed table: 1 to 8 rates of 1 to 65,535, each greater than the one before it, replace the table
at once, and a lane whose step exceeds the new last step has it clamped and its stable count set to 0; any other list
is refused with BAD_ARGUMENT (R82). TABLE_WRITE of the ramp table: a list of 1 to 32 intervals of 1 to 65,535, none
greater than the one before it, replaces the table unless the loader is HOMING, RUNNING or STOPPING (BUSY); any other
list is refused with BAD_ARGUMENT (R112). TABLE_WRITE of the positions table: a pair outside the 54 locations or above
65,535 refuses the write with BAD_ARGUMENT, as does a list without a pair (log entry 18); a moving loader refuses it
with BUSY; otherwise each named entry takes its value and the others keep theirs (R111). Of two pairs that name one
location the later prevails: that is the model's choice, log entry 46. Location codes 1 to 54 are the 54 locations in
order (R192). -/
def Obligations.WriteMotionTables : Prop :=
  (∀ (h : Hdr) (rates : List Nat) (s : State), s.link.credit = true →
     let u := settle s
     let last := rates.length - 1
     let good := 1 ≤ rates.length ∧ rates.length ≤ 8 ∧ (∀ r ∈ rates, 1 ≤ r ∧ r ≤ 65535) ∧
       ∀ k (hk : k + 1 < rates.length), rates[k] < rates[k + 1]
     (good → exec (.tableWriteSpeed h rates) s = .next (renewCredit (choose (answer h 6 .ok .none { u with
       tables := { u.tables with speed := rates }
       gov := u.gov.map fun g => if last < g.step then { g with step := last, stable := 0 } else g })))) ∧
     (¬ good → exec (.tableWriteSpeed h rates) s = .next (renewCredit (choose (refuse h 6 .badArgument u))))) ∧
  (∀ (h : Hdr) (intervals : List Nat) (s : State), s.link.credit = true →
     let u := settle s
     let done := fun v : State => exec (.tableWriteRamp h intervals) s = .next (renewCredit (choose v))
     let good := 1 ≤ intervals.length ∧ intervals.length ≤ 32 ∧ (∀ t ∈ intervals, 1 ≤ t ∧ t ≤ 65535) ∧
       ∀ k (hk : k + 1 < intervals.length), intervals[k + 1] ≤ intervals[k]
     let moving := u.ldr.state = .homing ∨ u.ldr.state = .running ∨ u.ldr.state = .stopping
     (¬ good → done (refuse h 6 .badArgument u)) ∧
     (good → moving → done (refuse h 6 .busy u)) ∧
     (good → ¬ moving →
       done (answer h 6 .ok .none { u with tables := { u.tables with ramp := intervals } }))) ∧
  (∀ (h : Hdr) (pairs : List (Nat × Option Nat)) (s : State), s.link.credit = true →
     let u := settle s
     let done := fun v : State => exec (.tableWritePositions h pairs) s = .next (renewCredit (choose v))
     let moving := u.ldr.state = .homing ∨ u.ldr.state = .running ∨ u.ldr.state = .stopping
     ((pairs = [] ∨ ∃ p ∈ pairs, p.1 = 0 ∨ 54 < p.1 ∨ ∃ x, p.2 = some x ∧ 65535 < x) →
       done (refuse h 6 .badArgument u)) ∧
     (∀ ps : List (Fin 54 × Option (Fin 65536)), ps ≠ [] →
       pairs = ps.map (fun p => (p.1.val + 1, p.2.map Fin.val)) →
       (moving → done (refuse h 6 .busy u)) ∧
       (¬ moving → done (answer h 6 .ok .none { u with tables := { u.tables with
         positions := ps.foldl (fun v p => v.set p.1 (p.2.map Fin.val)) u.tables.positions } }))))

/-- TABLE_WRITE of the pool split table: quotas below their minimum or above 2,048 together are refused with
BAD_ARGUMENT, then a write while any region holds a page with BUSY; otherwise the six quotas replace the table, and the
resume test of every paused stream, the compressor's test and the service of the waiting list fall due (R39, R40).
TABLE_WRITE of the lane role table: a pool outside 0 to 7, an unknown kind (R192; log entry 18 on the kinds' codes, and
on the pool byte of a READ entry, which is not tested) or two WRITE entries for one pool are refused with BAD_ARGUMENT;
a changed entry of a lane that is LOCATING, WRITING, HOLD or READING, or whose present WRITE entry serves a stream that
is not CLOSED, with BUSY; otherwise the four entries replace the table, and each changed lane clears fill wanted and
makes the write-start test (R58; the serve test that follows is log entry 40, the order of the lanes' tests log entry
3). -/
def Obligations.WritePoolSplitAndLaneRoles : Prop :=
  (∀ (h : Hdr) (q : QuotaArg) (s : State), s.link.credit = true →
     let u := settle s
     let done := fun v : State => exec (.tableWritePoolSplit h q) s = .next (renewCredit (choose v))
     let good := 32 ≤ q.ingest ∧ 16 ≤ q.lane0 ∧ 16 ≤ q.lane1 ∧ 16 ≤ q.lane2 ∧ 16 ≤ q.lane3 ∧ 32 ≤ q.read ∧
       q.ingest + q.lane0 + q.lane1 + q.lane2 + q.lane3 + q.read ≤ 2048
     let inUse := u.pool.held.ingest ≠ 0 ∨ (∃ n : LaneId, u.pool.held.assembly[n] ≠ 0) ∨ u.pool.held.read ≠ 0
     (¬ good → done (refuse h 6 .badArgument u)) ∧
     (good → inUse → done (refuse h 6 .busy u)) ∧
     (good → ¬ inUse →
       done (post .readGrant (post .compressorTake (checkAllResumes (answer h 6 .ok .none { u with
         pool := { u.pool with quotas := { ingest := q.ingest, assembly := #v[q.lane0, q.lane1, q.lane2, q.lane3],
                                           read := q.read } } })))))) ∧
  (∀ (h : Hdr) (r0 r1 r2 r3 : RoleArg) (s : State), s.link.credit = true →
     let u := settle s
     let done := fun v : State => exec (.tableWriteLaneRole h r0 r1 r2 r3) s = .next (renewCredit (choose v))
     let bad := fun r : RoleArg => (r.kind = 0 ∧ 7 < r.pool) ∨ 1 < r.kind
     (bad r0 ∨ bad r1 ∨ bad r2 ∨ bad r3 → done (refuse h 6 .badArgument u)) ∧
     (∀ r : Vector Role 4, #v[roleOf r0, roleOf r1, roleOf r2, roleOf r3] = r.map some →
       let twice := ∃ m n : LaneId, m ≠ n ∧ ∃ p, r[m] = .write p ∧ r[n] = .write p
       let busy := ∃ n : LaneId, u.lanes[n].role ≠ r[n] ∧
         (u.lanes[n].state = .locating ∨ u.lanes[n].state = .writing ∨ u.lanes[n].state = .hold ∨
           u.lanes[n].state = .reading ∨
           ((∃ p, u.lanes[n].role = .write p) ∧ ∃ i : StreamId, u.streams[i].state ≠ .closed ∧ u.streams[i].lane = n))
       (twice → done (refuse h 6 .badArgument u)) ∧
       (¬ twice → busy → done (refuse h 6 .busy u)) ∧
       (¬ twice → ¬ busy → done (post .serveTest (forEach allLanes (fun n v =>
           if v.lanes[n].role = r[n] then v
           else post (.writeStart n) (modLane n (fun l => { l with
             role := r[n]
             fillWanted := false
             pickNoRoom := false }) v))
         (answer h 6 .ok .none u))))))

/-- TABLE_WRITE of the directory with a record: the range tests of R95; then the conflicts with another index, by label
or by place; then the checks of R96 in order, PROTECTED, BAD_STATE, BUSY; otherwise the record replaces the index's
contents, the map follows, needs locate is set as R97 says, and the tests of the neighbours are made (R95 to R97). The
ranges of R95, field by field: a label of 8 characters of code 32 to 126, not all spaces; a pool 0 to 7; one of four
states; a location other than PICKER; a home slot; a floor and a verified to at most the end of data. The neighbours: a
lane in UNKNOWN_MEDIA at whose bay the record was placed threads; a lane with fill wanted that writes for the pool of a
record now SCRATCH at a storage slot asks for a pick, and no other write does (log entry 36); a lane with the cartridge
mounted makes the write-start test when its state or end of data has changed. TABLE_WRITE of the directory with
"remove": an index above 63 is refused with BAD_ARGUMENT; a WORM record with PROTECTED; one that the catalog names with
BAD_STATE; one at PICKER, in use by a lane or named by the mount queue with BUSY; otherwise the index becomes empty and
its place too (R95 to R97). -/
def Obligations.WriteDirectoryTable : Prop :=
  (∀ (h : Hdr) (index : Nat) (body : RecordArg) (s : State), s.link.credit = true →
     let u := settle s
     let done := fun v : State => exec (.tableWriteDirectoryRecord h index body) s = .next (renewCredit (choose v))
     (63 < index ∨ recordOf body = none → done (refuse h 6 .badArgument u)) ∧
     (∀ (i : CartId) (c : Cart), index = i → recordOf body = some c →
       let conflict := ∃ (j : CartId) (x : Cart), j ≠ i ∧ u.cdr.records[j] = some x ∧
         (x.label = c.label ∨ namedAt c.location u = some j)
       let bay := ∃ n : LaneId, c.location = .bay n ∧ (u.lanes[n].state = .loading ∨ u.lanes[n].state = .unloading)
       let place := fun locate : Bool => done (afterWrite i (recordAt i u) c
         (answer h 6 .ok .none (putRecord i { c with needsLocate := locate } u)))
       (conflict → done (refuse h 6 .badArgument u)) ∧
       (¬ conflict → u.cdr.records[i] = none →
         (bay → done (refuse h 6 .busy u)) ∧ (¬ bay → place false)) ∧
       (∀ o, ¬ conflict → u.cdr.records[i] = some o →
         let prot := (o.worm = true ∧ c.worm = false) ∨ c.floor < o.floor ∨ c.endOfData < o.floor ∨
           (o.worm = true ∧ c.endOfData < o.endOfData)
         let loses := (∃ e ∈ u.cat.entries, e.cart = i) ∧ (c.label ≠ o.label ∨ c.endOfData < o.endOfData)
         let busy := o.location = .picker ∨ (∃ n : LaneId, inUseBy i n u = true) ∨
           (∃ m ∈ u.mounts, m.cart = some i) ∨ bay
         (prot → done (refuse h 6 .prot u)) ∧
         (¬ prot → loses → done (refuse h 6 .badState u)) ∧
         (¬ prot → ¬ loses → busy → done (refuse h 6 .busy u)) ∧
         (¬ prot → ¬ loses → ¬ busy → place (
           if o.label = c.label then o.needsLocate || decide (o.endOfData ≠ c.endOfData) else true))))) ∧
  (∀ (h : Hdr) (index : Nat) (s : State), s.link.credit = true →
     let u := settle s
     let done := fun v : State => exec (.tableWriteDirectoryRemove h index) s = .next (renewCredit (choose v))
     (63 < index → done (refuse h 6 .badArgument u)) ∧
     (∀ i : CartId, index = i →
       (u.cdr.records[i] = none → done (answer h 6 .ok .none (dropRecord i u))) ∧
       (∀ o, u.cdr.records[i] = some o →
         let held := ∃ e ∈ u.cat.entries, e.cart = i
         let busy := o.location = .picker ∨ (∃ n : LaneId, inUseBy i n u = true) ∨ ∃ m ∈ u.mounts, m.cart = some i
         (o.worm = true → done (refuse h 6 .prot u)) ∧
         (o.worm = false → held → done (refuse h 6 .badState u)) ∧
         (o.worm = false → ¬ held → busy → done (refuse h 6 .busy u)) ∧
         (o.worm = false → ¬ held → ¬ busy → done (answer h 6 .ok .none (dropRecord i u)))))) ∧
  (∀ (a : RecordArg) (c : Cart), recordOf a = some c ↔
     (a.label.length = 8 ∧ (∀ b ∈ a.label, 32 ≤ b.toNat ∧ b.toNat ≤ 126) ∧ ∃ b ∈ a.label, b ≠ 32#8) ∧
     a.pool = c.pool.val ∧ a.home = c.home.val + 1 ∧
     ((a.state = 0 ∧ c.state = .scratch) ∨ (a.state = 1 ∧ c.state = .filling) ∨ (a.state = 2 ∧ c.state = .full) ∨
       (a.state = 3 ∧ c.state = .suspect)) ∧
     ((∃ k : Fin 48, a.location = k.val + 1 ∧ c.location = .slot k) ∨
       (∃ m : Fin 2, a.location = m.val + 49 ∧ c.location = .mail m) ∨
       (∃ n : LaneId, a.location = n.val + 51 ∧ c.location = .bay n) ∨ (a.location = 56 ∧ c.location = .outside) ∨
       (a.location = 57 ∧ c.location = .missing)) ∧
     ((a.worm = 0 ∧ c.worm = false) ∨ (a.worm = 1 ∧ c.worm = true)) ∧
     a.endOfData ≤ 4294967295 ∧ a.floor ≤ a.endOfData ∧ a.verifiedTo ≤ a.endOfData ∧ c.label = a.label ∧
     c.endOfData = a.endOfData ∧ c.floor = a.floor ∧ c.verifiedTo = a.verifiedTo ∧ c.needsLocate = false) ∧
  (∀ (i : CartId) (c : Cart) (s : State),
     let placed := putRecord i c s
     let dropped := dropRecord i s
     let left := fun l : Location => (s.cdr.records[i]).map Cart.location = some l ∧ namedAt l s = some i
     placed = { s with cdr := placed.cdr } ∧ placed.cdr.records = s.cdr.records.set i (some c) ∧
     dropped = { s with cdr := dropped.cdr } ∧ dropped.cdr.records = s.cdr.records.set i none ∧
     (∀ l : Location, l ≠ .outside → l ≠ .missing →
       (l = c.location → namedAt l placed = some i) ∧
       (l ≠ c.location → left l → namedAt l placed = none) ∧
       (l ≠ c.location → ¬ left l → namedAt l placed = namedAt l s) ∧
       (left l → namedAt l dropped = none) ∧
       (¬ left l → namedAt l dropped = namedAt l s))) ∧
  (∀ (i : CartId) (old : Option Cart) (c : Cart) (n : LaneId) (s : State), s.cdr.records[i] = some c →
     let tested := fun v : State =>
       if old.map (fun o => (o.state, o.endOfData)) = some (c.state, c.endOfData) then v else writeTestFor i v
     (c.location = .bay n → s.lanes[n].state = .unknownMedia →
       afterWrite i old c s = tested (askPickFor i (sendThread n s))) ∧
     ((∀ m : LaneId, c.location = .bay m → s.lanes[m].state ≠ .unknownMedia) →
       afterWrite i old c s = tested (askPickFor i s)) ∧
     (c.state ≠ .scratch ∨ (∀ k, c.location ≠ .slot k) ∨ (∀ m : LaneId, s.lanes[m].role ≠ .write c.pool) →
       askPickFor i s = s) ∧
     (∀ k, c.state = .scratch → c.location = .slot k → s.lanes[n].role = .write c.pool →
       (∀ m : LaneId, s.lanes[m].role = .write c.pool → m = n) →
       askPickFor i s = if s.lanes[n].fillWanted = true then { s with due := s.due ++ [.scratchPick n] } else s) ∧
     ((∀ m : LaneId, s.lanes[m].mounted ≠ some i) → writeTestFor i s = s) ∧
     ((∀ m : LaneId, s.lanes[m].mounted = some i ↔ m = n) →
       writeTestFor i s = { s with due := .writeStart n :: s.due }))

/-- TABLE_WRITE of the trigger, capture and compare tables: an item outside its ranges refuses the whole write with
BAD_ARGUMENT, as does a list without an item (log entry 18), and an armed set that the write names refuses a trigger
write with BUSY; otherwise each named set takes its definition and stands disarmed, each named capture slot takes its
source and is emptied, each named compare slot takes its five fields (R173, R174, R177). Of two items that name one set
or slot the later prevails: that is the model's choice, log entry 46. What an item must be, and what it gives: a slot
or set number in its range; a source or factor of a known kind with a qualifier of its kind or 255 for "any", a kind
that has no qualifier taking 255 alone (log entry 27), or BY_ACTION or NONE (kind 12, log entry 18); for a set at most
two actions with their arguments in range, a mask without the set itself, mode ONCE or REPEAT; for a compare a value of
32 bits and three masks of 8 (R173, R174, R177; the kinds' codes are log entry 18). TABLE_WRITE of the settings table:
an unknown name or a list without a pair (log entry 18) refuses the whole write with BAD_ARGUMENT; otherwise each value
is clamped into its range, the reply echoes each name with the value taken, and the pairs are applied in order, each
with the tests of the block that uses it (R186; log entry 46 on the order of the lanes that SEAL_AGE tests and on the
tests of a value that a later pair overrides, log entry 3 on the order of the tests that RESUME_MARK and STREAM_CHUNKS
make due). The ten settings by name, with their ranges and defaults (R186). -/
def Obligations.WriteTriggerTablesAndSettings : Prop :=
  (∀ (h : Hdr) (sets : List TriggerArg) (pairs : List (Nat × SourceArg)) (slots : List CompareArg) (s : State),
     s.link.credit = true →
     let u := settle s
     ((sets = [] ∨ ∃ a ∈ sets, triggerOf a = none) →
       exec (.tableWriteTriggers h sets) s = .next (renewCredit (choose (refuse h 6 .badArgument u)))) ∧
     (∀ ts : List (Fin 8 × TriggerSet), sets ≠ [] → sets.map triggerOf = ts.map some →
       ((∃ t ∈ ts, u.ttu.triggers[t.1].armed = true) →
         exec (.tableWriteTriggers h sets) s = .next (renewCredit (choose (refuse h 6 .busy u)))) ∧
       ((∀ t ∈ ts, u.ttu.triggers[t.1].armed = false) →
         exec (.tableWriteTriggers h sets) s = .next (renewCredit (choose (answer h 6 .ok .none { u with
           ttu := { u.ttu with triggers := ts.foldl (fun v t => v.set t.1 t.2) u.ttu.triggers } }))))) ∧
     ((pairs = [] ∨ ∃ p ∈ pairs, captureOf p = none) →
       exec (.tableWriteCaptures h pairs) s = .next (renewCredit (choose (refuse h 6 .badArgument u)))) ∧
     (∀ ps : List (Fin 8 × Source), pairs ≠ [] → pairs.map captureOf = ps.map some →
       exec (.tableWriteCaptures h pairs) s = .next (renewCredit (choose (answer h 6 .ok .none { u with
         ttu := { u.ttu with
           captures := ps.foldl (fun v p => v.set p.1 { v[p.1] with source := p.2, full := false, lost := false })
             u.ttu.captures } })))) ∧
     ((slots = [] ∨ ∃ a ∈ slots, compareOf a = none) →
       exec (.tableWriteCompares h slots) s = .next (renewCredit (choose (refuse h 6 .badArgument u)))) ∧
     (∀ cs : List (Fin 4 × CompareSlot), slots ≠ [] → slots.map compareOf = cs.map some →
       exec (.tableWriteCompares h slots) s = .next (renewCredit (choose (answer h 6 .ok .none { u with
         ttu := { u.ttu with compares := cs.foldl (fun v c => v.set c.1 c.2) u.ttu.compares } }))))) ∧
  (let kinds : List EventKind := [.moveDone, .moveFault, .homeFound, .doorOpened, .doorClosed, .laneEw, .laneHold,
     .laneFull, .laneFault, .verifyMismatch, .compare, .segRefused]
   let known := fun b : SourceArg => b.kind = 12 ∨ (b.kind ≤ 11 ∧ (b.qual = 255 ∨
     (5 ≤ b.kind ∧ b.kind ≤ 10 ∧ b.qual ≤ 3) ∨ (b.kind = 11 ∧ b.qual ≤ 31)))
   let qualifier := fun b : SourceArg => if b.qual = 255 then none else some b.qual
   (∀ (a : TriggerArg),
     ((triggerOf a).isSome = true ↔
       a.number ≤ 7 ∧ known a.factor ∧ a.actions.length ≤ 2 ∧
       (∀ x ∈ a.actions, (x.kind = 0 ∧ x.x ≤ 7) ∨ (x.kind = 1 ∧ x.x ≤ 255 ∧ x.y ≤ 255) ∨ x.kind = 2 ∨ x.kind = 3 ∨
         ((x.kind = 4 ∨ x.kind = 5) ∧ x.x ≤ 3) ∨ (x.kind = 6 ∧ x.x ≤ 65535) ∨
         (x.kind = 7 ∧ x.x ≤ 3 ∧ 1 ≤ x.y ∧ x.y ≤ 4294967295)) ∧
       a.chain ≤ 255 ∧ a.chain.testBit a.number = false ∧ a.mode ≤ 1) ∧
     (∀ (i : Fin 8) (t : TriggerSet), triggerOf a = some (i, t) →
       a.number = i ∧ t.armed = false ∧ t.chain = BitVec.ofNat 8 a.chain ∧ t.faultGuard = a.faultGuard ∧
       t.mode = (if a.mode = 0 then .once else .repeating) ∧
       (a.factor.kind = 12 → t.factor = .none) ∧
       (∀ k, kinds[a.factor.kind]? = some k → t.factor = .event k (qualifier a.factor)) ∧
       t.actions = a.actions.map fun x =>
         match x.kind with
         | 0 => .capture (Fin.ofNat 8 x.x)
         | 1 => .lines (BitVec.ofNat 8 x.x) (BitVec.ofNat 8 x.y)
         | 2 => .stop .decel
         | 3 => .stop .instant
         | 4 => .suspendVerify (Fin.ofNat 4 x.x)
         | 5 => .resumeVerify (Fin.ofNat 4 x.x)
         | 6 => .notice x.x
         | _ => .compareArm (Fin.ofNat 4 x.x) x.y)) ∧
   (∀ (p : Nat × SourceArg),
     ((captureOf p).isSome = true ↔ p.1 ≤ 7 ∧ known p.2) ∧
     (∀ (i : Fin 8) (src : Source), captureOf p = some (i, src) →
       p.1 = i ∧ (p.2.kind = 12 → src = .byAction) ∧
       (∀ k, kinds[p.2.kind]? = some k → src = .event k (qualifier p.2)))) ∧
   (∀ (a : CompareArg),
     ((compareOf a).isSome = true ↔ a.slot ≤ 3 ∧ a.value ≤ 4294967295 ∧ a.lineMask ≤ 255 ∧ a.lineData ≤ 255 ∧
       a.triggerMask ≤ 255) ∧
     (∀ (i : Fin 4) (x : CompareSlot), compareOf a = some (i, x) →
       a.slot = i ∧ x = { enabled := a.enabled, value := BitVec.ofNat 32 a.value,
                          lineMask := BitVec.ofNat 8 a.lineMask, lineData := BitVec.ofNat 8 a.lineData,
                          triggerMask := BitVec.ofNat 8 a.triggerMask }))) ∧
  (∀ (h : Hdr) (pairs : List (Nat × Nat)) (s : State), s.link.credit = true →
     let u := settle s
     let done := fun v : State => exec (.tableWriteSettings h pairs) s = .next (renewCredit (choose v))
     ((pairs = [] ∨ ∃ p ∈ pairs, p.1 = 0 ∨ 10 < p.1) → done (refuse h 6 .badArgument u)) ∧
     (∀ ns : List SettingName, pairs ≠ [] → pairs.map (fun p => settingOf p.1) = ns.map some →
       let taken := (ns.zip pairs).map fun q => (q.1, max q.1.range.1 (min q.2.2 q.1.range.2))
       done (forEach taken (fun p v =>
           let w : State := { v with settings := setSetting p.1 p.2 v.settings }
           match p.1 with
           | .streamChunks => checkAllResumes w
           | .sealAge => forEach allLanes sealAge w
           | .resumeMark => forEach allLanes (fun n => post (.holdResume n)) w
           | .devLimit => limitTest w
           | _ => w)
         (answer h 6 .ok (.taken ((pairs.map Prod.fst).zip (taken.map Prod.snd))) u)))) ∧
  (((List.range 12).map fun n => (settingOf n).map SettingName.range) =
     [none, some (1, 16), some (1, 60000), some (1, 600), some (6, 14), some (1, 255), some (1, 15), some (1, 255),
       some (100, 10000), some (0, 31), some (0, 7), none] ∧
   Settings.default = { streamChunks := 4, sealAge := 2000, laneTimeout := 300, govWindow := 10, reposLimit := 3,
                        resumeMark := 4, devLimit := 8, gripTimeout := 2000, heldRampCap := 31, doorLine := 7 } ∧
   Settings.default.ok = true)

/-! ## Requests that read -/

/-- TABLE_READ of the nine tables without arguments, LOADER_QUERY and CAT_QUERY are answered with OK in every state,
give the values as they stand, and change nothing else (R40, R58, R82, R111, R112, R128, R137, R173, R174, R177,
R186). -/
def Obligations.ReadsAnswerAtAnyTime : Prop :=
  ∀ (h : Hdr) (s : State), s.link.credit = true →
    let u := settle s
    let gives := fun (c : Instr) (code : Nat) (body : ReplyBody) =>
      exec c s = .next (renewCredit (choose (answer h code .ok body u)))
    gives (.tableReadSpeed h) 7 (.rates u.tables.speed) ∧
    gives (.tableReadRamp h) 7 (.rates u.tables.ramp) ∧
    gives (.tableReadPositions h) 7 (.positions u.tables.positions) ∧
    gives (.tableReadPoolSplit h) 7 (.poolSplit u.pool.quotas u.pool.held
      (2048 - (u.pool.held.ingest + u.pool.held.assembly.toList.sum + u.pool.held.read))) ∧
    gives (.tableReadLaneRole h) 7 (.roles (u.lanes.map Lane.role)) ∧
    gives (.tableReadTriggers h) 7 (.triggers u.ttu.triggers) ∧
    gives (.tableReadCaptures h) 7 (.captures (u.ttu.captures.toList.map fun c => (c.source, c.full, c.lost))) ∧
    gives (.tableReadCompares h) 7 (.compares u.ttu.compares) ∧
    gives (.tableReadSettings h) 7 (.settings u.settings) ∧
    gives (.loaderQuery h) 17 (.loader
      { loader := u.ldr, held := namedAt .picker u,
        heldLabel := (namedAt .picker u).bind fun i => (u.cdr.records[i]).map Cart.label, mounts := u.mounts }) ∧
    gives (.catQuery h) 24 (.catalog
      { count := u.cat.entries.length,
        freeRoom := 4096 - u.cat.entries.length - (u.cat.places.toList.filter id).length, places := u.cat.places,
        high := decide (3584 ≤ u.cat.entries.length), fullReported := u.cat.fullReported,
        oldest := u.cat.entries.head?.map CatEntry.serial, nextSerial := u.cat.nextSerial,
        unverified := (u.cat.entries.filter fun e => decide (e.status = .unverified)).length,
        verified := (u.cat.entries.filter fun e => decide (e.status = .verified)).length,
        bad := (u.cat.entries.filter fun e => decide (e.status = .bad)).length })

/-- TABLE_READ of the directory and CAT_READ refuse a start or a count outside its range with BAD_ARGUMENT, and
otherwise give the items from the start onward, up to the count or the last item; STREAM_QUERY and LANE_QUERY refuse a
stream above 31 or a lane above 3, and otherwise report the context as it stands. None changes anything else;
LANE_QUERY with clear sets the starve timer and the reposition count to 0 after its reply is formed (R5, R64, R87,
R98, R138). -/
def Obligations.ReadsWithOperands : Prop :=
  ∀ (h : Hdr) (first count : Nat) (s : State), s.link.credit = true →
    let u := settle s
    let does := fun (c : Instr) (t : State) => exec c s = .next (renewCredit (choose t))
    (63 < first ∨ count = 0 ∨ 16 < count → does (.tableReadDirectory h first count) (refuse h 7 .badArgument u)) ∧
    (first ≤ 63 → 1 ≤ count → count ≤ 16 → does (.tableReadDirectory h first count)
      (answer h 7 .ok (.directory first ((u.cdr.records.toList.drop first).take count)) u)) ∧
    (4095 < first ∨ count = 0 ∨ 16 < count → does (.catRead h first count) (refuse h 25 .badArgument u)) ∧
    (first ≤ 4095 → 1 ≤ count → count ≤ 16 → does (.catRead h first count)
      (answer h 25 .ok (.entries u.cat.entries.length ((u.cat.entries.drop first).take count)) u)) ∧
    (31 < h.subject → does (.streamQuery h) (refuse h 5 .badArgument u)) ∧
    (∀ i : StreamId, h.subject = i → does (.streamQuery h) (answer h 5 .ok (.stream u.streams[i]) u)) ∧
    (3 < h.subject → does (.laneQuery h) (refuse h 8 .badArgument u) ∧
      does (.laneQueryClear h) (refuse h 8 .badArgument u)) ∧
    (∀ n : LaneId, h.subject = n →
      let report : LaneReport :=
        { lane := u.lanes[n], place := u.cat.places[n],
          cart := u.lanes[n].mounted.bind fun i => u.cdr.records[i],
          assemblyHeld := u.pool.held.assembly[n], assemblyQuota := u.pool.quotas.assembly[n],
          openBlock := u.asm[n].openBlock.map fun b =>
            ((b.records.map Record.size).sum, b.records.length, b.runs.length, (u.ttu.time - b.openedAt).toNat),
          sealedBlocks := u.asm[n].sealedQueue.length, governor := u.gov[n],
          windowElapsed := u.gov[n].window.map fun w => (u.ttu.time - w.start).toNat }
      does (.laneQuery h) (answer h 8 .ok (.lane report) u) ∧
      does (.laneQueryClear h)
        (modGov n (fun g => { g with starve := 0, repositionTotal := 0 }) (answer h 8 .ok (.lane report) u)))

/-! ## Directory requests and the catalog -/

/-- The directory requests check the index and the block argument first (BAD_ARGUMENT), then that the index holds a
record (NOT_FOUND) (R99). PROTECT raises the floor to the lesser of the value and the end of data and never lowers it,
and its reply carries the floor now in force (R100). SET_WORM sets the flag (R101). ERASE_FROM refuses a block above
the end of data with BAD_ARGUMENT, a WORM record or a block below the floor with PROTECTED, a record in motion on tape
with BUSY; otherwise the end of data becomes the block, verified to at most it, the catalog's entries of the index at
the block or above are removed in order, and the write-start test of a lane with the cartridge mounted is made (R99,
R102, R140). RECYCLE refuses a record with a floor above 0 or WORM with PROTECTED, one in motion on tape with BUSY;
otherwise the record becomes SCRATCH with end of data and verified to 0, every entry of the index leaves the catalog,
and the write-start test and the scratch pick are made (R99, R103, R140). FORGET refuses a record that is not OUTSIDE
or MISSING with BAD_STATE, one named by the mount queue with BUSY; otherwise its entries leave the catalog and the
index becomes empty (R99, R104, R140). A removal takes from the catalog exactly the entries of the index whose block is
the given one or above; the others keep their order, and the room report follows when any left (R136, R140). -/
def Obligations.DirectoryRequests : Prop :=
  (∀ (h : Hdr) (index floor : Nat) (s : State), s.link.credit = true →
     let u := settle s
     let protectIs := fun t : State => exec (.protect h index floor) s = .next (renewCredit (choose t))
     let wormIs := fun t : State => exec (.setWorm h index) s = .next (renewCredit (choose t))
     (63 < index ∨ 4294967295 < floor → protectIs (refuse h 19 .badArgument u)) ∧
     (63 < index → wormIs (refuse h 20 .badArgument u)) ∧
     (∀ i : CartId, index = i →
       (u.cdr.records[i] = none →
         (floor ≤ 4294967295 → protectIs (refuse h 19 .notFound u)) ∧ wormIs (refuse h 20 .notFound u)) ∧
       (∀ c, u.cdr.records[i] = some c →
         let f := max c.floor (min floor c.endOfData)
         (floor ≤ 4294967295 → protectIs (answer h 19 .ok (.number f) { u with
           cdr := { u.cdr with records := u.cdr.records.set i (some { c with floor := f }) } })) ∧
         wormIs (answer h 20 .ok .none { u with
           cdr := { u.cdr with records := u.cdr.records.set i (some { c with worm := true }) } })))) ∧
  (∀ (h : Hdr) (index block : Nat) (s : State), s.link.credit = true →
     let u := settle s
     let done := fun t : State => exec (.eraseFrom h index block) s = .next (renewCredit (choose t))
     (63 < index ∨ 4294967295 < block → done (refuse h 21 .badArgument u)) ∧
     (∀ i : CartId, index = i → block ≤ 4294967295 →
       (u.cdr.records[i] = none → done (refuse h 21 .notFound u)) ∧
       (∀ c, u.cdr.records[i] = some c →
         (c.endOfData < block → done (refuse h 21 .badArgument u)) ∧
         (block ≤ c.endOfData → c.worm = true ∨ block < c.floor → done (refuse h 21 .prot u)) ∧
         (block ≤ c.endOfData → c.worm = false → c.floor ≤ block → inMotion i u = true →
           done (refuse h 21 .busy u)) ∧
         (block ≤ c.endOfData → c.worm = false → c.floor ≤ block → inMotion i u = false →
           done (writeTestFor i (answer h 21 .ok .none (removeEntries i block { u with
             cdr := { u.cdr with records := u.cdr.records.set i (some { c with
               endOfData := block
               verifiedTo := min c.verifiedTo block }) } }))))))) ∧
  (∀ (h : Hdr) (index : Nat) (s : State), s.link.credit = true →
     let u := settle s
     let recycleIs := fun t : State => exec (.recycle h index) s = .next (renewCredit (choose t))
     let forgetIs := fun t : State => exec (.forget h index) s = .next (renewCredit (choose t))
     (63 < index → recycleIs (refuse h 22 .badArgument u) ∧ forgetIs (refuse h 23 .badArgument u)) ∧
     (∀ i : CartId, index = i →
       (u.cdr.records[i] = none → recycleIs (refuse h 22 .notFound u) ∧ forgetIs (refuse h 23 .notFound u)) ∧
       (∀ c, u.cdr.records[i] = some c →
         (0 < c.floor ∨ c.worm = true → recycleIs (refuse h 22 .prot u)) ∧
         (c.floor = 0 → c.worm = false → inMotion i u = true → recycleIs (refuse h 22 .busy u)) ∧
         (c.floor = 0 → c.worm = false → inMotion i u = false →
           recycleIs (askPickFor i (writeTestFor i (answer h 22 .ok .none (removeEntries i 0 { u with
             cdr := { u.cdr with records := u.cdr.records.set i (some { c with
               state := .scratch
               endOfData := 0
               verifiedTo := 0 }) } }))))) ∧
         (c.location ≠ .outside → c.location ≠ .missing → forgetIs (refuse h 23 .badState u)) ∧
         (c.location = .outside ∨ c.location = .missing → (∃ m ∈ u.mounts, m.cart = some i) →
           forgetIs (refuse h 23 .busy u)) ∧
         (c.location = .outside ∨ c.location = .missing → (∀ m ∈ u.mounts, m.cart ≠ some i) →
           forgetIs (answer h 23 .ok .none (dropRecord i (removeEntries i 0 u))))))) ∧
  (∀ (i : CartId) (block : Nat) (s : State),
     let goes := fun e : CatEntry => e.cart = i ∧ block ≤ e.block
     let left : State := { s with cat := { s.cat with entries := s.cat.entries.filter fun e => !decide (goes e) } }
     ((∃ e ∈ s.cat.entries, goes e) → removeEntries i block s = roomReport left) ∧
     ((∀ e ∈ s.cat.entries, ¬ goes e) → removeEntries i block s = s))

/-- The scratch pick of a WRITE lane with fill wanted set: the candidate at the lowest slot, SCRATCH, of the lane's
pool and not named by the mount queue, is offered as a NORMAL MOUNT for LANE_FILL; accepted, it clears fill wanted;
turned away for lack of room, fill wanted stays and the pick waits for room; with no candidate NO_SCRATCH is sent and
fill wanted stays (R71, R106; log entry 19 on the moment of the repeated pick). -/
def Obligations.ScratchPick : Prop :=
  ∀ (n : LaneId) (s : State),
    let u := takeDue (.scratchPick n) s
    let done := fun t : State => exec (.scratchPick n) s = .next (choose t)
    let candidate := fun (p : Fin 8) (k : Fin 48) (i : CartId) => namedAt (.slot k) u = some i ∧
      ∃ c, u.cdr.records[i] = some c ∧ c.state = .scratch ∧ c.pool = p ∧ ∀ m ∈ u.mounts, m.cart ≠ some i
    (u.lanes[n].role = .read ∨ u.lanes[n].fillWanted = false → done u) ∧
    (∀ p, u.lanes[n].role = .write p → u.lanes[n].fillWanted = true →
      ((∀ k i, ¬ candidate p k i) →
        done (offerNotice (.noScratch n p) (modLane n (fun l => { l with pickNoRoom := false }) u))) ∧
      (∀ k i, candidate p k i → (∀ k' < k, ∀ j, ¬ candidate p k' j) →
        (u.mounts.length < 8 → done (modLane n (fun l => { l with fillWanted := false, pickNoRoom := false })
          (post .serveTest { u with mounts := u.mounts ++
            [{ kind := .mount, cart := some i, target := .lane n, cls := .normal, requesters := [(.laneFill, 0)],
               tag := 0, fillLane := some n, inService := false, rebuilt := none }] }))) ∧
        (8 ≤ u.mounts.length → done (modLane n (fun l => { l with pickNoRoom := true }) u))))

/-- CAT_RELEASE refuses a count above 4,096 or above the entry count with BAD_ARGUMENT, and an expected oldest serial
that is not the oldest entry's with BAD_STATE; otherwise the oldest entries leave the list, the reply carries the
entry count after the release, and the room report follows when any left (R136, R139). A committed block joins the
tail of the catalog with the next serial, its runs and status UNVERIFIED, and uses the lane's place; CATALOG_HIGH is
sent exactly when the entry count reaches 3,584 (R134, R135). A lane that asks for a place holds it already, is
granted one while free room is above 0, or is refused; the first refusal since the last grant sends CATALOG_FULL
(R133, R135). A place given up unused makes the room report (R133). The room report, while free room is above 0, makes
every lane in HOLD for catalog room ask again; without free room it does nothing (R136). That they ask in the order of
the lanes is the model's choice, log entry 3: R136 says in whatever order they arrive. -/
def Obligations.CatalogRoomAndEntries : Prop :=
  (∀ (h : Hdr) (k : Nat) (expected : Option Nat) (s : State), s.link.credit = true →
     let u := settle s
     let done := fun t : State => exec (.catRelease h k expected) s = .next (renewCredit (choose t))
     let oldest := u.cat.entries.head?.map fun e => e.serial.toNat
     (4096 < k ∨ u.cat.entries.length < k → done (refuse h 26 .badArgument u)) ∧
     (k ≤ 4096 → k ≤ u.cat.entries.length → expected ≠ none → oldest ≠ expected → done (refuse h 26 .badState u)) ∧
     (k ≤ 4096 → k ≤ u.cat.entries.length → expected = none ∨ oldest = expected →
       (k = 0 → done (answer h 26 .ok (.count u.cat.entries.length) u)) ∧
       (0 < k → done (answer h 26 .ok (.count (u.cat.entries.length - k))
         (roomReport { u with cat := { u.cat with entries := u.cat.entries.drop k } }))))) ∧
  (∀ (n : LaneId) (i : CartId) (label : List Byte) (block : Nat) (runs : List Run) (s : State),
     let e : CatEntry :=
       { serial := s.cat.nextSerial, cart := i, label := label, block := block, lane := n, commitTime := s.ttu.time,
         runs := runs.map fun r => { stream := r.stream, first := r.first, last := r.last }, status := .unverified }
     let t : State := { s with cat := { s.cat with
       entries := s.cat.entries ++ [e]
       nextSerial := s.cat.nextSerial + 1
       places := s.cat.places.set n false } }
     (s.cat.entries.length + 1 ≠ 3584 → insertEntry n i label block runs s = t) ∧
     (∀ old, s.cat.entries.length + 1 = 3584 → s.cat.entries.head? = some old →
       insertEntry n i label block runs s = offerNotice (.catalogHigh 3584 old.serial (s.cat.nextSerial + 1)) t) ∧
     (s.cat.places[n] = true → askPlace n s = (true, s)) ∧
     (s.cat.places[n] = false → 0 < freeRoom s →
       askPlace n s = (true, { s with cat := { s.cat with places := s.cat.places.set n true, fullReported := false } })) ∧
     (s.cat.places[n] = false → freeRoom s = 0 → s.cat.fullReported = true → askPlace n s = (false, s)) ∧
     (s.cat.places[n] = false → freeRoom s = 0 → s.cat.fullReported = false →
       askPlace n s = (false, offerNotice (.catalogFull n s.cat.entries.length)
         { s with cat := { s.cat with fullReported := true } })) ∧
     (s.cat.places[n] = true →
       releasePlace n s = roomReport { s with cat := { s.cat with places := s.cat.places.set n false } }) ∧
     (s.cat.places[n] = false → releasePlace n s = s) ∧
     freeRoom s = 4096 - s.cat.entries.length - (s.cat.places.toList.filter id).length ∧
     (let holding := ([0, 1, 2, 3] : List LaneId).filter fun m => decide (s.lanes[m].holdReason = some .catalogFull)
      0 < freeRoom s → roomReport s = { s with due := s.due ++ holding.map Due.catalogHold }) ∧
     (freeRoom s = 0 → roomReport s = s))

/-! ## Compressor, assembly, expander and buffer pool -/

/-- The compressor takes, when IDLE, the first entry of the ready list that is eligible: its lane's open block has
room for it, or a new block has (R19, R20). The reservation is an open block's where the open block has room, else a
new block's (R21). With the engine busy or no entry eligible nothing is taken. Compression completes. An entry of an
ABORTED stream is discarded: its page is freed and its staged count falls (R12). Any other becomes a record: the
staged count falls, the uncommitted count rises, the stream's method counts follow (R22, R25), the page is freed, and
the record is placed into the stream's lane. A seal deferred by the reservation is then carried out (R51), the engine
becomes IDLE and takes again (R22), and the stream's resume and completion checks are made (R10, R12). With the engine
IDLE the event has no meaning (log entry 21). -/
def Obligations.CompressorTakesAndCompletes : Prop :=
  (∀ (s : State),
     let u := takeDue .compressorTake s
     let done := fun t : State => exec .compressorTake s = .next (choose t)
     let openFits := fun e : Entry =>
       let n := u.streams[e.stream].lane
       ∃ b, u.asm[n].openBlock = some b ∧ (b.records.map Record.size).sum + 4112 ≤ 65504 ∧
         ((∃ r ∈ b.runs, r.stream = e.stream) ∨ b.runs.length < 8)
     let newFits := fun e : Entry =>
       let n := u.streams[e.stream].lane
       u.pool.held.assembly[n] + 16 ≤ u.pool.quotas.assembly[n]
     (u.cmp.engine ≠ none → done u) ∧
     ((∀ e ∈ u.cmp.ready, ¬ openFits e ∧ ¬ newFits e) → done u) ∧
     (∀ (front : List Entry) (e : Entry) (rest : List Entry), u.cmp.engine = none → u.cmp.ready = front ++ e :: rest →
       (∀ x ∈ front, ¬ openFits x ∧ ¬ newFits x) →
       (openFits e → done { u with cmp := { ready := front ++ rest,
                                            engine := some { entry := e, reservation := .openRoom } } }) ∧
       (¬ openFits e → newFits e → done { u with cmp := { ready := front ++ rest,
                                                          engine := some { entry := e, reservation := .newRoom } } }))) ∧
  (∀ (s : State),
     let u := settle s
     let done := fun t : State => exec .compressionComplete s = .next (choose t)
     (u.cmp.engine = none → done u) ∧
     (∀ t, u.cmp.engine = some t →
       let e := t.entry
       let st := u.streams[e.stream]
       let pages := if e.raw.isSome = true then 1 else 0
       let after := fun v : State => checkComplete e.stream (checkResume e.stream
         (post .compressorTake (modCmp (fun c => { c with engine := none }) (deferredSeal st.lane v))))
       let record := formRecord e (decide (st.cls = .pack) && decide (st.skip = 0))
       (st.state = .aborted → done (after (freeIngest pages
         (modStream e.stream (fun st => { st with staged := st.staged - 1 }) u)))) ∧
       (st.state ≠ .aborted → done (after (placeRecord st.lane record (freeIngest pages
         (modStream e.stream (fun st => { methodCounts e record.method st with
           staged := st.staged - 1
           uncommitted := st.uncommitted + 1 }) u)))))))

/-- The record of an entry: an end entry gives an END record without bytes; a chunk is PACKED when packing is
attempted and its coded form is shorter than its bytes, and STORED otherwise; the digest is the CRC-32 of the bytes,
and the mark is the entry's (R24, R30). The counts of a PACK stream: skip remaining falls while it is above 0; a
PACKED record clears the stored run; the eighth STORED fallback in a row sets skip remaining to 64 (R25). A record is
placed in its lane's open block when its size and its stream fit; otherwise the block is sealed FULL or STREAM LIMIT
first, and a new block, with its 16 pages, is opened with it. Its size counts as inflow while the window timer runs. A
marked record seals the block that received it (R46, R47, R49, R78). A seal moves the open block to the tail of the
sealed queue with its cause, and then the write-start test, the hold test and the compressor's test fall due, after
the write claim of a lane that serves a verify pass (R48, R65, R73, R84). The seal-age timer seals the open block with
cause AGE once SEAL_AGE milliseconds have passed since it was opened. A seal asked for by age or by a flush is carried
out at once, unless the compressor holds a reservation on the block: then it waits with the block, MARK prevailing
over AGE, and is carried out at the completion (R50, R51). -/
def Obligations.RecordsPlacedAndSealed : Prop :=
  (∀ (i : StreamId) (q : Nat) (m : Mark) (bs : List Byte) (attempt : Bool) (method : Method) (st : Stream),
     formRecord { stream := i, seq := q, raw := none, mark := m } attempt =
       { stream := i, method := .endRec, rawLength := 0, seq := q, digest := 0, mark := m, payload := [] } ∧
     (let e : Entry := { stream := i, seq := q, raw := some bs, mark := m }
      let stored : Record := { stream := i, method := .stored, rawLength := bs.length, seq := q, digest := crc32 bs,
                               mark := m, payload := bs }
      formRecord e attempt =
        (if attempt = true ∧ (pack bs).length < bs.length then { stored with method := .packed, payload := pack bs }
         else stored) ∧
      (st.cls = .raw → methodCounts e method st = st) ∧
      (st.cls = .pack → 0 < st.skip → methodCounts e method st = { st with skip := st.skip - 1 }) ∧
      (st.cls = .pack → st.skip = 0 → method = .packed → methodCounts e method st = { st with storedRun := 0 }) ∧
      (st.cls = .pack → st.skip = 0 → method ≠ .packed → st.storedRun ≠ 7 →
        methodCounts e method st = { st with storedRun := st.storedRun + 1 }) ∧
      (st.cls = .pack → st.skip = 0 → method ≠ .packed → st.storedRun = 7 →
        methodCounts e method st = { st with storedRun := 0, skip := 64 }))) ∧
  (∀ (n : LaneId) (r : Record) (s : State),
     let count := fun v : State => modGov n (fun g => { g with
       inflow := if g.window.isSome = true then min 16777215 (g.inflow + (16 + r.payload.length)) else g.inflow }) v
     let finish := fun v : State => if r.mark = .none then count v else sealOpen n .mark (count v)
     let run : Run := { stream := r.stream, first := r.seq, last := r.seq, count := 1 }
     let fresh := fun v : State => modAsm n (fun a => { a with
       openBlock := some { records := [r], runs := [run], openedAt := v.ttu.time, deferred := none } })
       (modHeld (fun x => { x with assembly := upd x.assembly n (· + 16) }) v)
     (s.asm[n].openBlock = none → placeRecord n r s = finish (fresh s)) ∧
     (∀ b, s.asm[n].openBlock = some b →
       let fill := (b.records.map Record.size).sum
       let listed := ∃ x ∈ b.runs, x.stream = r.stream
       (65504 < fill + (16 + r.payload.length) → placeRecord n r s = finish (fresh (sealOpen n .full s))) ∧
       (fill + (16 + r.payload.length) ≤ 65504 → ¬ listed → 8 ≤ b.runs.length →
         placeRecord n r s = finish (fresh (sealOpen n .streamLimit s))) ∧
       (fill + (16 + r.payload.length) ≤ 65504 → ¬ listed → b.runs.length < 8 →
         placeRecord n r s = finish (modAsm n (fun a => { a with openBlock := some { b with
           records := b.records ++ [r]
           runs := b.runs ++ [run] } }) s)) ∧
       (fill + (16 + r.payload.length) ≤ 65504 → listed →
         placeRecord n r s = finish (modAsm n (fun a => { a with openBlock := some { b with
           records := b.records ++ [r]
           runs := b.runs.map fun x =>
             if x.stream = r.stream then { x with last := r.seq, count := x.count + 1 } else x } }) s)))) ∧
  (∀ (n : LaneId) (cause : SealCause) (s : State),
     (s.asm[n].openBlock = none → sealOpen n cause s = s) ∧
     (∀ b, s.asm[n].openBlock = some b → sealOpen n cause s =
       postFirst (.holdResume n) (postFirst (.writeStart n) (writeClaim n (post .compressorTake
         (modAsm n (fun a => { openBlock := none,
                               sealedQueue := a.sealedQueue ++ [{ records := b.records, runs := b.runs, cause := cause }] })
           s))))) ∧
     (let u := settle s
      let done := fun t : State => exec (.sealAgeExpiry n) s = .next (choose t)
      (u.asm[n].openBlock = none → done u) ∧
      (∀ b, u.asm[n].openBlock = some b →
        let old := u.settings.sealAge * 100 ≤ (u.ttu.time - b.openedAt).toNat
        let reserved := ∃ t, u.cmp.engine = some t ∧ t.reservation = .openRoom ∧ u.streams[t.entry.stream].lane = n
        (¬ old → done u) ∧
        (old → ¬ reserved → done (sealOpen n .age u)) ∧
        (old → reserved → done (modAsm n (fun a => { a with openBlock := some { b with
          deferred := some (if b.deferred = some .mark then .mark else .age) } }) u)))) ∧
     (let reserved := ∃ t, s.cmp.engine = some t ∧ t.reservation = .openRoom ∧ s.streams[t.entry.stream].lane = n
      (¬ reserved → askSeal n cause s = sealOpen n cause s) ∧
      (reserved → s.asm[n].openBlock = none → askSeal n cause s = s) ∧
      (∀ b, reserved → s.asm[n].openBlock = some b →
        askSeal n cause s = modAsm n (fun a => { a with openBlock := some { b with
          deferred := some (if b.deferred = some .mark then .mark else cause) } }) s)) ∧
     ((∀ b, s.asm[n].openBlock = some b → b.deferred = none) → deferredSeal n s = s) ∧
     (∀ b c, s.asm[n].openBlock = some b → b.deferred = some c → deferredSeal n s = sealOpen n c s))

/-- The expander takes, when IDLE, the restore's record, or else the record of the first verify slot after the lane it
served last (R31, R32); it empties the slot it takes from. The read waiting list is served from its front: the front
request is granted once the read region has room for its pages, leaves the list, and the next front is tested;
otherwise nothing is granted. A request withdrawn leaves the list, and the front is tested (R43). -/
def Obligations.ExpanderAndReadGrants : Prop :=
  (∀ (s : State),
     let u := takeDue .expanderTake s
     let done := fun t : State => exec .expanderTake s = .next (choose t)
     (u.exp.engine ≠ none → done u) ∧
     (∀ q, u.exp.engine = none → u.exp.restoreSlot = some q → done { u with exp := { u.exp with
       restoreSlot := none
       engine := some { client := .restore, request := q } } }) ∧
     (∀ (d : Nat) (q : ExpandRequest), u.exp.engine = none → u.exp.restoreSlot = none → 1 ≤ d → d ≤ 4 →
       let n : LaneId := u.exp.lastServed + Fin.ofNat 4 d
       (∀ d', 1 ≤ d' → d' < d → u.exp.verifySlots[u.exp.lastServed + Fin.ofNat 4 d'] = none) →
       u.exp.verifySlots[n] = some q →
       done { u with exp := { u.exp with
         verifySlots := u.exp.verifySlots.set n none
         lastServed := n
         engine := some { client := .verify n, request := q } } }) ∧
     (u.exp.engine = none → u.exp.restoreSlot = none → (∀ n : LaneId, u.exp.verifySlots[n] = none) → done u)) ∧
  (∀ (s : State),
     let u := takeDue .readGrant s
     let done := fun t : State => exec .readGrant s = .next (choose t)
     (u.pool.waiting = [] → done u) ∧
     (∀ w rest, u.pool.waiting = w :: rest →
       (u.pool.quotas.read < u.pool.held.read + w.pages → done u) ∧
       (u.pool.held.read + w.pages ≤ u.pool.quotas.read →
         let v : State := { u with pool := { u.pool with
           waiting := rest
           held := { u.pool.held with read := u.pool.held.read + w.pages } } }
         let x := match w.client with
           | .verify n => passRead n v
           | .restore => if w.pages = 1 then restoreOffer v else restoreRead v
         done (if rest = [] then x else post .readGrant x)))) ∧
  (∀ (c : ReadClient) (s : State),
     ((∃ w ∈ s.pool.waiting, w.client = c) → withdrawRead c s = { s with
       pool := { s.pool with waiting := s.pool.waiting.filter fun w => decide (w.client ≠ c) }
       due := s.due ++ [.readGrant] }) ∧
     ((∀ w ∈ s.pool.waiting, w.client ≠ c) → withdrawRead c s = s))

/-- An expansion completes: the engine becomes IDLE and tests again, and the outcome goes to the client. The outcome of
a record given up is discarded: its pages are freed, and a record that the client has held back meanwhile is offered
(R31, R36). A client places a record only when its slot is empty and no record of it is in expansion (R31). A client
that gives its block up keeps its pages with a record in expansion, or with one that waits on in its slot, and frees
them at once when it has neither; one that abandons its work empties its slot first (R31, R36, R37, R44; log entry 42).
A record expands GOOD with its bytes when its method and lengths are right, its coded form decodes, and its digest is
theirs; DAMAGED when only the digest differs; CORRUPT otherwise (R33, R34, R35). -/
def Obligations.ExpansionComplete : Prop :=
  ∀ (r : WalkedRecord) (s : State),
    let u := settle s
    let done := fun t : State => exec .expansionComplete s = .next (choose t)
    (u.exp.engine = none → done u) ∧
    (∀ x, u.exp.engine = some x →
      let idle := post .expanderTake { u with exp := { u.exp with engine := none } }
      let freed := freeRead x.request.keptPages idle
      (x.request.abandoned = true → x.client = .restore →
        (∀ c, u.rse.active = some c → c.stage = .output → c.outputPage = true → done (restoreOffer freed)) ∧
        ((∀ c, u.rse.active = some c → c.stage ≠ .output ∨ c.outputPage = false) → done freed)) ∧
      (∀ n, x.request.abandoned = true → x.client = .verify n →
        done (if u.vfy.contexts[n].stage = .check then passRecords n freed else freed)) ∧
      (x.request.abandoned = false → x.client = .restore →
        done (restoreOutcome x.request.record (expand x.request.record) idle)) ∧
      (∀ n, x.request.abandoned = false → x.client = .verify n →
        done (passOutcome n (expand x.request.record) idle))) ∧
    (∀ (c : ReadClient) (k : Nat),
      let slot := match c with
        | .restore => s.exp.restoreSlot
        | .verify n => s.exp.verifySlots[n]
      let filled := fun q : Option ExpandRequest => match c with
        | .restore => { s with exp := { s.exp with restoreSlot := q } }
        | .verify n => { s with exp := { s.exp with verifySlots := s.exp.verifySlots.set n q } }
      let free := fun (j : Nat) (v : State) => if j = 0 then v else { v with
        pool := { v.pool with held := { v.pool.held with read := v.pool.held.read - j } }
        due := v.due ++ [.readGrant] }
      let live := fun x : Expansion => x.client = c ∧ x.request.abandoned = false
      (clientBusy c s = true ↔ slot ≠ none ∨ ∃ x, s.exp.engine = some x ∧ x.client = c) ∧
      (∀ x, s.exp.engine = some x → live x → surrenderPages c k s = { s with exp := { s.exp with
        engine := some { x with request := { x.request with abandoned := true, keptPages := k } } } }) ∧
      ((∀ x, s.exp.engine = some x → ¬ live x) →
        (∀ q, slot = some q → q.abandoned = false →
          surrenderPages c k s = filled (some { q with abandoned := true, keptPages := k })) ∧
        ((∀ q, slot = some q → q.abandoned = true) → surrenderPages c k s = free k s) ∧
        (slot = none → abandonPages c k s = free k s) ∧
        (∀ q, slot = some q → abandonPages c k s = free k (free q.keptPages (filled none)))) ∧
      (slot = none → emptySlot c s = s) ∧
      (∀ q, slot = some q → emptySlot c s = free q.keptPages (filled none))) ∧
    (∀ bs, rawBytes r = some bs → crc32 bs = r.digest → expand r = .good bs) ∧
    (∀ bs, rawBytes r = some bs → crc32 bs ≠ r.digest → expand r = .damaged) ∧
    (rawBytes r = none → expand r = .corrupt) ∧
    (r.method = 0 ∨ 3 < r.method → rawBytes r = none) ∧
    (r.method = 3 → rawBytes r = if r.rawLength = 0 ∧ r.codedLength = 0 then some [] else none) ∧
    (r.method = 1 → rawBytes r =
      if 1 ≤ r.rawLength ∧ r.rawLength ≤ 4096 ∧ r.codedLength = r.rawLength then some r.payload else none) ∧
    (r.method = 2 → rawBytes r =
      if 1 ≤ r.codedLength ∧ r.codedLength < r.rawLength ∧ r.rawLength ≤ 4096 then
        unpack r.rawLength r.payload.length r.payload [] else none)

/-! ## Records and blocks read back -/

/-- A record made from a chunk of 1 to 4,096 bytes, packed or stored, expands GOOD to the chunk's bytes (R24 to R28
against R33 to R35): packing loses nothing, whatever the bytes. The items of a packed chunk: at each position a literal
where no earlier position has its hash or the latest such one differs in the first three bytes, else a copy from that
one of the greatest length up to 130; together they cover the chunk (R26, R27). Their coded form: runs of up to 128
literals, each ended by 128 literals, a copy or the chunk's end, and copies of three bytes (R28). Decoding item by item:
a run that is cut short or passes the raw length, a copy that is cut short, of distance 0, from before the first byte or
past the raw length, and too few bytes at the end are CORRUPT; a run appends its bytes, a copy repeats those its
distance before (R34). -/
def Obligations.RecordsExpandToTheirBytes : Prop :=
  (∀ (e : Entry) (bs : List Byte) (attempt : Bool), e.raw = some bs → 1 ≤ bs.length → bs.length ≤ 4096 →
     let r := formRecord e attempt
     r.payload.length ≤ bs.length ∧
     expand { stream := r.stream, method := r.method.code, rawLength := r.rawLength, codedLength := r.payload.length,
              seq := r.seq, digest := r.digest, payload := r.payload } = .good bs) ∧
  (∀ (bs : List Byte),
     let covers : Item → Nat := fun it =>
       match it with
       | .literal _ => 1
       | .copy _ n => n
     let byte := fun q : Nat => bs.getD q 0
     let hash := fun q : Nat => ((byte q).toNat * 33 + (byte (q + 1)).toNat * 5 + (byte (q + 2)).toNat) % 1024
     let agree := fun q p n : Nat => p + n ≤ bs.length ∧ ∀ j < n, byte (q + j) = byte (p + j)
     ((packItems bs).map covers).sum = bs.length ∧
     ∀ front it back, packItems bs = front ++ it :: back →
       let p := (front.map covers).sum
       let earlier := fun q : Nat => q < p ∧ p + 3 ≤ bs.length ∧ hash q = hash p
       let latest := fun q : Nat => earlier q ∧ ∀ r, earlier r → r ≤ q
       p < bs.length ∧
       ((∀ q, ¬ earlier q) → it = .literal (byte p)) ∧
       (∀ q, latest q → ¬ agree q p 3 → it = .literal (byte p)) ∧
       (∀ q, latest q → agree q p 3 → ∃ n, it = .copy (p - q) n ∧ 3 ≤ n ∧ n ≤ 130 ∧ agree q p n ∧
         (n = 130 ∨ ¬ agree q p (n + 1)))) ∧
  (∀ (bs run : List Byte) (d n : Nat) (rest : List Item),
     pack bs = codeItems (packItems bs) [] ∧
     codeItems [] [] = [] ∧
     codeItems (.copy d n :: rest) [] = be 1 (128 + (n - 3)) ++ be 2 d ++ codeItems rest [] ∧
     (1 ≤ run.length → run.length ≤ 128 → (run.length = 128 ∨ rest = [] ∨ ∃ d n more, rest = .copy d n :: more) →
       codeItems (run.map Item.literal ++ rest) [] = be 1 (run.length - 1) ++ run ++ codeItems rest [])) ∧
  (∀ (raw : Nat) (lead hi lo : Byte) (rest out : List Byte),
     let go := fun bs out : List Byte => unpack raw bs.length bs out
     (out.length < raw → go [] out = none) ∧
     (raw ≤ out.length → go [] out = some out) ∧
     (lead.toNat < 128 →
       let k := lead.toNat + 1
       (rest.length < k ∨ raw < out.length + k → go (lead :: rest) out = none) ∧
       (k ≤ rest.length → out.length + k ≤ raw → go (lead :: rest) out = go (rest.drop k) (out ++ rest.take k))) ∧
     (128 ≤ lead.toNat →
       let n := lead.toNat - 125
       let d := hi.toNat * 256 + lo.toNat
       (rest.length < 2 → go (lead :: rest) out = none) ∧
       (d = 0 ∨ out.length < d ∨ raw < out.length + n → go (lead :: hi :: lo :: rest) out = none) ∧
       (1 ≤ d → d ≤ out.length → out.length + n ≤ raw → ∃ grown : List Byte,
         go (lead :: hi :: lo :: rest) out = go rest grown ∧ grown.length = out.length + n ∧
         grown.take out.length = out ∧
         ∀ j < n, grown.getD (out.length + j) 0 = grown.getD (out.length + j - d) 0)))

/-- A sealed block within its limits, written as the 65,536 bytes of R194 and read back under the same label and
number, passes every test of R150 and gives its records in order (R150, R191, R194). The tests are made in order, and
the first that fails gives the reason: READ_FAILED without a block; CHECK when the CRC over the block, its bytes 12 to
15 counted as 0, is not the check held there; HEADER when the label or the block number is another; LAYOUT when the
record walk fails. The walk succeeds exactly when the header has 1 to 8 runs of distinct streams of at most 31 and a
record count of at least 1, and that many records stand one after another from byte 32 within the block, each a header
of 16 bytes and a payload of its coded length, at most 4,096, of a listed stream and numbered 1 above the previous
record of its stream, with at least one record of every listed stream; it then gives those records (R150, R191, R194).
-/
def Obligations.BlocksReadBack : Prop :=
  (∀ (label : List Byte) (number : Nat) (lane : LaneId) (b : SealedBlock),
    label.length = 8 → number < 4294967296 → b.records ≠ [] → b.records.length ≤ 4094 →
    (b.records.map Record.size).sum ≤ 65504 →
    1 ≤ b.runs.length → b.runs.length ≤ 8 → (b.runs.map Run.stream).Nodup →
    (∀ r ∈ b.records, r.payload.length ≤ 4096 ∧ r.rawLength < 65536 ∧ r.seq < 4294967296 ∧
      r.stream ∈ b.runs.map Run.stream) →
    (∀ x ∈ b.runs, ∃ r ∈ b.records, r.stream = x.stream) →
    (∀ i : StreamId, List.IsChain (fun p q : Nat => q = p + 1)
      ((b.records.filter fun r => decide (r.stream = i)).map Record.seq)) →
    (blockImage label number lane b).length = 65536 ∧
    testBlock (some (blockImage label number lane b)) label number = .ok (b.records.map fun r =>
      { stream := r.stream, method := r.method.code, rawLength := r.rawLength, codedLength := r.payload.length,
        seq := r.seq, digest := r.digest, payload := r.payload })) ∧
  (∀ (block label : List Byte) (number : Nat), label.length = 8 →
    let numberAt := fun (l : List Byte) (k w : Nat) => ofBe ((l.drop k).take w)
    let checked := crc32 (block.take 12 ++ [0, 0, 0, 0] ++ block.drop 16) = BitVec.ofNat 32 (numberAt block 12 4)
    let named := block.take 8 = label ∧ numberAt block 8 4 = number
    let runs := numberAt block 17 1
    let listed := ((block.drop 20).take runs).map BitVec.toNat
    let walks := fun rs : List WalkedRecord =>
      1 ≤ runs ∧ runs ≤ 8 ∧ listed.Nodup ∧ (∀ i ∈ listed, i ≤ 31) ∧ 1 ≤ rs.length ∧ rs.length = numberAt block 18 2 ∧
      (∃ parts : List (List Byte), parts.flatten <+: block.drop 32 ∧
        List.Forall₂ (fun (p : List Byte) (r : WalkedRecord) =>
          p.length = 16 + r.codedLength ∧ r.codedLength ≤ 4096 ∧
          r = { stream := numberAt p 0 1, method := numberAt p 1 1, rawLength := numberAt p 4 2,
                codedLength := numberAt p 6 2, seq := numberAt p 8 4, digest := BitVec.ofNat 32 (numberAt p 12 4),
                payload := p.drop 16 }) parts rs) ∧
      (∀ r ∈ rs, r.stream ∈ listed) ∧
      (∀ i ∈ listed, (∃ r ∈ rs, r.stream = i) ∧
        List.IsChain (fun p q : Nat => q = p + 1) ((rs.filter fun r => decide (r.stream = i)).map WalkedRecord.seq))
    testBlock none label number = .error .readFailed ∧
    (¬ checked → testBlock (some block) label number = .error .check) ∧
    (checked → ¬ named → testBlock (some block) label number = .error .header) ∧
    (checked → named →
      (∀ rs, walks rs → testBlock (some block) label number = .ok rs) ∧
      ((∀ rs, ¬ walks rs) → testBlock (some block) label number = .error .layout)))

/-! ## Drive lanes -/

/-- LANE_EJECT is carried out in READY with pending claim none, in HOLD and in UNKNOWN_MEDIA: EJECT is sent and the
lane becomes UNLOADING, remembering that the server began the eject; elsewhere it is refused with BUSY while a command
is in flight, and with BAD_STATE otherwise (R64). LANE_RESET is carried out in every state: the lane is OFFLINE with
no command, no claim, no activity and no place, keeps its role, allowance, fill wanted and assembly, its mounted
cartridge needs a locate and no other record changes, and the other lanes and governors stay as they are (R75). Its
governor is at 0 in every field, the rate meter's too (R89; log entry 14 on the meter's exponent). A restore that reads
on the lane, or whose claim is pending there (log entry 29), is told: a first time it gives up its block and its lane
and goes back to FINDING, a second time it ends; any other restore stays as it is (R75, R168). A lane above 3 is
refused with BAD_ARGUMENT. -/
def Obligations.LaneEjectAndReset : Prop :=
  ∀ (h : Hdr) (s : State), s.link.credit = true →
    let u := settle s
    let ejectIs := fun t : State => exec (.laneEject h) s = .next (renewCredit (choose t))
    let resetIs := fun t : State => exec (.laneReset h) s = .next (renewCredit (choose t))
    (3 < h.subject → ejectIs (refuse h 9 .badArgument u) ∧ resetIs (refuse h 10 .badArgument u)) ∧
    (∀ n : LaneId, h.subject = n →
      let l := u.lanes[n]
      let may := (l.state = .ready ∧ l.claim = .none) ∨ l.state = .hold ∨ l.state = .unknownMedia
      (may → ∃ t, ejectIs t ∧
        t = sendEject n (modLane n (fun l => { l with serverEject := true }) (answer h 9 .ok .none u)) ∧ t.lanes[n].state = .unloading ∧
        t.lanes[n].command = some { command := .eject, sentAt := u.ttu.time, limit := u.settings.laneTimeout * 100000 } ∧
        t.vfy.contexts[n].state = .idle ∧ t.asm = u.asm) ∧
      (¬ may → l.command ≠ none → ejectIs (refuse h 9 .busy u)) ∧
      (¬ may → l.command = none → ejectIs (refuse h 9 .badState u)) ∧
      (∃ t, resetIs t ∧ t = laneReset n (answer h 10 .ok .none u) ∧
        t.lanes[n] = { Lane.reset with role := l.role, allowance := l.allowance, fillWanted := l.fillWanted,
                                       pickNoRoom := l.pickNoRoom } ∧
        t.lanes[n].state = .offline ∧ t.cat.places[n] = false ∧ t.vfy.contexts[n].state = .idle ∧ t.asm = u.asm ∧
        t.gov[n] = { smoothed := 0, step := 0, stable := 0, window := none, inflow := 0, repositions := 0, delivered := 0,
                     meter := { inflow := 0, delivered := 0, repositions := 0, exponent := 0 }, starve := 0,
                     repositionTotal := 0 } ∧
        (∀ m : LaneId, m ≠ n → t.gov[m] = u.gov[m]) ∧
        (let on := ∃ c, u.rse.active = some c ∧ c.lane = some n ∧
           ((l.activity = .restore ∧ l.releasing = false) ∨ l.claim = .restore)
         (¬ on → t.rse = u.rse) ∧
         (∀ c, on → u.rse.active = some c → t.rse.queue = u.rse.queue ∧
           (c.laneFaults = 0 → .restoreGo ∈ t.due ∧ t.rse.active = some { c with
             state := .finding
             lane := none
             laneFaults := 1
             stage := .start
             todo := []
             damage := none
             pages := false
             outputPage := false
             segment := none }) ∧
           (c.laneFaults ≠ 0 → .restoreActivate ∈ t.due ∧ t.rse.active = none))) ∧
        (∀ i : CartId, t.cdr.records[i] =
          if l.mounted = some i then u.cdr.records[i].map (fun c => { c with needsLocate := true })
          else u.cdr.records[i]) ∧
        t.cdr.map = u.cdr.map ∧ (∀ m : LaneId, m ≠ n → t.lanes[m] = u.lanes[m])))

/-- The drive's own reports. PRESENT is taken in OFFLINE only: without a cartridge the lane becomes EMPTY; with one it
threads if a record stands at its bay and is UNKNOWN_MEDIA otherwise. A lane that threads sends THREAD with its limit,
is LOADING and clears fill wanted (R61, R62). ABSENT outside OFFLINE faults the lane with
MECHANISM (R61). REPOSITION is counted in the total and, while the window timer runs, in the window, and has no other
effect (R60, R78). A command whose deadline is reached faults the lane with TIMEOUT and makes the tape position absent
(R59, R60). A lane that enters FAULT holds its code, no command, no claim, no activity and no catalog place; its
mounted cartridge, still recorded, needs a locate and no other record changes; its pass is ended; its assembly, its
governor's step and the other lanes stay as they are; LANE_FAULT is offered as a notice, and it is raised as an event
(R63, R70). A restore that reads on the lane, or whose claim is pending there (log entry 29), is told: a first time it
gives up its block and its lane and goes back to FINDING, a second time it ends; any other restore stays (R63, R168). -/
def Obligations.DriveReportsAndFaults : Prop :=
  (∀ (n : LaneId) (cartridge : Bool) (s : State),
     let u := settle s
     let l := u.lanes[n]
     let presentIs := fun t : State => exec (.drivePresent n cartridge) s = .next (choose t)
     (l.state ≠ .offline → presentIs u) ∧
     (l.state = .offline → cartridge = false → presentIs (setLaneState n .empty u)) ∧
     (l.state = .offline → cartridge = true → namedAt (.bay n) u ≠ none → presentIs (sendThread n u)) ∧
     (l.state = .offline → cartridge = true → namedAt (.bay n) u = none → presentIs (setLaneState n .unknownMedia u)) ∧
     sendThread n s = setLaneState n .loading { s with lanes := upd s.lanes n fun l => { l with
       fillWanted := false
       pickNoRoom := false
       command := some { command := .thread, sentAt := s.ttu.time, limit := s.settings.laneTimeout * 100000 } } } ∧
     exec (.driveAbsent n) s = .next (choose (if l.state = .offline then u else enterFault n .mechanism u)) ∧
     exec (.reposition n) s = .next (choose { u with gov := upd u.gov n fun g => { g with
       repositions := if g.window.isSome = true then min 255 (g.repositions + 1) else g.repositions
       repositionTotal := min 65535 (g.repositionTotal + 1) } }) ∧
     (l.command = none → exec (.commandTimeout n) s = .next (choose u)) ∧
     (∀ f, l.command = some f →
       (f.limit ≤ (u.ttu.time - f.sentAt).toNat → exec (.commandTimeout n) s = .next (choose (enterFault n .timeout
         { u with lanes := upd u.lanes n fun l => { l with tapePosition := none } }))) ∧
       ((u.ttu.time - f.sentAt).toNat < f.limit → exec (.commandTimeout n) s = .next (choose u)))) ∧
  (∀ (n : LaneId) (code : FaultCode) (s : State),
     let t := enterFault n code s
     t.lanes[n].state = .fault ∧ t.lanes[n].faultCode = some code ∧ t.lanes[n].command = none ∧
     t.lanes[n].claim = .none ∧ t.lanes[n].activity = .none ∧ t.lanes[n].mounted = s.lanes[n].mounted ∧
     t.lanes[n].role = s.lanes[n].role ∧ t.lanes[n].allowance = s.lanes[n].allowance ∧
     t.cat.places[n] = false ∧ t.cat.entries = s.cat.entries ∧ t.vfy.contexts[n].state = .idle ∧
     t.asm = s.asm ∧ t.gov[n].step = s.gov[n].step ∧ t.gov[n].window = none ∧
     (∀ m : LaneId, m ≠ n → t.lanes[m] = s.lanes[m]) ∧
     (∀ i : CartId, t.cdr.records[i] =
       if s.lanes[n].mounted = some i then s.cdr.records[i].map (fun c => { c with needsLocate := true })
       else s.cdr.records[i]) ∧
     .event { kind := .laneFault, qual := some n.val } ∈ t.due ∧
     (let on := ∃ c, s.rse.active = some c ∧ c.lane = some n ∧
        ((s.lanes[n].activity = .restore ∧ s.lanes[n].releasing = false) ∨ s.lanes[n].claim = .restore)
      (¬ on → t.rse = s.rse) ∧
      (∀ c, on → s.rse.active = some c → t.rse.queue = s.rse.queue ∧
        (c.laneFaults = 0 → .restoreGo ∈ t.due ∧ t.rse.active = some { c with
          state := .finding
          lane := none
          laneFaults := 1
          stage := .start
          todo := []
          damage := none
          pages := false
          outputPage := false
          segment := none }) ∧
        (c.laneFaults ≠ 0 → .restoreActivate ∈ t.due ∧ t.rse.active = none))) ∧
     (∃ v, t = offerNotice (.laneFault n code s.lanes[n].mounted) v))

/-- An answer of the drive for which no command of its kind is in flight is discarded and changes nothing: where no
command at all is in flight R59 says so, where another is it is the model's choice (log entry 9). THREAD, LOCATE and
EJECT answered (R60, R62, R65, R71, R72). THREAD DONE sets the tape position to 0, forgets the drive step, and mounts
the record at the bay, READY with its write-start test or granted to a pending restore claim; with no record the lane
is UNKNOWN_MEDIA. LOCATE DONE sets the tape position to the block and goes on with the write or the read. EJECT DONE
makes the lane EJECTED with position, step and allowance absent, tells a loader that waits for it, and a WRITE lane
with a FULL cartridge then sets fill wanted and asks for a pick, but not after an eject that the server asked for (R64,
R71; log entry 45). A FAIL faults the lane with the code of Table 11. Whatever the command, a FAIL or a timeout leaves
no command in flight and the tape position absent, and the lane is in FAULT with the code (R60, R63). -/
def Obligations.ThreadLocateEjectAnswers : Prop :=
  (∀ (n : LaneId) (early : Bool) (r : FailReason) (block : List Byte) (s : State),
     let u := settle s
     let kind := u.lanes[n].command.map InFlight.command
     let discarded := fun c : Instr => exec c s = .next (choose u)
     (kind ≠ some .thread → discarded (.threadDone n) ∧ discarded (.threadFail n r)) ∧
     ((∀ b p, kind ≠ some (.locate b p)) → discarded (.locateDone n) ∧ discarded (.locateFail n r)) ∧
     ((∀ b, kind ≠ some (.write b)) →
       discarded (.writeDone n early) ∧ discarded (.writeMediaEnd n) ∧ discarded (.writeFail n r)) ∧
     ((∀ b, kind ≠ some (.read b)) → discarded (.readDone n block) ∧ discarded (.readFail n r)) ∧
     ((∀ k, kind ≠ some (.step k)) → discarded (.stepDone n) ∧ discarded (.stepFail n r)) ∧
     (kind ≠ some .eject → discarded (.ejectDone n) ∧ discarded (.ejectFail n r))) ∧
  (∀ (n : LaneId) (r : FailReason) (s : State),
     let u := settle s
     let kind := u.lanes[n].command.map InFlight.command
     let onLane := fun (f : Lane → Lane) => { u with lanes := upd u.lanes n fun l => { f l with command := none } }
     (kind = some .thread →
       (∀ i, namedAt (.bay n) u = some i →
         let v := onLane fun l => { l with tapePosition := some 0, driveStep := none, mounted := some i }
         (u.lanes[n].claim = .restore → exec (.threadDone n) s = .next (choose (grantRestore n v))) ∧
         (u.lanes[n].claim ≠ .restore →
           exec (.threadDone n) s = .next (choose (postFirst (.writeStart n) (setLaneState n .ready v))))) ∧
       (namedAt (.bay n) u = none → exec (.threadDone n) s = .next (choose (setLaneState n .unknownMedia
         (onLane fun l => { l with tapePosition := some 0, driveStep := none, mounted := none })))) ∧
       exec (.threadFail n r) s = .next (choose (failCommand n (if r = .loadError then .loadFail else .mechanism) u))) ∧
     (∀ b p, kind = some (.locate b p) →
       let v := onLane fun l => { l with tapePosition := some b }
       (p = .write → exec (.locateDone n) s = .next (choose (
         let w := setNeedsLocate n false v
         if u.lanes[n].claim = .restore then grantRestore n w else sendHead n (setLaneState n .writing w)))) ∧
       (p = .read → u.lanes[n].releasing = false → exec (.locateDone n) s = .next (choose (post (.readAgain n)
         (sendCommand n (.read b) (setLaneState n .reading v))))) ∧
       (p = .read → u.lanes[n].releasing = true →
         exec (.locateDone n) s = .next (choose (post (.readAgain n) (locatedRead n b v)))) ∧
       exec (.locateFail n r) s = .next (choose (failCommand n
         (if r = .readError ∨ r = .mediaEnd then .readFail else .mechanism) u))) ∧
     (kind = some .eject →
       (let v := ejectAgain n (setLaneState n .ejected (onLane fun l => { l with
          tapePosition := none
          driveStep := none
          allowance := none
          ejectPending := false
          serverEject := false }))
        exec (.ejectDone n) s = .next (choose (if u.lanes[n].serverEject = true then v else fillTest n v))) ∧
       (∀ v : State,
         (∀ p i c, v.lanes[n].role = .write p → v.lanes[n].mounted = some i → v.cdr.records[i] = some c →
           (c.state = .full → fillTest n v = { v with
             lanes := upd v.lanes n fun l => { l with fillWanted := true }
             due := v.due ++ [.scratchPick n] }) ∧
           (c.state ≠ .full → fillTest n v = v)) ∧
         (v.lanes[n].role = .read ∨ v.lanes[n].mounted = none → fillTest n v = v)) ∧
       exec (.ejectFail n r) s = .next (choose (failCommand n (if r = .loadError then .loadFail else .mechanism) u)))) ∧
  (∀ (n : LaneId) (code : FaultCode) (s : State),
     let t := failCommand n code s
     t = enterFault n code { s with lanes := upd s.lanes n fun l => { l with tapePosition := none } } ∧
     t.lanes = upd s.lanes n fun l => { l with
       state := .fault
       faultCode := some code
       tapePosition := none
       command := none
       claim := .none
       activity := .none
       holdReason := none
       serverEject := false
       readBlock := none
       releasing := false
       discard := false })

/-- WRITE and STEP answered (R60, R67 to R70, R81). WRITE DONE commits the head under the number it was sent with,
applies the early warning and goes on. MEDIA_END commits nothing, gives up the place and ends the cartridge, also where
it comes as the reason of a WRITE_FAIL (Table 11; log entry 26); any other FAIL makes the cartridge SUSPECT and faults
the lane with WRITE_FAIL. STEP DONE records the step and sends the head; STEP FAIL faults the lane with MECHANISM. What
a commit of the head of a lane's sealed queue does (R13, R67, R105, R134, R135): the mounted cartridge's end of data
rises by 1, SCRATCH becoming FILLING; the block joins the catalog with the next serial and uses the place, with
CATALOG_HIGH at the entry that makes 3,584; the tape position is the new end of data and needs locate is clear; every
stream of a block that lists it once hears its record count and its last sequence (log entry 3); the head leaves the
queue, its 16 pages are freed, and 65,536 bytes count as delivered while the window timer runs (R78). In the stream's
span list the last span grows to the block when it is on the same cartridge; otherwise a span of the block is added,
and when the list holds four already the oldest is dropped and the overflow flag is set (R13). An end of data never
passes 4,294,967,295: a commit that reaches it makes a SCRATCH or FILLING cartridge FULL, and one that begins there
leaves it (R90, R105; log entry 11 for the second). What follows the commit (R67, R68, R69): the first early warning
sets the allowance to the blocks that wait and raises LANE_EW, and each later commit lowers it by 1; when it is 0, or
no block waits, or a FULL cartridge has reached the limit, the cartridge is ended: FULL, the allowance absent,
CARTRIDGE_FULL and LANE_FULL, and the lane ejects, or sets eject pending and grants a pending restore claim first;
otherwise a pending restore claim is granted, the next block is sent, or the lane enters HOLD with reason QUEUE_EMPTY.
-/
def Obligations.WriteAnswersAndCommit : Prop :=
  (∀ (n : LaneId) (early : Bool) (r : FailReason) (s : State),
     let u := settle s
     let kind := u.lanes[n].command.map InFlight.command
     let answered := { u with lanes := upd u.lanes n fun l => { l with command := none } }
     let mediaEnd := endCartridge n (releasePlace n
       { u with lanes := upd u.lanes n fun l => { l with command := none, tapePosition := none } })
     (∀ b, kind = some (.write b) →
       exec (.writeDone n early) s = .next (choose (continueWriting n (earlyWarning n early (commitHead n b answered)))) ∧
       exec (.writeMediaEnd n) s = .next (choose mediaEnd) ∧
       (r = .mediaEnd → exec (.writeFail n r) s = .next (choose mediaEnd)) ∧
       (r ≠ .mediaEnd → u.lanes[n].mounted = none →
         exec (.writeFail n r) s = .next (choose (failCommand n .writeFail u))) ∧
       (∀ i c, r ≠ .mediaEnd → u.lanes[n].mounted = some i → u.cdr.records[i] = some c →
         exec (.writeFail n r) s = .next (choose (failCommand n .writeFail
           { u with cdr := { u.cdr with records := u.cdr.records.set i (some { c with state := .suspect }) } })))) ∧
     (∀ k, kind = some (.step k) →
       exec (.stepDone n) s = .next (choose (sendHead n
         { u with lanes := upd u.lanes n fun l => { l with command := none, driveStep := some k } })) ∧
       exec (.stepFail n r) s = .next (choose (failCommand n .mechanism u)))) ∧
  (∀ (n : LaneId) (b : Nat) (i : CartId) (c : Cart) (head : SealedBlock) (rest : List SealedBlock) (s : State),
     s.lanes[n].mounted = some i → s.cdr.records[i] = some c → s.asm[n].sealedQueue = head :: rest →
     (head.runs.map Run.stream).Nodup →
     let t := commitHead n b s
     let eod := min 4294967295 (c.endOfData + 1)
     let state : CartState := if c.state = .scratch then .filling else c.state
     let entry : CatEntry :=
       { serial := s.cat.nextSerial, cart := i, label := c.label, block := b, lane := n, commitTime := s.ttu.time,
         runs := head.runs.map fun r => { stream := r.stream, first := r.first, last := r.last }, status := .unverified }
     t.cdr.records[i] = some { c with endOfData := eod
                                      state := if eod = 4294967295 ∧ state = .filling then .full else state
                                      needsLocate := false } ∧
     (∀ j : CartId, j ≠ i → t.cdr.records[j] = s.cdr.records[j]) ∧ t.cdr.map = s.cdr.map ∧
     t.cat.entries = s.cat.entries ++ [entry] ∧
     t.cat.nextSerial = s.cat.nextSerial + 1 ∧ t.cat.places[n] = false ∧
     (s.cat.entries.length ≠ 3583 → t.link = s.link) ∧
     (∀ old, s.cat.entries.length = 3583 → s.cat.entries.head? = some old →
       t.link = (offerNotice (.catalogHigh 3584 old.serial (s.cat.nextSerial + 1)) s).link) ∧
     t.lanes = upd s.lanes n (fun l => { l with tapePosition := some eod }) ∧
     t.asm = upd s.asm n (fun a => { a with sealedQueue := rest }) ∧
     t.pool.held = { s.pool.held with assembly := upd s.pool.held.assembly n (· - 16) } ∧
     t.gov = upd s.gov n (fun g => { g with
       delivered := if g.window.isSome = true then min 4294967295 (g.delivered + 65536) else g.delivered }) ∧
     (∀ r ∈ head.runs,
       let st := s.streams[r.stream]
       let span : Span := { cart := i, first := b, last := b }
       let heard := fun (spans : List Span) (overflow : Bool) => t.streams[r.stream] = { st with
         uncommitted := st.uncommitted - r.count
         lastCommitted := some r.last
         spans := spans
         spanOverflow := overflow }
       (∀ front sp, st.spans = front ++ [sp] → sp.cart = i → heard (front ++ [{ sp with last := b }]) st.spanOverflow) ∧
       ((∀ sp, st.spans.getLast? = some sp → sp.cart ≠ i) →
         (st.spans.length < 4 → heard (st.spans ++ [span]) st.spanOverflow) ∧
         (4 ≤ st.spans.length → heard (st.spans.tail ++ [span]) true))) ∧
     (∀ k : StreamId, k ∉ head.runs.map Run.stream → t.streams[k] = s.streams[k])) ∧
  (∀ (n : LaneId) (early : Bool) (s : State),
     let l := s.lanes[n]
     let allow := fun (k : Nat) (v : State) => { v with lanes := upd v.lanes n fun l => { l with allowance := some k } }
     let event := fun (k : EventKind) (v : State) =>
       { v with due := v.due ++ [.event { kind := k, qual := some n.val }] }
     let spent := ∃ k, l.allowance = some k ∧ (k = 0 ∨ s.asm[n].sealedQueue = [])
     let atLimit := ∃ i c, l.mounted = some i ∧ s.cdr.records[i] = some c ∧ c.endOfData = 4294967295 ∧ c.state = .full
     (∀ k, l.allowance = some k → earlyWarning n early s = allow (k - 1) s) ∧
     (l.allowance = none → early = true →
       earlyWarning n early s = event .laneEw (allow s.asm[n].sealedQueue.length s)) ∧
     (l.allowance = none → early = false → earlyWarning n early s = s) ∧
     (spent ∨ atLimit → continueWriting n s = endCartridge n s) ∧
     (¬ spent → ¬ atLimit →
       (l.claim = .restore → continueWriting n s = grantRestore n s) ∧
       (l.claim ≠ .restore → s.asm[n].sealedQueue = [] → continueWriting n s = enterHold n .queueEmpty s) ∧
       (l.claim ≠ .restore → s.asm[n].sealedQueue ≠ [] → continueWriting n s = sendHead n s)) ∧
     (∀ i c, l.mounted = some i → s.cdr.records[i] = some c →
       let full : State := { s with
         cdr := { s.cdr with records := s.cdr.records.set i (some { c with
           state := if c.state = .scratch ∨ c.state = .filling then .full else c.state }) }
         lanes := upd s.lanes n fun l => { l with allowance := none } }
       let told := event .laneFull (offerNotice (.cartridgeFull n i c.label c.endOfData) full)
       (l.claim = .restore → endCartridge n s =
         grantRestore n { told with lanes := upd told.lanes n fun l => { l with ejectPending := true } }) ∧
       (l.claim ≠ .restore → endCartridge n s = sendEject n told)))

/-- READ answered (R60, R72, R74). DONE gives the block to the client whose activity the lane serves, with the tape
position after the block, also where the block is then dropped (log entry 35); READ_ERROR and MEDIA_END tell the client
that the read failed, with the position absent; an answer for a client that has withdrawn is dropped; then a release
that waited takes effect. Any other FAIL faults the lane with MECHANISM. A client's request for a block is refused while
a command is in flight; otherwise the lane sends READ when its tape position is the block, and LOCATE first, LOCATING,
when it is not (R59, R72). -/
def Obligations.ReadAnswers : Prop :=
  (∀ (n : LaneId) (b : Nat) (r : FailReason) (block : List Byte) (s : State),
    let u := settle s
    u.lanes[n].command.map InFlight.command = some (.read b) →
    let after := fun (position : Option Nat) (read : Option (List Byte)) =>
      let v := { u with lanes := upd u.lanes n fun l => { l with
        command := none
        tapePosition := position
        readBlock := none } }
      let told := if u.lanes[n].discard = true then modLane n (fun l => { l with discard := false }) v
        else if u.lanes[n].activity = .verify then passBlock n read v
        else if u.lanes[n].activity = .restore then restoreBlock read v
        else v
      post (.readAgain n) (if told.lanes[n].releasing = true then doRelease n told else told)
    exec (.readDone n block) s = .next (choose (after (some (b + 1)) (some block))) ∧
    (r = .readError ∨ r = .mediaEnd → exec (.readFail n r) s = .next (choose (after none none))) ∧
    (r ≠ .readError → r ≠ .mediaEnd → exec (.readFail n r) s = .next (choose (failCommand n .mechanism u)))) ∧
  (∀ (n : LaneId) (b : Nat) (s : State),
    let l := s.lanes[n]
    let sent := fun c : DriveCommand => { s with lanes := upd s.lanes n fun l => { l with
      readBlock := some b
      command := some { command := c, sentAt := s.ttu.time, limit := s.settings.laneTimeout * 100000 } } }
    (l.command ≠ none → laneRead n b s = s) ∧
    (l.command = none → l.tapePosition = some b → laneRead n b s = sent (.read b)) ∧
    (l.command = none → l.tapePosition ≠ some b → laneRead n b s = setLaneState n .locating (sent (.locate b .read))))

/-- The tests of a lane that may write. The write-start test passes on a WRITE lane that is READY with no claim and no
eject pending, whose cartridge is SCRATCH or FILLING and of its pool, and whose sealed queue is not empty (R65). A
lane in HOLD with reason QUEUE_EMPTY resumes at the effective resume mark, with a mark-sealed block, or with a record
of a FLUSHING or ABORTED stream (R84); one with reason CATALOG_FULL once the catalog grants it a place (R85). Then the
lane writes if its position is known and locates to end of data otherwise. A WRITING lane sends its head (R66, R81): a
pending restore claim is granted instead; a catalog place is asked for, and refused the lane enters HOLD with reason
CATALOG_FULL; STEP goes first while the drive's step is not the governor's; then WRITE goes with the cartridge's end
of data as block number, the tape position absent until the answer. A lane that enters HOLD has its reason and raises
LANE_HOLD (R83). -/
def Obligations.WriteTests : Prop :=
  ∀ (n : LaneId) (s : State),
    let go := fun v : State =>
      match v.lanes[n].mounted.bind fun i => v.cdr.records[i] with
      | none => v
      | some c =>
        if v.lanes[n].tapePosition = some c.endOfData ∧ c.needsLocate = false then sendHead n (setLaneState n .writing v)
        else setLaneState n .locating (sendCommand n (.locate c.endOfData .write) v)
    (let u := takeDue (.writeStart n) s
     let passes := ∃ p i c, u.lanes[n].role = .write p ∧ u.lanes[n].state = .ready ∧ u.lanes[n].claim = .none ∧
       u.lanes[n].ejectPending = false ∧ u.lanes[n].mounted = some i ∧ u.cdr.records[i] = some c ∧
       (c.state = .scratch ∨ c.state = .filling) ∧ c.pool = p ∧ u.asm[n].sealedQueue ≠ []
     (passes → exec (.writeStartTest n) s = .next (choose (go u))) ∧
     (¬ passes → exec (.writeStartTest n) s = .next (choose u))) ∧
    (let u := takeDue (.holdResume n) s
     let passes := u.lanes[n].holdReason = some .queueEmpty ∧
       (min u.settings.resumeMark (u.pool.quotas.assembly[n] / 16) ≤ u.asm[n].sealedQueue.length ∨
        ∃ b ∈ u.asm[n].sealedQueue, b.cause = .mark ∨
          ∃ r ∈ b.runs, u.streams[r.stream].state = .flushing ∨ u.streams[r.stream].state = .aborted)
     (passes → exec (.holdResume n) s = .next (choose (go u))) ∧
     (¬ passes → exec (.holdResume n) s = .next (choose u))) ∧
    (let u := takeDue (.catalogHold n) s
     let a := askPlace n u
     (u.lanes[n].holdReason ≠ some .catalogFull → exec (.catalogHoldResume n) s = .next (choose u)) ∧
     (u.lanes[n].holdReason = some .catalogFull → a.1 = true →
       exec (.catalogHoldResume n) s = .next (choose (go a.2))) ∧
     (u.lanes[n].holdReason = some .catalogFull → a.1 = false →
       exec (.catalogHoldResume n) s = .next (choose a.2))) ∧
    (let l := s.lanes[n]
     let a := askPlace n s
     let send := fun (c : DriveCommand) (l : Lane) =>
       { l with command := some { command := c, sentAt := s.ttu.time, limit := s.settings.laneTimeout * 100000 } }
     (l.claim = .restore → sendHead n s = grantRestore n s) ∧
     (l.claim ≠ .restore → a.1 = false → sendHead n s = enterHold n .catalogFull a.2) ∧
     (l.claim ≠ .restore → a.1 = true →
       (l.driveStep ≠ some s.gov[n].step →
         sendHead n s = { a.2 with lanes := upd a.2.lanes n (send (.step s.gov[n].step)) }) ∧
       (∀ i c, l.driveStep = some s.gov[n].step → l.mounted = some i → s.cdr.records[i] = some c →
         sendHead n s = { a.2 with lanes := upd a.2.lanes n (fun l =>
           send (.write c.endOfData) { l with tapePosition := none }) })) ∧
     (∀ r, let t := enterHold n r s
       t.lanes[n] = { l with state := .hold, holdReason := some r } ∧ t.asm = s.asm ∧ t.gov = s.gov ∧
       .event { kind := .laneHold, qual := some n.val } ∈ t.due ∧ ∀ m : LaneId, m ≠ n → t.lanes[m] = s.lanes[m]))

/-- A window ends when 2^w ticks have passed since it started: the smoothed inflow moves by a quarter of its distance
to the window's inflow, rounded down; the target is the largest step whose demand, rate times 2^w, is at most the
smoothed inflow and an eighth of the queued bytes, or 0; the step falls by 1 at the reposition limit, or moves by 1
toward a target that has differed for the second window; the meter holds the window's figures and a new window starts
(R77, R79, R80, R88). A lane that enters a state leaves any hold reason. The window timer starts afresh, its counts at
0, at each entry into WRITING, runs on in HOLD, and is stopped and its window discarded in every other state (R77). The
change is reported to the blocks that test the lane: the restore, the lane's suspended pass, a loader that waits for an
eject, the loader and the verify queue (R122, R124, R146, R154, R163; log entry 3 on their order). -/
def Obligations.WindowEnds : Prop :=
  (∀ (n : LaneId) (s : State),
    let u := settle s
    let g := u.gov[n]
    (g.window = none → exec (.windowEnd n) s = .next (choose u)) ∧
    (∀ w, g.window = some w → (u.ttu.time - w.start).toNat < 2 ^ w.exponent →
      exec (.windowEnd n) s = .next (choose u)) ∧
    (∀ (w : Window) (t : Nat), g.window = some w → 2 ^ w.exponent ≤ (u.ttu.time - w.start).toNat →
      let sm := ((g.smoothed : Int) + ((g.inflow : Int) - g.smoothed) / 4).toNat
      let supply := sm + u.asm[n].sealedQueue.length * 65536 / 8
      let rates := u.tables.speed
      let isTarget :=
        (t < rates.length ∧ (∀ k (hk : k < rates.length), k ≤ t → rates[k] * 2 ^ w.exponent ≤ supply) ∧
          ∀ hk : t + 1 < rates.length, supply < rates[t + 1] * 2 ^ w.exponent) ∨
        (t = 0 ∧ ∀ hk : 0 < rates.length, supply < rates[0] * 2 ^ w.exponent)
      isTarget →
      exec (.windowEnd n) s = .next (choose { u with gov := upd u.gov n fun g => { g with
        smoothed := sm
        step := if u.settings.reposLimit ≤ g.repositions ∧ 0 < g.step then g.step - 1
          else if t = g.step ∨ g.stable ≠ 1 then g.step
          else if g.step < t then g.step + 1 else g.step - 1
        stable := if (u.settings.reposLimit ≤ g.repositions ∧ 0 < g.step) ∨ t = g.step ∨ g.stable = 1 then 0
          else g.stable + 1
        meter := { inflow := g.inflow, delivered := g.delivered, repositions := g.repositions, exponent := w.exponent }
        window := some { start := u.ttu.time, exponent := u.settings.govWindow }
        inflow := 0
        repositions := 0
        delivered := 0 } }))) ∧
  (∀ (n : LaneId) (new : LaneState) (s : State),
    let old := s.lanes[n].state
    let timed := fun f : Governor → Governor => setLaneState n new s = { s with
      lanes := upd s.lanes n fun l => { l with state := new, holdReason := none }
      gov := upd s.gov n f
      due := s.due ++ [.restoreLane n, .verifyResume n, .ejectAsk n, .serveTest, .verifyStart] }
    (new = .writing → old ≠ .writing → timed fun g => { g with
      window := some { start := s.ttu.time, exponent := s.settings.govWindow }
      inflow := 0
      repositions := 0
      delivered := 0 }) ∧
    ((new = .writing ∧ old = .writing) ∨ new = .hold → timed id) ∧
    (new ≠ .writing → new ≠ .hold → timed fun g => { g with window := none }))

/-! ## Loader and mount queue -/

/-- HOME is carried out in UNHOMED and IDLE, refused with FAULTED in FAULT and with BAD_STATE elsewhere; with the home
sensor active it completes at once, with both positions 0 (R116). The ramp index while homing is 0 (log entry 15), and
the reading of the home sensor is kept, also by a refused HOME (log entry 31). STOP is carried out in RUNNING, STOPPING
and HOMING and refused with BAD_STATE elsewhere: it leaves a travel at most r + 1 steps (DECEL) or one (INSTANT), ends
a wait on a lane, and lets a probe or a grip run on; in HOMING it waits for the step in progress (R115). A mode other
than 0 and 1 is refused with BAD_ARGUMENT, whatever the state (log entry 43 on the order). LOADER_RESET is carried out
in every state with OK: the loader is UNHOMED with no fault code, no positions, no plan and no door hold, its door line
driven to 0; the sensors, the directory, the lanes, the tables and the settings, the streams, the compressor and the
expander, the pool, the assemblies, the governors, the catalog, the verify passes and the restores stay as they are;
the request in service, if any, is no longer in service and stands before the oldest other request of its class, and
the others keep their places (R129; log entry 20 on the place). -/
def Obligations.HomeStopAndLoaderReset : Prop :=
  (∀ (h : Hdr) (homeActive : Bool) (mode : Nat) (s : State), s.link.credit = true →
     let u := settle s
     let homeIs := fun t : State => exec (.home h homeActive) s = .next (renewCredit (choose t))
     let stopIs := fun t : State => exec (.stop h mode) s = .next (renewCredit (choose t))
     let seen : State := { u with ldr := { u.ldr with homeSensor := homeActive } }
     let begun : Loader := { seen.ldr with
       state := .homing
       logical := none
       real := none
       direction := .towardZero
       ramp := 0
       homingSteps := 0
       homingStop := false
       stepStart := u.ttu.time }
     (u.ldr.state = .fault → homeIs (refuse h 11 .faulted seen)) ∧
     (u.ldr.state = .homing ∨ u.ldr.state = .running ∨ u.ldr.state = .stopping → homeIs (refuse h 11 .badState seen)) ∧
     (u.ldr.state = .unhomed ∨ u.ldr.state = .idle →
       (homeActive = false → homeIs { answer h 11 .ok .none u with ldr := begun }) ∧
       (homeActive = true → homeIs (post .serveTest (offerNotice .homeDone (raise .homeFound none
         { answer h 11 .ok .none u with ldr := { begun with
             state := .idle
             logical := some 0
             real := some 0
             ramp := -1 } }))))) ∧
     (1 < mode → stopIs (refuse h 12 .badArgument u)) ∧
     (mode ≤ 1 →
       let stopping := fun f : Loader → Loader =>
         { answer h 12 .ok .none u with ldr := { f u.ldr with state := .stopping } }
       let now := u.ldr.plan.bind fun p => p.steps[p.current]?
       (u.ldr.state = .unhomed ∨ u.ldr.state = .idle ∨ u.ldr.state = .fault → stopIs (refuse h 12 .badState u)) ∧
       (u.ldr.state = .homing → stopIs { answer h 12 .ok .none u with ldr := { u.ldr with homingStop := true } }) ∧
       (u.ldr.state = .running ∨ u.ldr.state = .stopping →
         (∀ l, now = some (.travel l) → stopIs (stopping fun d => { d with
           remaining := min d.remaining (if mode = 0 then (d.ramp + 1).toNat else 1) })) ∧
         (∀ n, now = some (.laneEject n) → stopIs (planFails .stopped (stopping id))) ∧
         ((∀ l, now ≠ some (.travel l)) → (∀ n, now ≠ some (.laneEject n)) → stopIs (stopping id))))) ∧
  (∀ (h : Hdr) (s : State), s.link.credit = true →
     let u := settle s
     ∃ t, exec (.loaderReset h) s = .next (renewCredit (choose t)) ∧
       t.link = (answer h 18 .ok .none u).link ∧
       t.ldr = { u.ldr with
         state := .unhomed
         faultCode := none
         logical := none
         real := none
         ramp := -1
         remaining := 0
         plan := none
         doorHold := none
         homingStop := false } ∧
       (u.ldr.doorHold = none → t.ttu = u.ttu) ∧
       (∀ l, u.ldr.doorHold = some l →
         t.ttu = { u.ttu with lines := u.ttu.lines &&& ~~~ BitVec.twoPow 8 l }) ∧
       t.cdr = u.cdr ∧ t.lanes = u.lanes ∧ t.tables = u.tables ∧ t.settings = u.settings ∧ t.due = u.due ∧
       t.streams = u.streams ∧ t.cmp = u.cmp ∧ t.exp = u.exp ∧ t.pool = u.pool ∧ t.asm = u.asm ∧ t.gov = u.gov ∧
       t.cat = u.cat ∧ t.vfy = u.vfy ∧ t.rse = u.rse ∧ t.freeCount = u.freeCount ∧
       ((∀ m ∈ u.mounts, m.inService = false) → t.mounts = u.mounts) ∧
       (∀ (front between rest : List MountRequest) (m : MountRequest), u.mounts = front ++ between ++ m :: rest →
         m.inService = true → (∀ x ∈ front, x.cls ≠ m.cls ∧ x.inService = false) →
         (∀ x ∈ between, x.inService = false) → (∀ x, between.head? = some x → x.cls = m.cls) →
         t.mounts = front ++ { m with
           inService := false
           rebuilt := if m.kind = .mount ∧ namedAt .picker u ≠ m.cart then namedAt .picker u else none } ::
             between ++ rest))

/-- MOVE, EXPORT and SCAN meet the checks of R120 in order and are queued with class NORMAL and requester SERVER, a
MOVE to a bay as MOUNT and one from a bay to the home slot as DISMOUNT, whatever the loader's state; the serve test
follows (R119, R120, R122). IMPORT meets the checks of R107 in order: its operands' ranges and a label no record
carries (BAD_ARGUMENT), the mail slot and the storage slot without a record (BAD_STATE), an empty index and room in the
mount queue (NO_ROOM). Accepted, it writes a SCRATCH record into the lowest empty index, at the mail slot with the
storage slot as home, queues the import and replies with the index (R107, R119, R120). That the acceptance makes no
scratch pick, which R71 and R106 can be read to ask for and R107 puts at the PUT, is the model's inference, log entry
35. An internal request for a MOUNT of a cartridge that a queued request names is merged into it: the class becomes the
higher of the two, the requester is added or, present already, has its tag replaced, and the kind, the cartridge and
the target stay; otherwise it joins the queue, or is turned away while that holds 8 (R121). -/
def Obligations.LoaderRequestsQueued : Prop :=
  (∀ (h : Hdr) (index place : Nat) (s : State), s.link.credit = true →
     let u := settle s
     let does := fun (c : Instr) (t : State) => exec c s = .next (renewCredit (choose t))
     let queue := fun (k : MountKind) (i : Option CartId) (target : MountTarget) (v : State) =>
       post .serveTest { v with mounts := v.mounts ++
         [{ kind := k, cart := i, target := target, cls := .normal, requesters := [(.server, h.tag)], tag := h.tag,
            fillLane := none, inService := false, rebuilt := none }] }
     (63 < index ∨ place = 0 ∨ place = 49 ∨ place = 50 ∨ 54 < place → does (.move h index place) (refuse h 13 .badArgument u)) ∧
     (63 < index ∨ (place ≠ 49 ∧ place ≠ 50) → does (.exportCart h index place) (refuse h 14 .badArgument u)) ∧
     (∀ (i : CartId) (dest : Location), index = i → locationOf place = some dest → place ≤ 54 →
       let mail := ∃ m, dest = .mail m
       let done := fun t : State =>
         (¬ mail → does (.move h index place) t) ∧ (mail → does (.exportCart h index place) t)
       (u.cdr.records[i] = none → done (refuse h (if place = 49 ∨ place = 50 then 14 else 13) .notFound u)) ∧
       (∀ c, u.cdr.records[i] = some c →
         let bad := c.location = .outside ∨ c.location = .missing ∨ c.location = dest ∨
           ((∀ n, dest ≠ .bay n) ∧ ∃ j, namedAt dest u = some j ∧ j ≠ i) ∨ (∃ m ∈ u.mounts, m.cart = some i) ∨
           positionAt dest u = none ∨ (c.location ≠ .picker ∧ positionAt c.location u = none)
         let ok := answer h (if place = 49 ∨ place = 50 then 14 else 13) .ok .none u
         (bad → done (refuse h (if place = 49 ∨ place = 50 then 14 else 13) .badState u)) ∧
         (¬ bad → 8 ≤ u.mounts.length → done (refuse h (if place = 49 ∨ place = 50 then 14 else 13) .noRoom u)) ∧
         (¬ bad → u.mounts.length < 8 →
           (∀ m, dest = .mail m → does (.exportCart h index place) (queue .exportCart (some i) (.mail m) ok)) ∧
           (∀ n, dest = .bay n → does (.move h index place) (queue .mount (some i) (.lane n) ok)) ∧
           (∀ k, dest = .slot k → does (.move h index place)
             (if (∃ n, c.location = .bay n) ∧ c.home = k then queue .dismount (some i) (.slot k) ok
              else queue .move (some i) (.slot k) ok))))) ∧
     ((∃ m ∈ u.mounts, m.kind = .scan) → does (.scan h) (refuse h 16 .badState u)) ∧
     ((∀ m ∈ u.mounts, m.kind ≠ .scan) → 8 ≤ u.mounts.length → does (.scan h) (refuse h 16 .noRoom u)) ∧
     ((∀ m ∈ u.mounts, m.kind ≠ .scan) → u.mounts.length < 8 →
       does (.scan h) (queue .scan none .none (answer h 16 .ok .none u)))) ∧
  (∀ (h : Hdr) (mailSlot : Nat) (label : List Byte) (pool slot : Nat) (s : State), s.link.credit = true →
     let u := settle s
     let done := fun t : State => exec (.importCart h mailSlot label pool slot) s = .next (renewCredit (choose t))
     let labelBad := label.length ≠ 8 ∨ (∃ b ∈ label, b.toNat < 32 ∨ 126 < b.toNat) ∨ (∀ b ∈ label, b = 32#8) ∨
       ∃ (i : CartId) (c : Cart), u.cdr.records[i] = some c ∧ c.label = label
     ((mailSlot ≠ 49 ∧ mailSlot ≠ 50) ∨ labelBad ∨ 7 < pool ∨ slot = 0 ∨ 48 < slot → done (refuse h 15 .badArgument u)) ∧
     (∀ (m : Fin 2) (p : Fin 8) (k : Fin 48), mailSlot = 49 + m.val → pool = p → slot = k.val + 1 → ¬ labelBad →
       let taken := namedAt (.mail m) u ≠ none ∨ namedAt (.slot k) u ≠ none
       (taken → done (refuse h 15 .badState u)) ∧
       (¬ taken → (∀ i : CartId, u.cdr.records[i] ≠ none) ∨ 8 ≤ u.mounts.length → done (refuse h 15 .noRoom u)) ∧
       (∀ i : CartId, ¬ taken → u.cdr.records[i] = none → (∀ j : CartId, j < i → u.cdr.records[j] ≠ none) →
         u.mounts.length < 8 →
         let v := putRecord i { label := label, pool := p, state := .scratch, location := .mail m, home := k, endOfData := 0,
                                floor := 0, worm := false, verifiedTo := 0, needsLocate := false } u
         done (post .serveTest { answer h 15 .ok (.index i) v with mounts := u.mounts ++
           [{ kind := .importCart, cart := some i, target := .slot k, cls := .normal, requesters := [(.server, h.tag)],
              tag := h.tag, fillLane := none, inService := false, rebuilt := none }] })))) ∧
  (∀ (i : CartId) (target : MountTarget) (cls : MountClass) (r : Requester) (tag : Nat) (fill : Option LaneId)
     (s : State),
     let named := ∃ m ∈ s.mounts, m.cart = some i
     let present := fun m : MountRequest => m.requesters.any fun p => decide (p.1 = r)
     let merged := fun m : MountRequest => { m with
       cls := if m.cls = .urgent ∨ cls = .urgent then .urgent
         else if m.cls = .normal ∨ cls = .normal then .normal else .background
       requesters := if present m = true then m.requesters.map fun p => if p.1 = r then (r, tag) else p
         else m.requesters ++ [(r, tag)]
       tag := if m.requesters.head?.map Prod.fst = some r then tag else m.tag
       fillLane := if fill = none then m.fillLane else fill }
     (named → offerMount i target cls r tag fill s = (true, { s with
       mounts := s.mounts.map fun m => if m.cart = some i then merged m else m })) ∧
     (¬ named → 8 ≤ s.mounts.length → offerMount i target cls r tag fill s = (false, s)) ∧
     (¬ named → s.mounts.length < 8 → offerMount i target cls r tag fill s = (true, { s with
       mounts := s.mounts ++ [{ kind := .mount, cart := some i, target := target, cls := cls, requesters := [(r, tag)],
                                tag := tag, fillLane := fill, inService := false, rebuilt := none }]
       due := s.due ++ [.serveTest] })))

/-- The loader's motion. A travel step at the end of its interval moves the logical position by 1 toward the target,
lowers the remaining steps, takes the next index of the ramp, and tests the deviation; the last one raises MOVE_DONE
and ends the step (R113, R114). A homing step counts, and ends homing at the home sensor, at a stop, or with
HOME_NOT_FOUND after 65,536 steps (R115, R116; log entry 15); the sensor's reading is kept (log entry 31). An encoder
count moves the real position by 1 along the direction, and tests the deviation (R114). Steps and counts are tested in
IDLE, RUNNING and STOPPING, a change of DEV_LIMIT at once in every state but HOMING (R112, R114, R186); that a loader
already in FAULT enters it again then is the model's inference, log entry 49; a count past an end of the axis, of which
no rule speaks, gives a free position (log entry 10). -/
def Obligations.LoaderMotion : Prop :=
  ∀ (homeActive : Bool) (s : State),
    let u := settle s
    let d := u.ldr
    let passed := u.tables.ramp.getD d.ramp.toNat 0 ≤ (u.ttu.time - d.stepStart).toNat
    let faults := fun v : State =>
      match v.ldr.logical, v.ldr.real with
      | some a, some b => if v.settings.devLimit < max a b - min a b then loaderFault .positionError v else v
      | _, _ => v
    let tested := fun v : State =>
      if v.ldr.state = .idle ∨ v.ldr.state = .running ∨ v.ldr.state = .stopping then faults v else v
    let travelIs := fun t : State => exec .travelStep s = .next (choose t)
    let homingIs := fun t : State => exec (.homingStep homeActive) s = .next (choose t)
    (∀ v, deviationTest v = tested v ∧ limitTest v = if v.ldr.state = .homing then v else faults v) ∧
    ((∀ l, currentStep u ≠ some (.travel l)) ∨ d.remaining = 0 ∨ ¬ passed → travelIs u) ∧
    (∀ l, currentStep u = some (.travel l) → 0 < d.remaining → passed →
      let m := d.remaining - 1
      let v := tested { u with ldr := { d with
        logical := d.logical.map fun x => if d.direction = .towardZero then x - 1 else x + 1
        remaining := m
        ramp := if m = 0 then -1 else min (min (d.ramp + 1) d.top) (m - 1 : Nat)
        stepStart := u.ttu.time } }
      (v.ldr.state = .fault ∨ 0 < m → travelIs v) ∧
      (v.ldr.state ≠ .fault → m = 0 → travelIs (stepEnds (raise .moveDone none v)))) ∧
    (d.state ≠ .homing ∨ ¬ passed → homingIs u) ∧
    (d.state = .homing → passed →
      let v : State := { u with ldr := { d with
        homeSensor := homeActive
        homingSteps := d.homingSteps + 1
        stepStart := u.ttu.time } }
      (d.homingStop = true → homingIs { v with ldr := { v.ldr with
        state := .unhomed
        ramp := -1
        homingStop := false } }) ∧
      (d.homingStop = false → homeActive = true → homingIs (homed v)) ∧
      (d.homingStop = false → homeActive = false → 65535 ≤ d.homingSteps → homingIs (loaderFault .homeNotFound v)) ∧
      (d.homingStop = false → homeActive = false → d.homingSteps < 65535 → homingIs v)) ∧
    (d.real = none → exec .encoderCount s = .next (choose u)) ∧
    (∀ x, d.real = some x → (d.direction = .towardZero → 0 < x) → (d.direction = .away → x < 65535) →
      exec .encoderCount s = .next (choose (tested { u with ldr := { d with
        real := some (if d.direction = .towardZero then x - 1 else x + 1) } }))) ∧
    (∀ x, d.real = some x → (d.direction = .towardZero ∧ x = 0) ∨ (d.direction = .away ∧ 65535 ≤ x) →
      exec .encoderCount s = .next (choose (tested { u with
        freeCount := u.freeCount + 1
        ldr := { d with real := some (Config.freePosition u.freeCount).toNat } })))

/-- Probes, grips and the held sensor. A probe's reading is tested for its expectation, unless a stop has been asked
for: then a source's or a destination's reading is not tested, while a scan's is still compared (log entry 22); a source
found empty makes its record MISSING where it was at that place, and leaves it otherwise (log entry 47); a grip
completes at the held sensor's change that it waits for, which moves the record by the map; a change of the held sensor
outside a grip is recorded only; a grip whose limit passes faults the loader with GRIP_TIMEOUT and moves no record
(R93, R117, R125). The door and the mail slots. A change of the door sensor raises DOOR_OPENED or DOOR_CLOSED, in every
loader state; when a mail slot's sensor changes to empty while the door is open, the record that the map names there
becomes OUTSIDE; a reading that is no change does nothing (R93, R127). A record that moves has the new location; the
place that named it is empty and the new place names it; another record that the new place named becomes MISSING (log
entry 17); every other record and place stays (R92, R93). The completing PUT of a MOVE at a slot makes that slot the
cartridge's home slot; no other PUT changes a home slot (R123). -/
def Obligations.ProbesGripsAndSensors : Prop :=
  (∀ (occupied held : Bool) (l : Location) (s : State),
     let u := settle s
     let step := currentStep u
     let does := fun (c : Instr) (t : State) => exec c s = .next (choose t)
     let sensor : State := { u with ldr := { u.ldr with heldSensor := !u.ldr.heldSensor } }
     let emptied := fun (i : CartId) (v : State) =>
       if (v.cdr.records[i]).map Cart.location = some l then moveRecord i .missing v else v
     ((∀ x e, step ≠ some (.probe x e)) → does (.probeDone occupied) u) ∧
     (∀ i, step = some (.probe l (.source i)) →
       (u.ldr.state = .stopping ∨ occupied = true → does (.probeDone occupied) (stepEnds u)) ∧
       (u.ldr.state ≠ .stopping → occupied = false → does (.probeDone occupied) (planFails .sourceEmpty (emptied i u)))) ∧
     (step = some (.probe l .destination) →
       (u.ldr.state = .stopping ∨ occupied = false → does (.probeDone occupied) (stepEnds u)) ∧
       (u.ldr.state ≠ .stopping → occupied = true → does (.probeDone occupied) (planFails .destOccupied u))) ∧
     (step = some (.probe l .scan) →
       does (.probeDone occupied) (stepEnds (
         let add := fun (f : Plan → Plan) (v : State) => { v with ldr := { v.ldr with plan := v.ldr.plan.map f } }
         match occupied, namedAt l u with
         | false, some i => add (fun p => { p with missing := p.missing ++ [i] }) (emptied i u)
         | true, none => add (fun p => { p with unknown := p.unknown ++ [l] }) u
         | _, _ => u))) ∧
     ((∀ x, step ≠ some (.get x)) ∨ u.ldr.heldSensor = true → does .getDone u) ∧
     ((∀ x, step ≠ some (.put x)) ∨ u.ldr.heldSensor = false → does .putDone u) ∧
     (held = u.ldr.heldSensor → does (.heldSensorChange held) u) ∧
     (held ≠ u.ldr.heldSensor → (∀ x, step ≠ some (.get x)) → (∀ x, step ≠ some (.put x)) →
       does (.heldSensorChange held) (post .serveTest sensor)) ∧
     (held ≠ u.ldr.heldSensor → (∃ x, step = some (.get x)) → held = false →
       does (.heldSensorChange held) (post .serveTest sensor)) ∧
     (held ≠ u.ldr.heldSensor → (∃ x, step = some (.put x)) → held = true →
       does (.heldSensorChange held) (post .serveTest sensor)) ∧
     (step = some (.get l) → u.ldr.heldSensor = false →
       let v := post .serveTest sensor
       let taken := match namedAt l u with
         | none => v
         | some i => moveRecord i .picker v
       let t := stepEnds (match l with
         | .bay n => if u.lanes[n].state = .ejected ∨ u.lanes[n].state = .unknownMedia then
             setLaneState n .empty (modLane n (fun x => { x with mounted := none }) taken) else taken
         | _ => taken)
       does .getDone t ∧ does (.heldSensorChange true) t) ∧
     (step = some (.put l) → u.ldr.heldSensor = true →
       let v := post .serveTest sensor
       let t := stepEnds (match namedAt .picker u with
         | none => v
         | some i => askPickFor i (newHome i l (moveRecord i l v)))
       does .putDone t ∧ does (.heldSensorChange false) t) ∧
     (let grip := (∃ x, step = some (.get x)) ∨ ∃ x, step = some (.put x)
      let passed := u.ldr.gripLimit ≤ (u.ttu.time - u.ldr.gripStart).toNat
      (¬ grip ∨ ¬ passed → does .gripTimeout u) ∧
      (grip → passed → does .gripTimeout (loaderFault .gripTimeout u)))) ∧
  (∀ (isOpen present : Bool) (m : Fin 2) (s : State),
     let u := settle s
     let doorIs := fun t : State => exec (.doorSensorChange isOpen) s = .next (choose t)
     let mailIs := fun t : State => exec (.mailSlotSensorChange m present) s = .next (choose t)
     let seen : State := { u with ldr := { u.ldr with mailSensors := u.ldr.mailSensors.set m present } }
     (isOpen = u.ldr.doorOpen → doorIs u) ∧
     (isOpen ≠ u.ldr.doorOpen → doorIs { u with
       ldr := { u.ldr with doorOpen := isOpen }
       due := u.due ++ [.event { kind := if isOpen = true then .doorOpened else .doorClosed, qual := none }] }) ∧
     (present = u.ldr.mailSensors[m] → mailIs u) ∧
     (present ≠ u.ldr.mailSensors[m] →
       (present = true ∨ u.ldr.doorOpen = false ∨ namedAt (.mail m) u = none → mailIs seen) ∧
       (∀ i, present = false → u.ldr.doorOpen = true → namedAt (.mail m) u = some i →
         mailIs (moveRecord i .outside seen)))) ∧
  (∀ (i : CartId) (l : Location) (c : Cart) (s : State), s.cdr.records[i] = some c →
     let t := moveRecord i l s
     let left := fun x : Location => x = c.location ∧ namedAt x s = some i
     t = { s with cdr := t.cdr } ∧ t.cdr.records[i] = some { c with location := l } ∧
     (∀ j : CartId, j ≠ i →
       (namedAt l s = some j → t.cdr.records[j] = (s.cdr.records[j]).map fun x => { x with location := .missing }) ∧
       (namedAt l s ≠ some j → t.cdr.records[j] = s.cdr.records[j])) ∧
     (l ≠ .outside → l ≠ .missing → namedAt l t = some i) ∧
     (∀ x : Location, x ≠ l → (left x → namedAt x t = none) ∧ (¬ left x → namedAt x t = namedAt x s))) ∧
  (∀ (i : CartId) (l : Location) (c : Cart) (s : State), s.cdr.records[i] = some c →
     let ofMove := ∃ p, s.ldr.plan = some p ∧ p.kind = .move ∧ p.cart = some i
     (∀ k, l = .slot k → ofMove →
       newHome i l s = { s with cdr := { s.cdr with records := s.cdr.records.set i (some { c with home := k }) } }) ∧
     ((∀ k, l ≠ .slot k) ∨ ¬ ofMove → newHome i l s = s))

/-- How the steps of a plan run. Before a step at a mail slot, a TRAVEL to one included, the door line is taken and
locked; a door read open before it fails the plan with DOOR_OPEN, but a TRAVEL made while the hold already stands does
not read it (R127). LANE_EJECT asks the lane: complete at once in EJECTED or EMPTY, else waiting, with EJECT sent when
the lane accepts; at the lane's report it asks again (R62, R124). TRAVEL sets direction, length, top index and the
first index from the positions and the ramp, and one of length 0 completes at once with MOVE_DONE (R113); that it keeps
the direction as it was is the model's choice, log entry 43. A PUT over a
place that names a record fails with DEST_OCCUPIED (R123); GET and PUT start the grip's time (R117). LANE_THREAD sends
THREAD in EMPTY and fails with LANE_REFUSED elsewhere (R124). A step that has completed is followed by the next, and
the last one's end is the plan's success; in STOPPING the end of a step fails the plan with STOPPED (R115, R123,
R125). -/
def Obligations.PlanStepsRun : Prop :=
  (∀ (st : PlanStep) (s : State),
     let mail := ∃ m, st = .travel (.mail m) ∨ (∃ e, st = .probe (.mail m) e) ∨ st = .get (.mail m) ∨ st = .put (.mail m)
     let travels := ∃ l, st = .travel l
     (∀ l : Fin 8, s.ldr.doorHold = none → s.settings.doorLine = l.val → holdDoor s = { s with
       ldr := { s.ldr with doorHold := some l }
       ttu := { s.ttu with lines := s.ttu.lines ||| BitVec.twoPow 8 l } }) ∧
     (s.ldr.doorHold ≠ none → holdDoor s = s) ∧
     (¬ mail → beginStep st s = startStep st s) ∧
     (mail → s.ldr.doorOpen = true → (¬ travels ∨ s.ldr.doorHold = none) →
       beginStep st s = (.waits, planFails .doorOpen (holdDoor s))) ∧
     (mail → (s.ldr.doorOpen = false ∨ (travels ∧ s.ldr.doorHold ≠ none)) →
       beginStep st s = startStep st (holdDoor s))) ∧
  (∀ (n : LaneId) (l : Location) (e : Expectation) (x target : Nat) (s : State),
     let d := s.ldr
     let may := (s.lanes[n].state = .ready ∧ s.lanes[n].claim = .none) ∨ s.lanes[n].state = .hold ∨
       s.lanes[n].state = .unknownMedia
     let gone := s.lanes[n].state = .ejected ∨ s.lanes[n].state = .empty
     let grip : State := { s with ldr := { d with gripStart := s.ttu.time, gripLimit := s.settings.gripTimeout * 100 } }
     (gone → startStep (.laneEject n) s = (.complete, s)) ∧
     (may → startStep (.laneEject n) s = (.waits, sendEject n s)) ∧
     (¬ gone → ¬ may → startStep (.laneEject n) s = (.waits, s)) ∧
     (currentStep s ≠ some (.laneEject n) → ejectAgain n s = s) ∧
     (currentStep s = some (.laneEject n) →
       (gone → ejectAgain n s = stepEnds s) ∧ (may → ejectAgain n s = sendEject n s) ∧
       (¬ gone → ¬ may → ejectAgain n s = s)) ∧
     (positionAt l s = none → startStep (.travel l) s = (.waits, planFails .positionUnset s)) ∧
     (positionAt l s = some target → d.logical = some x →
       let m := max x target - min x target
       let last := s.tables.ramp.length - 1
       let begun : State := { s with ldr := { d with
         direction := if target < x then .towardZero else if x < target then .away else d.direction
         remaining := m
         top := if d.heldSensor = true then min last s.settings.heldRampCap else last
         ramp := if m = 0 then -1 else 0
         stepStart := s.ttu.time } }
       (m = 0 → startStep (.travel l) s =
         (.complete, { begun with due := s.due ++ [.event { kind := .moveDone, qual := none }] })) ∧
       (m ≠ 0 → startStep (.travel l) s = (.waits, begun))) ∧
     startStep (.probe l e) s = (.waits, s) ∧ startStep (.get l) s = (.waits, grip) ∧
     (namedAt l s ≠ none → startStep (.put l) s = (.waits, planFails .destOccupied s)) ∧
     (namedAt l s = none → startStep (.put l) s = (.waits, grip)) ∧
     (s.lanes[n].state = .empty → startStep (.laneThread n) s = (.complete, sendThread n s)) ∧
     (s.lanes[n].state ≠ .empty → startStep (.laneThread n) s = (.waits, planFails .laneRefused s))) ∧
  (∀ (p : Plan) (st : PlanStep) (s : State), s.ldr.plan = some p →
     let onward := fun v : State => { v with ldr := { v.ldr with
       plan := v.ldr.plan.map fun p => { p with current := p.current + 1 } } }
     (p.steps[p.current]? = none → runPlan s = planSucceeds s) ∧
     (p.steps[p.current]? = some st →
       ((beginStep st s).1 = .waits → runPlan s = (beginStep st s).2) ∧
       ((beginStep st s).1 = .complete → runPlan s = runPlan (onward (beginStep st s).2))) ∧
     (s.ldr.state = .stopping → stepEnds s = planFails .stopped s) ∧
     (s.ldr.state ≠ .stopping → stepEnds s = runPlan (onward s)))

/-- The serve test takes, in IDLE, the oldest request of the highest class that can run, and leaves the others in their
places; with none, or in any other state, nothing changes (R122). A request taken is marked in service and the loader
is RUNNING its plan; a plan that names a cartridge OUTSIDE or MISSING, or a location without a position, fails at once
(R122, R123; log entry 43 on one that does both). The cases in which a request cannot run are those of R122: a picker
that holds a cartridge, unless the request is for the held record or carries it home first (R129), but an IMPORT cannot
run with a full picker even for the held record (R122's list over R129's words, the model's inference, log entry 39); a
cartridge in the bay of a lane that is busy; a target lane that is busy; no READ lane for "any read lane". That target
becomes, in this order, the lane that has the cartridge, the lowest EMPTY one, the lowest READY and idle one (R122).
The steps of a plan are those of R123's table, and of R126 for a SCAN: every slot and mail slot with a position, by
increasing position. -/
def Obligations.ServeTest : Prop :=
  (∀ (s : State),
     let u := takeDue .serveTest s
     let done := fun t : State => exec .serveTest s = .next (choose t)
     (u.ldr.state ≠ .idle → done u) ∧
     ((∀ m ∈ u.mounts, canRun m u = false) → done u) ∧
     (∀ (front rest : List MountRequest) (m : MountRequest), u.ldr.state = .idle → u.mounts = front ++ m :: rest →
       canRun m u = true → (∀ x ∈ front, x.cls = m.cls → canRun x u = false) →
       (∀ x ∈ u.mounts, canRun x u = true → m.cls = .urgent ∨ x.cls = .background ∨ (m.cls = .normal ∧ x.cls = .normal)) →
       let p : Plan :=
         { kind := m.kind, cart := m.cart, target := planTarget m u, steps := planSteps m u, current := 0, missing := [],
           unknown := [], skipped := if m.kind = .scan then scanLocations.filter fun l => (positionAt l u).isNone else [] }
       let v : State := { u with
         mounts := front ++ { m with inService := true } :: rest
         ldr := { u.ldr with
           state := .running
           plan := some p } }
       let lost := ∃ i c, m.cart = some i ∧ u.cdr.records[i] = some c ∧ (c.location = .outside ∨ c.location = .missing)
       let unset := ∃ l, .travel l ∈ planSteps m u ∧ positionAt l u = none
       (lost → done (planFails .sourceEmpty v)) ∧ (¬ lost → unset → done (planFails .positionUnset v)) ∧
       (¬ lost → ¬ unset → done (runPlan v)))) ∧
  (∀ (m : MountRequest) (s : State),
     let st := fun n : LaneId => s.lanes[n].state
     let idle := fun n : LaneId => st n = .ready ∧ s.lanes[n].activity = .none ∧ s.lanes[n].claim = .none
     let full := s.ldr.heldSensor = true ∨ namedAt .picker s ≠ none
     (canRun m s = true ↔
       (full → m.kind ≠ .scan ∧ ∃ h, namedAt .picker s = some h ∧
         m.kind ≠ .importCart ∧ (m.cart = some h ∨ (m.kind = .mount ∧ m.rebuilt = some h))) ∧
       (∀ i n, m.cart = some i → (s.cdr.records[i]).map Cart.location = some (.bay n) →
         st n = .empty ∨ st n = .ejected ∨ st n = .unknownMedia ∨ st n = .hold ∨ idle n) ∧
       (∀ n, m.kind = .mount → m.target = .lane n → st n = .empty ∨ st n = .ejected ∨ st n = .hold ∨ idle n) ∧
       (∀ i, m.kind = .mount → m.target = .anyRead → m.cart = some i → ∃ n : LaneId, s.lanes[n].role = .read ∧
         (st n = .empty ∨ idle n ∨ (st n = .ejected ∧ namedAt (.bay n) s = some i)))) ∧
     (m.target ≠ .anyRead ∨ m.cart = none → planTarget m s = m.target) ∧
     (∀ i, m.target = .anyRead → m.cart = some i →
       let reads := fun n : LaneId => s.lanes[n].role = .read
       let has := fun n : LaneId => reads n ∧ ((s.lanes[n].mounted = some i ∧ st n = .ready) ∨
         (namedAt (.bay n) s = some i ∧ st n = .ejected))
       let empty := fun n : LaneId => reads n ∧ st n = .empty
       let free := fun n : LaneId => reads n ∧ idle n
       (∀ n, has n → (∀ k < n, ¬ has k) → planTarget m s = .lane n) ∧
       (∀ n, (∀ k, ¬ has k) → empty n → (∀ k < n, ¬ empty k) → planTarget m s = .lane n) ∧
       (∀ n, (∀ k, ¬ has k) → (∀ k, ¬ empty k) → free n → (∀ k < n, ¬ free k) → planTarget m s = .lane n))) ∧
  (∀ (m : MountRequest) (i : CartId) (c : Cart) (s : State), m.cart = some i → s.cdr.records[i] = some c →
     let source := fun (j : CartId) (x : Cart) => match x.location with
       | .bay n => [.laneEject n, .travel (.bay n), .probe (.bay n) (.source j), .get (.bay n)]
       | .slot k => [.travel (.slot k), .probe (.slot k) (.source j), .get (.slot k)]
       | .mail k => [.travel (.mail k), .probe (.mail k) (.source j), .get (.mail k)]
       | _ => []
     let destination := fun l : Location => [.travel l, .probe l .destination, PlanStep.put l]
     let dismount := fun (j : CartId) (x : Cart) => source j x ++ destination (.slot x.home)
     (∀ k, m.kind = .move ∨ m.kind = .importCart → m.target = .slot k →
       planSteps m s = source i c ++ destination (.slot k)) ∧
     (∀ k, m.kind = .exportCart → m.target = .mail k → planSteps m s = source i c ++ destination (.mail k)) ∧
     (m.kind = .dismount → planSteps m s = dismount i c) ∧
     (∀ (n : LaneId) (home : List PlanStep), m.kind = .mount → planTarget m s = .lane n →
       (((∀ h, m.rebuilt = some h → namedAt .picker s ≠ some h) ∧ home = []) ∨
         ∃ h x, m.rebuilt = some h ∧ namedAt .picker s = some h ∧ s.cdr.records[h] = some x ∧ home = dismount h x) →
       let fetch := source i c ++ destination (.bay n) ++ [.laneThread n]
       (namedAt (.bay n) s = none → planSteps m s = home ++ fetch) ∧
       (∀ y x, namedAt (.bay n) s = some y → y ≠ i → s.cdr.records[y] = some x →
         planSteps m s = home ++ (dismount y x ++ fetch)) ∧
       (namedAt (.bay n) s = some i →
         (s.lanes[n].state = .ejected ∨ s.lanes[n].state = .empty → planSteps m s = home ++
           [.travel (.bay n), .probe (.bay n) (.source i), .get (.bay n), .probe (.bay n) .destination, .put (.bay n),
             .laneThread n]) ∧
         (s.lanes[n].state ≠ .ejected → s.lanes[n].state ≠ .empty → planSteps m s = home)))) ∧
  (∀ (m : MountRequest) (s : State), m.kind = .scan → ∃ order : List Location,
     planSteps m s = order.flatMap (fun l => [.travel l, .probe l .scan]) ∧
     (∀ l, l ∈ order ↔ ((∃ k, l = .slot k) ∨ ∃ k, l = .mail k) ∧ positionAt l s ≠ none) ∧
     order.Pairwise fun a b => ∃ x y, positionAt a s = some x ∧ positionAt b s = some y ∧
       (x < y ∨ (x = y ∧ a.code < b.code)))

/-- What an end of a plan does, whatever its result: the request in service leaves the queue and the others keep their
places; the loader is IDLE with no plan, its positions and its held sensor as they were; the notice is sent, PLAN_DONE
at a success, SCAN_DONE with the findings at a SCAN's, MOUNT_FAILED for MOUNT and DISMOUNT and MOVE_FAILED otherwise at
a failure, with the reason, the step and the held record; the engines among the requesters are told, the restore with
the lane of a MOUNT; then the door hold is released and its line driven to 0, the queue gives its room notice to the
lanes, the verify engine and the restore that wait for room, and the serve test falls due behind it (R121, R125, R126,
R127; log entry 3 on the order of the offers and of the engines told, log entry 43 on the step's number, log entry 38
on the target that PLAN_DONE carries: the request's as queued, not the lane chosen for "any read lane"). A restore told
of a success with a lane reaches its cartridge, without one it finds its block afresh, and a failure ends it, a request
still in its expander slot being withdrawn (R31, R164, R167); the verify request that had asked for the mount asks no
more, or leaves the queue at a failure with its VERIFY_DONE (log entry 37 on its fields), and the start test follows
(R147). A loader that enters FAULT keeps its plan, its queue, its door hold and the directory, stands still, and loses
its positions for POSITION_ERROR only; it raises MOVE_FAULT and sends LOADER_FAULT with the code, the plan's kind and
current step, where it has a plan, and the held record (R118; log entry 25 on the ramp index and the remaining steps,
which are set to their values at rest). -/
def Obligations.PlanEndsAndLoaderFaults : Prop :=
  ∀ (m : MountRequest) (p : Plan) (r : PlanReason) (code : LoaderFault) (s : State),
    (s.mounts.find? (fun x => x.inService) = some m → s.ldr.plan = some p →
      let ended := fun t : State =>
        t.ldr = { s.ldr with
          state := .idle
          plan := none
          ramp := -1
          remaining := 0
          doorHold := none } ∧
        (∀ x ∈ t.mounts, x.inService = false) ∧ .serveTest ∈ t.due ∧ t.cdr.map = s.cdr.map
      let tell := fun (failure : Option PlanReason) (v : State) =>
        let lane := if p.kind = .mount then (match p.target with | .lane n => some n | _ => none) else none
        let w := if ∃ q ∈ m.requesters, q.1 = .verify then verifyPlanEnded m.cart failure v else v
        if ∃ q ∈ m.requesters, q.1 = .restore then restorePlanEnded m.cart lane failure w else w
      let closed : State := { s with
        mounts := s.mounts.filter fun x => !x.inService
        ldr := { s.ldr with
          state := .idle
          plan := none
          ramp := -1
          remaining := 0 } }
      let finish := fun v : State =>
        let undoored := match v.ldr.doorHold with
          | none => v
          | some l => { v with
            ldr := { v.ldr with doorHold := none }
            ttu := { v.ttu with lines := v.ttu.lines &&& ~~~ BitVec.twoPow 8 l } }
        { undoored with due := undoored.due.filter (fun d => decide (d ≠ .serveTest)) ++
            (([0, 1, 2, 3] : List LaneId).filter fun n => v.lanes[n].pickNoRoom).map Due.scratchPick ++
            [.verifyStart, .restoreRoom, .serveTest] }
      planSucceeds s = finish (tell none (offerNotice
        (if p.kind = .scan then .scanDone p.missing p.unknown p.skipped
         else .planDone m.kind m.cart m.target m.tag m.requesters) closed)) ∧
      planFails r s = finish (tell (some r) (offerNotice
        (if m.kind = .mount ∨ m.kind = .dismount then
          .mountFailed m.kind m.cart m.tag m.requesters r p.current (namedAt .picker s)
         else .moveFailed m.kind m.cart m.tag m.requesters r p.current (namedAt .picker s)) closed)) ∧
      (ended (planSucceeds s) ∧ ended (planFails r s)) ∧
      (s.link.notices.length < 64 → ∃ body, (planFails r s).link.notices[s.link.notices.length]? =
          some { body := body, placed := s.ttu.time } ∧
        body = if m.kind = .mount ∨ m.kind = .dismount then
          .mountFailed m.kind m.cart m.tag m.requesters r p.current (namedAt .picker s)
        else .moveFailed m.kind m.cart m.tag m.requesters r p.current (namedAt .picker s))) ∧
    loaderFault code s = offerNotice
      (.loaderFault code (s.ldr.plan.map Plan.kind) (s.ldr.plan.map Plan.current) (namedAt .picker s)) { s with
        ldr := { s.ldr with
          state := .fault
          faultCode := some code
          ramp := -1
          remaining := 0
          homingStop := false
          logical := if code = .positionError then none else s.ldr.logical
          real := if code = .positionError then none else s.ldr.real }
        due := s.due ++ [.event { kind := .moveFault, qual := none }] } ∧
    (∀ (i : Option CartId) (lane : Option LaneId) (failure : Option PlanReason),
      (∀ c, s.rse.active = some c → c.mountAsked = true → c.cart.map Prod.fst = i →
        let v := fun f : RestoreContext → RestoreContext =>
          { s with rse := { s.rse with active := some (f { c with mountAsked := false }) } }
        (∀ x, failure = some x → restorePlanEnded i lane failure s =
          finishRestore (.mountFailed x) (emptySlot .restore (v id))) ∧
        (failure = none → lane ≠ none → restorePlanEnded i lane failure s = reach (v id)) ∧
        (failure = none → lane = none →
          restorePlanEnded i lane failure s = findNext (v fun c => { c with state := .finding }))) ∧
      ((∀ c, s.rse.active = some c → c.mountAsked = false ∨ c.cart.map Prod.fst ≠ i) →
        restorePlanEnded i lane failure s = s) ∧
      (∀ front q rest, s.vfy.queue = front ++ q :: rest → q.mountAsked = true → some q.cart = i →
        (∀ x ∈ front, x.mountAsked = false ∨ some x.cart ≠ i) → (∀ x ∈ front, x ≠ q) →
        (failure = none → verifyPlanEnded i failure s = { s with
          vfy := { s.vfy with queue := front ++ { q with mountAsked := false } :: rest }
          due := s.due ++ [.verifyStart] }) ∧
        (∀ x, failure = some x → verifyPlanEnded i failure s = post .verifyStart (offerNotice
          (.verifyDone none q.cart q.label q.origin q.first (q.last.map Int.ofNat) (.mountFailed x) 0 0 0 0 none q.first)
          { s with vfy := { s.vfy with queue := front ++ rest } }))) ∧
      ((∀ q ∈ s.vfy.queue, q.mountAsked = false ∨ some q.cart ≠ i) →
        verifyPlanEnded i failure s = { s with due := s.due ++ [.verifyStart] }))

/-! ## Verify passes -/

/-- VERIFY meets the checks of R144 in order; otherwise the request joins the tail of the verify queue with origin
SERVER, the frame's tag and the record's label, the reply carries the number of requests queued, and the start test
follows. The last block 4,294,967,295 spells END (R192). -/
def Obligations.VerifyIsQueued : Prop :=
  ∀ (h : Hdr) (index first last : Nat) (s : State), s.link.credit = true →
    let u := settle s
    let done := fun t : State => exec (.verify h index first last) s = .next (renewCredit (choose t))
    (63 < index ∨ 4294967294 < first ∨ 4294967295 < last ∨ last < first → done (refuse h 27 .badArgument u)) ∧
    (∀ i : CartId, index = i → first ≤ 4294967294 → last ≤ 4294967295 → first ≤ last →
      (u.cdr.records[i] = none → done (refuse h 27 .notFound u)) ∧
      (∀ c, u.cdr.records[i] = some c →
        let held := ∃ n : LaneId, u.vfy.contexts[n].state = .suspended ∧ u.vfy.contexts[n].cart = i
        (held → done (refuse h 27 .badState u)) ∧
        (¬ held → 8 ≤ u.vfy.queue.length → done (refuse h 27 .noRoom u)) ∧
        (¬ held → u.vfy.queue.length < 8 →
          done (answer h 27 .ok (.count (u.vfy.queue.length + 1)) (post .verifyStart { u with vfy := { u.vfy with
            queue := u.vfy.queue ++ [{ cart := i, label := c.label, first := first,
                                       last := if last = 4294967295 then none else some last,
                                       origin := .server h.tag, mountAsked := false }] } })))))

/-- VERIFY_SUSPEND suspends a RUNNING pass with cause SERVER and gives up its lane by the stage of its block;
VERIFY_RESUME resumes a SUSPENDED pass whose claim the lane grants. Either is refused otherwise, as the table of R155
says, and both report the context as it then stands (R73, R153, R155). A context suspended with cause RESTORE or WRITE
claims again by itself (R154). A pass resumed has its lane granted, is RUNNING without a cause, and goes on at its next
block unless it has a block in hand (R154, R155). VERIFY_CANCEL refuses a scope outside its ranges with BAD_ARGUMENT;
otherwise it replies OK with the number of queued requests and passes it ends, which may be 0, takes the requests out
of the queue with their notices (log entry 37 on their fields), ends the passes, a RUNNING one giving up its lane, and
the start test follows (R156, R157). That the queued requests' notices come first, in the order of the queue, and the
passes then end in the order of lanes 0 to 3 is the model's choice, log entry 43; that a scope ALL goes with any value,
log entry 18. -/
def Obligations.VerifySuspendResumeCancel : Prop :=
  (∀ (h : Hdr) (n : LaneId) (s : State),
     let grants := fun u : State => u.lanes[n].claim = .none ∧
       ((u.lanes[n].role = .read ∧ u.lanes[n].state = .ready) ∨
        ((∃ p, u.lanes[n].role = .write p) ∧ (u.lanes[n].state = .ready ∨ u.lanes[n].state = .hold) ∧
          u.asm[n].sealedQueue = []))
     (s.link.credit = true →
       let u := settle s
       let c := u.vfy.contexts[n]
       let suspendIs := fun t : State => exec (.verifySuspend h) s = .next (renewCredit (choose t))
       let resumeIs := fun t : State => exec (.verifyResume h) s = .next (renewCredit (choose t))
       let refusedWith := fun st => answer h 29 st (.verify c) u
       (3 < h.subject → suspendIs (refuse h 28 .badArgument u) ∧ resumeIs (refuse h 29 .badArgument u)) ∧
       (h.subject = n →
         (c.state ≠ .running → suspendIs (answer h 28 .badState (.verify c) u)) ∧
         (c.state = .running →
           let w := modCtx n (fun c => { c with state := .suspended, cause := some .server }) u
           let dropped := modCtx n (fun c => { c with stage := .none, inHand := none }) w
           let v :=
             if c.stage = .pages then releaseLane n (withdrawRead (.verify n) dropped)
             else if c.stage = .read ∧ u.lanes[n].command = none then
               releaseLane n (freeRead 16 (modCtx n (fun c => { c with pages := false }) dropped))
             else releaseLane n w
           suspendIs (answer h 28 .ok (.verify v.vfy.contexts[n]) v)) ∧
         (c.state = .suspended → grants u →
           resumeIs (answer h 29 .ok (.verify (resumePass n u).vfy.contexts[n]) (resumePass n u))) ∧
         (c.state ≠ .suspended → resumeIs (refusedWith .badState)) ∧
         (c.state = .suspended → ¬ grants u →
           (u.lanes[n].command ≠ none ∨ u.lanes[n].state = .ready ∨ u.lanes[n].state = .hold →
             resumeIs (refusedWith .busy)) ∧
           (u.lanes[n].command = none → u.lanes[n].state ≠ .ready → u.lanes[n].state ≠ .hold →
             resumeIs (refusedWith .badState))))) ∧
     (let u := takeDue (.verifyResume n) s
      let c := u.vfy.contexts[n]
      let again := c.state = .suspended ∧ (c.cause = some .restore ∨ c.cause = some .write) ∧ grants u
      (again → exec (.verifyAutoResume n) s = .next (choose (resumePass n u))) ∧
      (¬ again → exec (.verifyAutoResume n) s = .next (choose u))) ∧
     (let v := modCtx n (fun c => { c with state := .running, cause := none }) (grantVerify n s)
      (s.vfy.contexts[n].stage = .none → resumePass n s = passAdvance n v) ∧
      (s.vfy.contexts[n].stage ≠ .none → resumePass n s = v))) ∧
  (∀ (h : Hdr) (scope value : Nat) (s : State), s.link.credit = true →
     let u := settle s
     let done := fun t : State => exec (.verifyCancel h scope value) s = .next (renewCredit (choose t))
     ((scope = 0 ∧ 3 < value) ∨ (scope = 1 ∧ 63 < value) ∨ 2 < scope → done (refuse h 30 .badArgument u)) ∧
     ((scope = 0 ∧ value ≤ 3) ∨ (scope = 1 ∧ value ≤ 63) ∨ scope = 2 →
       let asked := fun r : VerifyRequest => decide (scope = 2 ∨ (scope = 1 ∧ value = r.cart.val))
       let under := fun n : LaneId => decide (u.vfy.contexts[n].state ≠ .idle ∧
         (scope = 2 ∨ (scope = 1 ∧ value = u.vfy.contexts[n].cart.val) ∨ (scope = 0 ∧ value = n.val)))
       let queued := u.vfy.queue.filter asked
       let passes := ([0, 1, 2, 3] : List LaneId).filter under
       let v := answer h 30 .ok (.count (queued.length + passes.length)) u
       done (post .verifyStart (forEach passes
         (fun n w =>
           if w.vfy.contexts[n].state = .running then releaseLane n (endPass n .cancelled w) else endPass n .cancelled w)
         (forEach queued (fun r => offerNotice (.verifyDone none r.cart r.label r.origin r.first
             (r.last.map Int.ofNat) .cancelled 0 0 0 0 none r.first))
           { v with vfy := { v.vfy with queue := v.vfy.queue.filter fun r => !asked r } })))))

/-- The claims on a lane and its release. A restore claim is granted in READY and HOLD; it becomes the pending claim in
WRITING, LOADING and LOCATING, and in READING for a verify pass, which is then suspended with cause RESTORE; elsewhere
it is refused (R73). A grant gives the lane to the restore, READING, with no pending claim and no catalog place; a
verify claim's grant gives it to the pass; on a WRITE lane either marks the cartridge for a locate, and no other record
changes (R73). A write claim arises at a seal on a WRITE lane that serves a verify pass and has no pending claim, at
the effective resume mark or with a mark-sealed block, and the pass is suspended with cause WRITE (R73, R154); that a
seal while a RESTORE claim is pending asks for nothing is the model's choice, log entry 43. A
suspension gives up the lane by the stage of the block in hand; a pass already SUSPENDED changes its cause only; with
no pass the lane is released at once (R153, R154). A release waits for an answer in flight; then activity is none, and
a pending restore claim is granted, or a pending eject sent, or the lane is READY with no claim and makes the
write-start test (R74). -/
def Obligations.LaneClaimsAndRelease : Prop :=
  ∀ (n : LaneId) (cause : SuspendCause) (s : State),
    let l := s.lanes[n]
    let c := s.vfy.contexts[n]
    let onLane := fun (f : Lane → Lane) (v : State) => { v with lanes := upd v.lanes n f }
    let pend := laneReport n (onLane (fun l => { l with claim := .restore }) s)
    let needs := fun t : State => ∀ i : CartId, t.cdr.records[i] =
      if (∃ p, l.role = .write p) ∧ l.mounted = some i then
        s.cdr.records[i].map (fun c => { c with needsLocate := true })
      else s.cdr.records[i]
    (l.state = .ready ∨ l.state = .hold → claimRestore n s = grantRestore n s) ∧
    (l.state = .writing ∨ l.state = .loading ∨ (l.state = .locating ∧ l.activity = .none) →
      claimRestore n s = pend) ∧
    ((l.state = .locating ∨ l.state = .reading) ∧ l.activity = .verify →
      claimRestore n s = suspendPass n .restore pend) ∧
    (l.state = .offline ∨ l.state = .empty ∨ l.state = .unknownMedia ∨ l.state = .unloading ∨ l.state = .ejected ∨
      l.state = .fault → claimRestore n s = s) ∧
    (let t := grantRestore n s
     t.lanes[n] = { l with
       state := .reading
       holdReason := none
       claim := .none
       activity := .restore
       releasing := false
       discard := false
       readBlock := none } ∧
     t.cat.places[n] = false ∧ needs t ∧ t.cdr.map = s.cdr.map ∧ t.asm = s.asm ∧
     ∀ m : LaneId, m ≠ n → t.lanes[m] = s.lanes[m]) ∧
    (let t := grantVerify n s
     t.lanes[n] = { l with state := .reading, holdReason := none, activity := .verify } ∧ needs t ∧
     t.cdr.map = s.cdr.map ∧ t.asm = s.asm ∧ t.cat = s.cat ∧ ∀ m : LaneId, m ≠ n → t.lanes[m] = s.lanes[m]) ∧
    (let arises := (∃ p, l.role = .write p) ∧ l.activity = .verify ∧ l.claim = .none ∧
       (min s.settings.resumeMark (s.pool.quotas.assembly[n] / 16) ≤ s.asm[n].sealedQueue.length ∨
         ∃ b ∈ s.asm[n].sealedQueue, b.cause = .mark)
     (arises → writeClaim n s =
       suspendPass n .write (laneReport n (onLane (fun l => { l with claim := .write }) s))) ∧
     (¬ arises → writeClaim n s = s)) ∧
    (c.state = .idle → suspendPass n cause s = releaseLane n s) ∧
    (c.state = .suspended → suspendPass n cause s = modCtx n (fun c => { c with cause := some cause }) s) ∧
    (c.state = .running →
      let w := modCtx n (fun c => { c with state := .suspended, cause := some cause }) s
      let dropped := modCtx n (fun c => { c with stage := .none, inHand := none }) w
      (c.stage = .pages → suspendPass n cause s = releaseLane n (withdrawRead (.verify n) dropped)) ∧
      (c.stage = .read → l.command = none → suspendPass n cause s =
        releaseLane n (freeRead 16 (modCtx n (fun c => { c with pages := false }) dropped))) ∧
      (c.stage = .none ∨ c.stage = .check ∨ (c.stage = .read ∧ l.command ≠ none) →
        suspendPass n cause s = releaseLane n w)) ∧
    (l.command ≠ none → releaseLane n s = onLane (fun l => { l with releasing := true }) s) ∧
    (l.command = none → releaseLane n s = doRelease n s) ∧
    (let v := onLane (fun l => { l with activity := .none, releasing := false, discard := false, readBlock := none }) s
     (l.claim = .restore → doRelease n s = grantRestore n v) ∧
     (l.claim ≠ .restore → l.ejectPending = true → doRelease n s = sendEject n v) ∧
     (l.claim ≠ .restore → l.ejectPending = false → doRelease n s =
       postFirst (.writeStart n) (setLaneState n .ready (onLane (fun l => { l with claim := .none }) v))))

/-- The start test treats the queued requests in order: a request whose cartridge is gone leaves the queue with its
notice (log entry 37); one whose cartridge is under a pass waits; one whose cartridge is in use by a lane starts there
if the lane's context is IDLE, the lane grants the claim and the same test has started no request on it, and waits
otherwise; any other needs a mount (R146, R147; log entry 43 on a pass that is complete at once). While no request of
the verify engine stands for one, a mount is asked with class BACKGROUND, or merged into the queue's request for the
cartridge (R121, R147). A pass that starts takes its range from the request, END being the end of data minus 1, and
goes to its first block (R148). A RUNNING pass asks for 16 pages for its next block and then has the lane read it; one
whose next block lies above its last is complete; a SUSPENDED one waits (R43, R149). A block is bad when its read failed
or a test of R150 fails: VERIFY_MISMATCH is raised and its 16 pages are freed. Otherwise its records go to the expander
one by one, each outcome is counted, and one that is not GOOD makes the block bad. A finished block is counted, and
exactly the catalog's entries of its cartridge and block are marked VERIFIED or BAD (R149 to R151, R141). A complete
pass without a bad block that starts at or below verified to raises it to its last block plus 1, at most the end of
data; any other leaves it (R152). Then its context is IDLE, keeping its range, next block and counts; a RUNNING one
releases its lane; VERIFY_DONE and the start test follow (R146, R152). A pass that is ended gives up its block by its
stage: nothing, the page request, the read asked of the lane and its 16 pages (log entry 41 on when they are freed), or
the expander slot and the pages, kept while a record is in expansion; then the context is IDLE (log entry 43 on what it
keeps), and VERIFY_DONE with the reason and the start test follow (R157). -/
def Obligations.VerifyStartsAndChecks : Prop :=
  (∀ (r : VerifyRequest) (used : List LaneId) (s : State),
     (let u := takeDue .verifyStart s
      exec .verifyStartTest s = .next (choose (u.vfy.queue.foldl (fun a r => testRequest r a.1 a.2) ([], u)).2)) ∧
     (let gone := ∀ c, s.cdr.records[r.cart] = some c →
        c.label ≠ r.label ∨ c.location = .outside ∨ c.location = .missing
      let under := ∃ n : LaneId, s.vfy.contexts[n].state ≠ .idle ∧ s.vfy.contexts[n].cart = r.cart
      (gone → testRequest r used s =
        (used, offerNotice (.verifyDone none r.cart r.label r.origin r.first (r.last.map Int.ofNat) .noCartridge 0 0 0 0
          none r.first) { s with vfy := { s.vfy with queue := s.vfy.queue.erase r } })) ∧
      (¬ gone → under → testRequest r used s = (used, s)) ∧
      (∀ n : LaneId, ¬ gone → ¬ under → inUseBy r.cart n s = true → (∀ m < n, inUseBy r.cart m s = false) →
        testRequest r used s =
          if s.vfy.contexts[n].state = .idle ∧ verifyGrants n s = true ∧ n ∉ used then
            (n :: used, startPass n r (grantVerify n s))
          else (used, s)) ∧
      (¬ gone → ¬ under → (∀ n : LaneId, inUseBy r.cart n s = false) →
        testRequest r used s = (used, verifyMount r s)) ∧
      (let standing := (∃ q ∈ s.vfy.queue, q.mountAsked = true) ∨
         ∃ m ∈ s.mounts, ∃ p ∈ m.requesters, p.1 = .verify
       let tag := match r.origin with
         | .server k => k
         | .close _ => 0
       (standing → verifyMount r s = s) ∧
       (∀ front rest, ¬ standing → (∃ m ∈ s.mounts, m.cart = some r.cart) →
         s.vfy.queue = front ++ r :: rest → r ∉ front → verifyMount r s = { s with
           vfy := { s.vfy with queue := front ++ { r with mountAsked := true } :: rest }
           mounts := s.mounts.map fun m =>
             if m.cart = some r.cart then { m with requesters := m.requesters ++ [(.verify, tag)] } else m }) ∧
       (¬ standing → 8 ≤ s.mounts.length → (∀ m ∈ s.mounts, m.cart ≠ some r.cart) → verifyMount r s = s) ∧
       (∀ front rest, ¬ standing → s.mounts.length < 8 → (∀ m ∈ s.mounts, m.cart ≠ some r.cart) →
         s.vfy.queue = front ++ r :: rest → r ∉ front → verifyMount r s = { s with
           vfy := { s.vfy with queue := front ++ { r with mountAsked := true } :: rest }
           mounts := s.mounts ++ [{ kind := .mount, cart := some r.cart, target := .anyRead, cls := .background,
                                    requesters := [(.verify, tag)], tag := tag, fillLane := none, inService := false,
                                    rebuilt := none }]
           due := s.due ++ [.serveTest] }))) ∧
     (∀ (n : LaneId) (c : Cart), s.cdr.records[r.cart] = some c →
       let last : Int := match r.last with
         | some b => b
         | none => (c.endOfData : Int) - 1
       startPass n r s = passAdvance n { s with vfy := { s.vfy with
         queue := s.vfy.queue.erase r
         contexts := s.vfy.contexts.set n { VerifyContext.idle with
           state := .running
           cart := r.cart
           label := r.label
           origin := r.origin
           first := r.first
           last := last
           next := r.first } } })) ∧
  (∀ (n : LaneId) (read : Option (List Byte)) (bytes : List Byte) (w : WalkedRecord) (rest : List WalkedRecord) (s : State),
     let c := s.vfy.contexts[n]
     let withCtx := fun (f : VerifyContext → VerifyContext) (v : State) => modCtx n f v
     (∀ e, testBlock read c.label (c.inHand.getD c.next) = .error e → passBlock n read s =
       blockDone n (raise .verifyMismatch (some n) (freeRead 16
         (withCtx (fun c => { c with stage := .check, blockBad := true, pages := false }) s)))) ∧
     (∀ rs, testBlock read c.label (c.inHand.getD c.next) = .ok rs → passBlock n read s =
       passRecords n (withCtx (fun c => { c with stage := .check, todo := rs }) s)) ∧
     (c.todo = [] → passRecords n s = blockDone n (freeRead 16 s)) ∧
     (let busy := s.exp.verifySlots[n] ≠ none ∨ ∃ x, s.exp.engine = some x ∧ x.client = .verify n
      (c.todo = w :: rest → busy → passRecords n s = s) ∧
      (c.todo = w :: rest → ¬ busy → passRecords n s =
        post .expanderTake { withCtx (fun c => { c with todo := rest }) s with exp := { s.exp with
          verifySlots := s.exp.verifySlots.set n
            (some { record := w, outputPage := false, abandoned := false, keptPages := 0 }) } })) ∧
     (c.records < 4294967295 → passOutcome n (.good bytes) s =
       passRecords n (withCtx (fun c => { c with records := c.records + 1 }) s)) ∧
     (∀ o, o = .corrupt ∨ o = .damaged → c.records < 4294967295 → c.badRecords < 4294967295 → passOutcome n o s =
       passRecords n (raise .verifyMismatch (some n) (withCtx (fun c => { c with
         records := c.records + 1
         badRecords := c.badRecords + 1
         blockBad := true }) s))) ∧
     (∀ b, c.inHand = some b → c.checked < 4294967295 → c.badBlocks < 4294967295 →
       let marked := s.cat.entries.map fun x =>
         if x.cart = c.cart ∧ x.block = b then { x with status := if c.blockBad = true then .bad else .verified } else x
       blockDone n s = passAdvance n { s with
         cat := { s.cat with entries := marked }
         vfy := { s.vfy with contexts := upd s.vfy.contexts n fun c => { c with
           checked := c.checked + 1
           badBlocks := if c.blockBad = true then c.badBlocks + 1 else c.badBlocks
           firstBad := if c.blockBad = true ∧ c.firstBad = none then some b else c.firstBad
           next := b + 1
           inHand := none
           stage := .none
           blockBad := false
           todo := []
           pages := false } } }) ∧
     (let ended := withCtx fun c => { c with
        state := .idle
        stage := .none
        inHand := none
        blockBad := false
        cause := none
        todo := []
        pages := false }
      let told := fun (result : VerifyResult) (v : State) => post .verifyStart (offerNotice (.verifyDone (some n) c.cart
        c.label c.origin c.first (some c.last) result c.checked c.badBlocks c.records c.badRecords c.firstBad c.next) v)
      let finish := fun v : State => told (if c.badBlocks = 0 then .passed else .failed)
        (if c.state = .running then releaseLane n (ended v) else ended v)
      let roomNow := s.pool.waiting = [] ∧ s.pool.held.read + 16 ≤ s.pool.quotas.read
      let asked := withCtx (fun c => { c with stage := .pages, inHand := some c.next }) s
      let raises := fun r : Cart => c.badBlocks = 0 ∧ c.first ≤ r.verifiedTo ∧ r.label = c.label
      (∀ r, s.cdr.records[c.cart] = some r → raises r → completePass n s = finish { s with
        cdr := { s.cdr with records := s.cdr.records.set c.cart (some { r with
          verifiedTo := min r.endOfData (max r.verifiedTo (c.last + 1).toNat) }) } }) ∧
      ((∀ r, s.cdr.records[c.cart] = some r → ¬ raises r) → completePass n s = finish s) ∧
      (completePass n s).vfy.contexts[n] = (ended s).vfy.contexts[n] ∧
      (c.last < (c.next : Int) → passAdvance n s = completePass n s) ∧
      ((c.next : Int) ≤ c.last → c.state ≠ .running → passAdvance n s = s) ∧
      ((c.next : Int) ≤ c.last → c.state = .running →
        (roomNow → passAdvance n s = passRead n { asked with
          pool := { s.pool with held := { s.pool.held with read := s.pool.held.read + 16 } } }) ∧
        (¬ roomNow → passAdvance n s = { asked with
          pool := { s.pool with waiting := s.pool.waiting ++ [{ client := .verify n, pages := 16 }] }
          due := s.due ++ [.readGrant] })) ∧
      passRead n s = laneRead n c.next (withCtx (fun c => { c with stage := .read, pages := true }) s) ∧
      (∀ result,
        (c.state = .idle → endPass n result s = s) ∧
        (c.state ≠ .idle →
          (c.stage = .none → endPass n result s = told result (ended s)) ∧
          (c.stage = .pages → endPass n result s = told result (ended (withdrawRead (.verify n) s))) ∧
          (c.stage = .read → endPass n result s = told result (ended (freeRead 16
            { s with lanes := upd s.lanes n fun l => { l with
              discard := l.discard || l.command.isSome
              readBlock := none } }))) ∧
          (c.stage = .check → endPass n result s = told result (ended (abandonPages (.verify n) 16 s)))))))

/-! ## Restore -/

/-- RESTORE meets the checks of R158 in order; otherwise it joins the tail of the restore queue with the frame's tag,
the stream of the frame's subject (log entry 8) and, for a start, the record's label, and the reply carries the number
queued, with it counted in even where it becomes active at once (log entry 46). RESTORE_CANCEL is carried out in every
state: it replies with the number ended, sends RESTORE_DONE for each queued one, and ends the active one after it has
given up its block (R168, R169); a scope other than a tag or ALL is refused, and with ALL the tag is not read (log
entry 18). That the queued ones' notices come first, oldest first, and the active one's last is the model's choice, log
entry 46. While there is no active restore the head of the queue becomes it and finds its first block (R160). What the
active restore gives up with its block, by its stage: the read asked of the lane, its page request, and its 16 pages
and output page, its slot at the expander and its waiting segment (R168; log entry 42 on a record in expansion, and on
one in the slot at a lane fault that the restore survives). The active restore ends: it releases the lane that serves
it or withdraws its pending claim, sends RESTORE_DONE with its counts and next wanted, and the queue's head is
activated (R167). That a lane whose claim is withdrawn is reported to the restore, a suspended pass, a waiting eject,
the loader and the verify queue in this order is the model's choice, log entry 3. -/
def Obligations.RestoreRequests : Prop :=
  (∀ (h : Hdr) (first last scope tag : Nat) (start : Option (Nat × Nat)) (s : State),
     (s.link.credit = true →
       let u := settle s
       let done := fun t : State => exec (.restore h first last start) s = .next (renewCredit (choose t))
       let cancelIs := fun t : State => exec (.restoreCancel h scope tag) s = .next (renewCredit (choose t))
       let startBad := ∃ p, start = some p ∧ (63 < p.1 ∨ 4294967294 < p.2)
       (31 < h.subject ∨ 4294967295 < last ∨ last < first ∨ startBad → done (refuse h 31 .badArgument u)) ∧
       (∀ (i : StreamId), h.subject = i → first ≤ last → last ≤ 4294967295 → ¬ startBad →
         let join := fun st : Option RestoreStart =>
           (16 ≤ u.rse.queue.length → done (refuse h 31 .noRoom u)) ∧
           (u.rse.queue.length < 16 → done (answer h 31 .ok (.count (u.rse.queue.length + 1)) (post .restoreActivate
             { u with rse := { u.rse with
               queue := u.rse.queue ++ [{ tag := h.tag, stream := i, first := first, last := last, start := st }] } })))
         (start = none → join none) ∧
         (∀ (k : CartId) (b : Nat), start = some (k.val, b) →
           (u.cdr.records[k] = none → done (refuse h 31 .notFound u)) ∧
           (∀ c, u.cdr.records[k] = some c → join (some { cart := k, block := b, label := c.label })))) ∧
       (1 < scope → cancelIs (refuse h 32 .badArgument u)) ∧
       (scope ≤ 1 →
         let within := fun t : Nat => decide (scope = 1 ∨ t = tag)
         let queued := u.rse.queue.filter fun r => within r.tag
         let v := fun k => forEach queued (fun r => offerNotice (.restoreDone r.tag r.stream r.first r.last .cancelled 0 0 0 r.first))
           { answer h 32 .ok (.count (queued.length + k)) u with
             rse := { u.rse with queue := u.rse.queue.filter fun r => !within r.tag } }
         ((∀ c, u.rse.active = some c → within c.tag = false) → cancelIs (post .restoreActivate (v 0))) ∧
         (∀ c, u.rse.active = some c → within c.tag = true →
           cancelIs (post .restoreActivate (finishRestore .cancelled (giveUp true (v 1))))))) ∧
     (let u := takeDue .restoreActivate s
      let activateIs := fun t : State => exec .restoreActivate s = .next (choose t)
      (u.rse.active ≠ none ∨ u.rse.queue = [] → activateIs u) ∧
      (∀ r rest, u.rse.active = none → u.rse.queue = r :: rest →
        let c : RestoreContext :=
          { tag := r.tag, stream := r.stream, first := r.first, last := r.last, start := r.start, state := .finding,
            next := r.first, cart := none, block := none, runEnd := none, lane := none, mountAsked := false, good := 0,
            damaged := 0, notFound := 0, laneFaults := 0, stage := .start, todo := [], damage := none, pages := false,
            outputPage := false, segment := none, sentAny := false, missedAny := false }
        activateIs (findNext { u with rse := { queue := rest, active := some c } })))) ∧
  (∀ (ends : Bool) (result : RestoreResult) (c : RestoreContext) (s : State), s.rse.active = some c →
    let serves := fun n : LaneId => decide (s.lanes[n].activity = .restore ∧ s.lanes[n].releasing = false)
    let asked : State :=
      match c.lane with
      | none => s
      | some n =>
        if c.stage = .read ∧ serves n = true then
          { s with lanes := upd s.lanes n fun l => { l with
              discard := l.discard || l.command.isSome
              readBlock := none } }
        else s
    let pages := (if c.pages = true then 16 else 0) + (if c.outputPage = true then 1 else 0)
    let freed := if ends = true then abandonPages .restore pages (withdrawRead .restore asked)
      else surrenderPages .restore pages (withdrawRead .restore asked)
    let left : State :=
      match c.lane with
      | none => s
      | some n =>
        if serves n = true then releaseLane n s
        else if s.lanes[n].claim = .restore then
          { s with
            lanes := upd s.lanes n fun l => { l with claim := .none }
            due := s.due ++ [.restoreLane n, .verifyResume n, .ejectAsk n, .serveTest, .verifyStart] }
        else s
    let told := offerNotice
      (.restoreDone c.tag c.stream c.first c.last result c.good c.damaged c.notFound c.next) left
    giveUp ends s = { freed with rse := { s.rse with active := some { c with
      stage := .start
      todo := []
      damage := none
      pages := false
      outputPage := false
      segment := none } } } ∧
    finishRestore result s = { told with
      rse := { s.rse with active := none }
      due := told.due ++ [.restoreActivate] })

/-- How the active restore reaches a block. A catalog search gives the oldest entry with a run that holds the sequence
(R142); one that finds no entry, an explicit start whose cartridge is gone, and one whose block is at or above the end
of data count the rest as not found and complete (R161, R162). A cartridge mounted on the lane the restore holds is
read at once: 16 pages are asked for, at the front of the waiting list while there is no room (R43, R163 case 1, R165);
a lane held for another cartridge is released first; a cartridge out of the library sends the run DAMAGED in catalog
mode; one in use by a lane (R92) is claimed there, read at once where the lane is granted and waited for otherwise, and
reached again at the lane's reports while it waits; any other needs a mount, asked with class URGENT and, when the
queue has no room, again at its room notice (R163, R164). A lane fault sends a first time back to FINDING and ends the
restore a second time (R168); a complete restore is COMPLETE when no sequence was sent DAMAGED or counted as not found,
NOT_FOUND when no segment was sent, and PARTIAL otherwise (R167). -/
def Obligations.RestoreReaches : Prop :=
  ∀ (c : RestoreContext) (s : State), s.rse.active = some c →
    let withCtx := fun (f : RestoreContext → RestoreContext) (v : State) => { v with rse := { v.rse with active := some (f c) } }
    let holds := fun r : CatRun => r.stream = c.stream ∧ r.first ≤ c.next ∧ c.next ≤ r.last
    let noneLeft := completeRestore (withCtx (fun c => { c with
      notFound := c.notFound + (c.last + 1 - c.next)
      next := c.last + 1
      missedAny := c.missedAny || decide (c.next ≤ c.last) }) s)
    let countable := c.notFound + (c.last + 1 - c.next) ≤ 4294967295
    (c.start = none → (∀ e ∈ s.cat.entries, ∀ r ∈ e.runs, ¬ holds r) → countable → findNext s = noneLeft) ∧
    (∀ older e newer before r behind, c.start = none → s.cat.entries = older ++ e :: newer →
      (∀ x ∈ older, ∀ y ∈ x.runs, ¬ holds y) → e.runs = before ++ r :: behind → (∀ y ∈ before, ¬ holds y) → holds r →
      findNext s = reach (withCtx (fun c => { c with
        state := .finding
        cart := some (e.cart, e.label)
        block := some e.block
        runEnd := some (min r.last c.last) }) s)) ∧
    (∀ st, c.start = some st →
      let b := c.block.getD st.block
      let gone := ∀ r, s.cdr.records[st.cart] = some r →
        r.label ≠ st.label ∨ r.location = .outside ∨ r.location = .missing
      (gone → countable → findNext s = noneLeft) ∧
      (∀ r, s.cdr.records[st.cart] = some r → r.endOfData ≤ b → countable → findNext s = noneLeft) ∧
      (∀ r, s.cdr.records[st.cart] = some r → ¬ gone → b < r.endOfData → findNext s = reach (withCtx (fun c => { c with
        state := .finding
        cart := some (st.cart, st.label)
        block := some b }) s))) ∧
    (∀ i label n, c.cart = some (i, label) → c.lane = some n → s.lanes[n].activity = .restore →
      s.lanes[n].releasing = false →
      (s.lanes[n].mounted = some i → reach s = startRead s) ∧
      (s.lanes[n].mounted ≠ some i → reach s = reach { releaseLane n s with
        rse := { s.rse with active := some { c with lane := none } } })) ∧
    (let asks := withCtx (fun c => { c with state := .reading, stage := .pages }) s
     (s.pool.waiting = [] → s.pool.held.read + 16 ≤ s.pool.quotas.read → startRead s = restoreRead { asks with
       pool := { s.pool with held := { s.pool.held with read := s.pool.held.read + 16 } } }) ∧
     (s.pool.waiting ≠ [] ∨ s.pool.quotas.read < s.pool.held.read + 16 → startRead s = { asks with
       pool := { s.pool with waiting := { client := .restore, pages := 16 } :: s.pool.waiting }
       due := s.due ++ [.readGrant] }) ∧
     (∀ n b, c.lane = some n → c.block = some b → restoreRead s =
       laneRead n b (withCtx (fun c => { c with stage := .read, pages := true }) s))) ∧
    (∀ n, (c.state = .waitingMount ∧ c.lane = some n →
        (s.lanes[n].activity = .restore → s.lanes[n].releasing = false → restoreLane n s = startRead s) ∧
        (s.lanes[n].activity ≠ .restore ∨ s.lanes[n].releasing = true →
          (s.lanes[n].claim = .restore → restoreLane n s = s) ∧
          (s.lanes[n].claim ≠ .restore → restoreLane n s = reach s))) ∧
      (c.state ≠ .waitingMount ∨ c.lane ≠ some n → restoreLane n s = s)) ∧
    (c.state = .waitingMount → c.lane = none → c.mountAsked = false → restoreRoom s = restoreMount s) ∧
    (c.state ≠ .waitingMount ∨ c.lane ≠ none ∨ c.mountAsked = true → restoreRoom s = s) ∧
    (∀ i label, c.cart = some (i, label) → c.lane = none →
      (c.start = none → reachable i label s = false → reach s = startDamage (c.runEnd.getD c.next) .cartridge .find s) ∧
      (c.start ≠ none ∨ reachable i label s = true →
        (∀ n, usingLane i s = some n → reach s = restoreClaim n s) ∧
        (usingLane i s = none → reach s = restoreMount s))) ∧
    (∀ i label, c.cart = some (i, label) → (∀ m ∈ s.mounts, m.cart ≠ some i) →
      (8 ≤ s.mounts.length → restoreMount s = withCtx (fun c => { c with
        lane := none
        state := .waitingMount
        mountAsked := false }) s) ∧
      (s.mounts.length < 8 → restoreMount s = post .serveTest (withCtx (fun c => { c with
        lane := none
        state := .waitingMount
        mountAsked := true }) { s with mounts := s.mounts ++
          [{ kind := .mount, cart := some i, target := .anyRead, cls := .urgent, requesters := [(.restore, c.tag)],
             tag := c.tag, fillLane := none, inService := false, rebuilt := none }] }))) ∧
    (∀ (i : CartId) (label : List Byte) (n : LaneId),
      let inUse := fun m : LaneId => (s.lanes[m].mounted = some i ∧ s.lanes[m].state ≠ .ejected) ∨
        (namedAt (.bay m) s = some i ∧ (s.lanes[m].state = .loading ∨ s.lanes[m].state = .unloading))
      let v := claimRestore n (withCtx (fun c => { c with lane := some n }) s)
      let granted := v.lanes[n].activity = .restore ∧ v.lanes[n].releasing = false
      (reachable i label s = true ↔ ∃ r, s.cdr.records[i] = some r ∧ r.label = label ∧ r.location ≠ .outside ∧
        r.location ≠ .missing) ∧
      (inUseBy i n s = true ↔ inUse n) ∧
      (usingLane i s = some n ↔ inUse n ∧ ∀ m < n, ¬ inUse m) ∧
      (usingLane i s = none ↔ ∀ m, ¬ inUse m) ∧
      (granted → restoreClaim n s = startRead v) ∧
      (¬ granted → restoreClaim n s = withCtx (fun c => { c with lane := some n, state := .waitingMount }) v)) ∧
    completeRestore s = finishRestore
      (if c.missedAny = false then .complete else if c.sentAny = false then .notFound else .partly) s ∧
    (c.laneFaults = 0 → restoreLaneFault s = post .restoreGo { giveUp false s with rse := { s.rse with active := some { c with
      state := .finding
      lane := none
      laneFaults := 1
      stage := .start
      todo := []
      damage := none
      pages := false
      outputPage := false
      segment := none } } }) ∧
    (c.laneFaults ≠ 0 → restoreLaneFault s = finishRestore .laneFault
      { giveUp true s with rse := { s.rse with active := some { c with
        lane := none
        stage := .start
        todo := []
        damage := none
        pages := false
        outputPage := false
        segment := none } } })

/-- How the active restore sends a block's records. A bad block sends its run DAMAGED with cause BLOCK in catalog mode
and is passed over in explicit mode; its pages are freed at once. The wanted records of a good one are those of the
stream from next wanted to the last, and in catalog mode to the run's end; they are taken one at a time (R165). In
explicit mode the sequences passed over are counted as not found; in catalog mode they are sent DAMAGED with cause
BLOCK before it, which R165 does not say and the model infers (log entry 16). A record with its output page goes to the
expander unless an earlier one of the restore is there (R31). A good outcome gives a segment GOOD with the bytes; any
other gives one DAMAGED with cause RECORD and frees the output page; the outcome of the last wanted record frees the
block's 16 pages, and the end of the block those that no outcome freed (R44, R165; log entry 41 on the block without a
wanted record). A segment taken frees its output page, raises its count and next wanted, and the restore goes on (R44,
R165; that it asks for its next page before the freed page's service of the waiting list is the model's choice, log
entry 46); after the block, what is left of the run is sent DAMAGED in catalog mode, and in explicit mode the block
rises by 1; then the restore is complete, or finds its next block (R165, R166). -/
def Obligations.RestoreSegments : Prop :=
  ∀ (c : RestoreContext) (s : State), s.rse.active = some c →
    let withCtx := fun (f : RestoreContext → RestoreContext) (v : State) => { v with rse := { v.rse with active := some (f c) } }
    let pageRoom := s.pool.waiting = [] ∧ s.pool.held.read + 1 ≤ s.pool.quotas.read
    let take := fun v : State => { v with pool := { v.pool with held := { v.pool.held with read := v.pool.held.read + 1 } } }
    let free := fun (k : Nat) (v : State) => { v with
      pool := { v.pool with held := { v.pool.held with read := v.pool.held.read - k } }
      due := v.due ++ [.readGrant] }
    let damaged := fun (f : RestoreContext → RestoreContext) (upTo : Nat) (cause : SegmentCause) (after : AfterDamage)
        (v : State) => withCtx (fun c => { f c with
      damage := some { upTo := upTo, cause := cause, after := after }
      state := .sending
      segment := some { tag := c.tag, stream := c.stream, seq := c.next, cause := cause, bytes := [] } }) v
    let emptied := if c.pages = true then free 16 s else s
    (∀ upTo cause after, startDamage upTo cause after s = damaged id upTo cause after s) ∧
    (∀ read label b, c.cart.map Prod.snd = some label → c.block = some b →
      (∀ e, testBlock read label b = .error e →
        let f := fun c : RestoreContext => { c with stage := .start, pages := false }
        (∀ k, c.start = none → c.runEnd = some k → c.pages = true →
          restoreBlock read s = free 16 (damaged f k .block .find s)) ∧
        (c.start ≠ none → c.pages = true →
          restoreBlock read s = afterBlock (free 16 (withCtx (fun c => { f c with block := some (b + 1) }) s)))) ∧
      (∀ rs last, testBlock read label b = .ok rs →
        (c.start ≠ none ∧ last = c.last) ∨ (∃ k, c.start = none ∧ c.runEnd = some k ∧ last = min c.last k) →
        restoreBlock read s = restoreRecords (withCtx (fun c => { c with
          stage := .records
          todo := rs.filter fun r => decide (r.stream = c.stream.val ∧ c.next ≤ r.seq ∧ r.seq ≤ last) }) s))) ∧
    (∀ r rest, c.todo = r :: rest →
      (c.start ≠ none → c.next < r.seq → c.notFound + (r.seq - c.next) ≤ 4294967295 →
        let f := fun c : RestoreContext => { c with
          stage := .output
          notFound := c.notFound + (r.seq - c.next)
          missedAny := true
          next := r.seq }
        (pageRoom → restoreRecords s = restoreOffer (take (withCtx f s))) ∧
        (¬ pageRoom → restoreRecords s = waitRead .restore 1 (withCtx f s))) ∧
      (c.start = none → c.next < r.seq →
        restoreRecords s = damaged (fun c => { c with stage := .output }) (r.seq - 1) .block .records s) ∧
      (r.seq ≤ c.next →
        (pageRoom → restoreRecords s = restoreOffer (take (withCtx (fun c => { c with stage := .output }) s))) ∧
        (¬ pageRoom → restoreRecords s = waitRead .restore 1 (withCtx (fun c => { c with stage := .output }) s))) ∧
      (let busy := s.exp.restoreSlot ≠ none ∨ ∃ x, s.exp.engine = some x ∧ x.client = .restore
       (busy → restoreOffer s = withCtx (fun c => { c with outputPage := true }) s) ∧
       (¬ busy → restoreOffer s = { withCtx (fun c => { c with outputPage := true, stage := .expand, todo := rest }) s with
         exp := { s.exp with restoreSlot := some { record := r, outputPage := true, abandoned := false, keptPages := 0 } }
         due := s.due ++ [.expanderTake] }))) ∧
    (c.todo = [] →
      let f := fun c : RestoreContext => { c with stage := .start, pages := false }
      restoreRecords s = blockEnd s ∧
      (∀ k, c.start = none → c.runEnd = some k →
        (c.next ≤ k → blockEnd s = damaged f k .block .find emptied) ∧
        (k < c.next → blockEnd s = afterBlock (withCtx f emptied))) ∧
      (∀ b, c.start ≠ none → c.block = some b →
        blockEnd s = afterBlock (withCtx (fun c => { f c with block := some (b + 1) }) emptied))) ∧
    (∀ (w : WalkedRecord) (bytes : List Byte) (o : Expanded),
      let formed := fun (cause : SegmentCause) (bs : List Byte) (c : RestoreContext) => { c with
        state := .sending
        stage := .records
        segment := some { tag := c.tag, stream := c.stream, seq := w.seq, cause := cause, bytes := bs } }
      (c.todo ≠ [] → restoreOutcome w (.good bytes) s = withCtx (formed .none bytes) s) ∧
      (c.todo = [] → c.pages = true → restoreOutcome w (.good bytes) s =
        free 16 (withCtx (fun c => { formed .none bytes c with pages := false }) s)) ∧
      (o = .corrupt ∨ o = .damaged →
        (c.todo ≠ [] → restoreOutcome w o s =
          free 1 (withCtx (fun c => { formed .record [] c with outputPage := false }) s)) ∧
        (c.todo = [] → c.pages = true → restoreOutcome w o s =
          free 1 (free 16 (withCtx (fun c => { formed .record [] c with outputPage := false, pages := false }) s))))) ∧
    (∀ g, c.good < 4294967295 → c.damaged < 4294967295 →
      let f := fun c : RestoreContext => { c with
        good := if g.cause = .none then c.good + 1 else c.good
        damaged := if g.cause = .none then c.damaged else c.damaged + 1
        next := g.seq + 1
        segment := none
        state := .reading
        sentAny := true
        missedAny := c.missedAny || decide (g.cause ≠ .none) }
      (c.outputPage = true → segmentTaken g s =
        restoreGo (free 1 (withCtx (fun c => { f c with outputPage := false }) s))) ∧
      (c.outputPage = false → segmentTaken g s = restoreGo (withCtx f s))) ∧
    (c.state = .reading →
      (∀ d, c.damage = some d →
        (c.next ≤ d.upTo → restoreGo s = damaged id d.upTo d.cause d.after s) ∧
        (d.upTo < c.next → d.after = .find → restoreGo s = afterBlock (withCtx (fun c => { c with damage := none }) s)) ∧
        (d.upTo < c.next → d.after = .records →
          restoreGo s = restoreRecords (withCtx (fun c => { c with damage := none }) s))) ∧
      (c.damage = none → c.stage = .records → restoreGo s = restoreRecords s) ∧
      (c.damage = none → c.stage ≠ .records → restoreGo s = s)) ∧
    (c.last < c.next → afterBlock s = completeRestore s) ∧
    (c.next ≤ c.last → afterBlock s = findNext (withCtx (fun c => { c with state := .finding, stage := .start }) s))

/-! ## Time base, captures, compares, lines and trigger sets -/

/-- The three requests of R181 refuse an empty mask, or one beyond the eight sets, with BAD_ARGUMENT. TRIGGER_ARM
refuses with FAULTED a mask that holds a fault-guarded set while a lane or the loader is in FAULT; otherwise the sets
of the mask are armed, by TRIGGER_DISARM they are disarmed, and the reply gives the eight armed flags. TRIGGER_FIRE
carries out a wave of kind FIRE from the armed sets of the mask, in increasing number, and its reply gives the time
base, the sets that acted in order, and the armed flags after it (R178, R179, R181). CAPTURE_READ gives the time base
and the slots of its mask, and with clear empties them, their contents left as stale values; an empty mask is refused
(R173). That the reply lists the slots in increasing number is the model's choice, log entry 44. LINES_SET and
COMPARE_FORCE write the library lines of a mask, but for the line of the mail door while the loader holds it, and reply
with the levels after the write; COMPARE_FORCE leaves the slot as it is and refuses a slot above 3 (R175, R176). -/
def Obligations.TimeUnitRequests : Prop :=
  (∀ (h : Hdr) (mask : Nat) (s : State), s.link.credit = true →
     let u := settle s
     let does := fun (c : Instr) (t : State) => exec c s = .next (renewCredit (choose t))
     let flags := fun (v : State) (a : BitVec 8) => ∀ i : Fin 8, a.getLsbD i = v.ttu.triggers[i].armed
     let sets := fun b : Bool => Vector.ofFn fun i : Fin 8 =>
       let t := u.ttu.triggers[i]
       if mask.testBit i = true then { t with armed := b } else t
     let armedBy := fun b : Bool => { u with ttu := { u.ttu with triggers := sets b } }
     let guarded := (∃ i : Fin 8, mask.testBit i = true ∧ u.ttu.triggers[i].faultGuard = true) ∧
       (u.ldr.state = .fault ∨ ∃ n : LaneId, u.lanes[n].state = .fault)
     (mask = 0 ∨ 255 < mask → does (.triggerArm h mask) (refuse h 33 .badArgument u) ∧
       does (.triggerDisarm h mask) (refuse h 34 .badArgument u) ∧
       does (.triggerFire h mask) (refuse h 35 .badArgument u)) ∧
     (1 ≤ mask → mask ≤ 255 →
       (guarded → does (.triggerArm h mask) (refuse h 33 .faulted u)) ∧
       (¬ guarded → ∃ a, flags (armedBy true) a ∧
         does (.triggerArm h mask) (answer h 33 .ok (.armed a) (armedBy true))) ∧
       (∃ a, flags (armedBy false) a ∧ does (.triggerDisarm h mask) (answer h 34 .ok (.armed a) (armedBy false))) ∧
       (let fire : Happening := { kind := .fire, qual := none, time := u.ttu.time, position := u.ldr.logical }
        let w := wave fire ((List.finRange 8).filter fun i => mask.testBit i && u.ttu.triggers[i].armed) u
        ∃ a, flags w.2 a ∧ does (.triggerFire h mask) (answer h 35 .ok (.fired u.ttu.time w.1 a) w.2)))) ∧
  (∀ (h : Hdr) (mask data : Nat) (clear : Bool) (s : State), s.link.credit = true →
     let u := settle s
     let does := fun (c : Instr) (t : State) => exec c s = .next (renewCredit (choose t))
     let emptied := Vector.ofFn fun i : Fin 8 =>
       let c := u.ttu.captures[i]
       if mask.testBit i = true then { c with full := false, lost := false } else c
     let linesAre := fun (m d l : BitVec 8) => ∀ i : Fin 8, l.getLsbD i =
       if m.getLsbD i = true ∧ u.ldr.doorHold ≠ some i then d.getLsbD i else u.ttu.lines.getLsbD i
     (mask = 0 ∨ 255 < mask → does (.captureRead h mask clear) (refuse h 36 .badArgument u)) ∧
     (1 ≤ mask → mask ≤ 255 → does (.captureRead h mask clear) (answer h 36 .ok (.captured u.ttu.time
         (((List.finRange 8).filter fun i : Fin 8 => mask.testBit i).map fun i => (i, u.ttu.captures[i])))
       (if clear = true then { u with ttu := { u.ttu with captures := emptied } } else u))) ∧
     (255 < mask ∨ 255 < data → does (.linesSet h mask data) (refuse h 37 .badArgument u)) ∧
     (mask ≤ 255 → data ≤ 255 → ∃ l, linesAre (BitVec.ofNat 8 mask) (BitVec.ofNat 8 data) l ∧
       does (.linesSet h mask data) (answer h 37 .ok (.linesAt u.ttu.time l) { u with ttu := { u.ttu with lines := l } })) ∧
     (3 < data → does (.compareForce h data) (refuse h 38 .badArgument u)) ∧
     (∀ c : Fin 4, data = c → ∃ l, linesAre u.ttu.compares[c].lineMask u.ttu.compares[c].lineData l ∧
       does (.compareForce h data) (answer h 38 .ok (.lines l) { u with ttu := { u.ttu with lines := l } })))

/-- The compare test owed by the last advance of the time base: a slot matches when the advance reached its value, and
is tested against what a write has put there since, so that a slot enabled afterwards with the present value waits a
full turn (R174); each line that matching slots mask takes the level of the lowest of them, the held door line
excepted; the matching slots disable themselves; then each raises COMPARE, the lowest slot first, with its trigger mask
(R175; log entry 4 on the order). With no test owed nothing changes (log entry 21). A tick carries out what is due at
the present time and then advances the time base by 1, modulo 2^32; a lane in HOLD counts the tick (R83, R170). What is
due is tried as the commands of the same names try it: the compare match; for the lanes 0 to 3 in turn the command's
limit, the age of the open block and the end of the window (R50, R59, R77); the travel step, the homing step with the
home sensor as last read, and the grip's limit (R113, R116, R117). After each the arbiter chooses and everything that
fell due is carried out. This list and its order are the model's choice, log entry 4. -/
def Obligations.CompareMatchAndTick : Prop :=
  ∀ (lines : BitVec 8) (s : State),
    let u := settle s
    let found := (List.finRange 4).filter fun c : Fin 4 =>
      u.ttu.compareOwed[c] && u.ttu.compares[c].enabled && decide (u.ttu.compares[c].value = u.ttu.time)
    ((∀ c : Fin 4, u.ttu.compareOwed[c] = false) → exec .compareMatch s = .next (choose u)) ∧
    ((∀ l : Fin 8, lines.getLsbD l =
        match found.find? fun c : Fin 4 => u.ttu.compares[c].lineMask.getLsbD l with
        | none => u.ttu.lines.getLsbD l
        | some c => if u.ldr.doorHold = some l then u.ttu.lines.getLsbD l else u.ttu.compares[c].lineData.getLsbD l) →
      exec .compareMatch s = .next (choose (found.foldl
        (fun v (c : Fin 4) => takeEvent .compare (some c.val) v.ttu.compares[c].triggerMask v)
        { u with ttu := { u.ttu with
          lines := lines
          compareOwed := #v[false, false, false, false]
          compares := Vector.ofFn fun c : Fin 4 =>
            if c ∈ found then { u.ttu.compares[c] with enabled := false } else u.ttu.compares[c] } }))) ∧
    (let tried : List (State → State) :=
       [compareMatch,
        commandTimeout 0, sealAge 0, windowExpiry 0, commandTimeout 1, sealAge 1, windowExpiry 1,
        commandTimeout 2, sealAge 2, windowExpiry 2, commandTimeout 3, sealAge 3, windowExpiry 3,
        travelStep, fun v => homingStep v.ldr.homeSensor v, gripTimeout]
     let v := tried.foldl (fun v f => settle (choose (f v))) u
     let starved := Vector.ofFn fun n : LaneId =>
       let g := v.gov[n]
       if v.lanes[n].state = .hold then { g with starve := min 4294967295 (g.starve + 1) } else g
     exec .timeBaseTick s = .next (choose { v with
       ttu := { v.ttu with
         time := v.ttu.time + 1
         compareOwed := v.ttu.compares.map fun x => x.enabled && decide (x.value = v.ttu.time + 1) }
       gov := starved })) ∧
    (∀ (n : LaneId) (homeActive : Bool) (v : State),
      exec .compareMatch v = .next (choose (compareMatch (settle v))) ∧
      exec (.commandTimeout n) v = .next (choose (commandTimeout n (settle v))) ∧
      exec (.sealAgeExpiry n) v = .next (choose (sealAge n (settle v))) ∧
      exec (.windowEnd n) v = .next (choose (windowExpiry n (settle v))) ∧
      exec .travelStep v = .next (choose (travelStep (settle v))) ∧
      exec (.homingStep homeActive) v = .next (choose (homingStep homeActive (settle v))) ∧
      exec .gripTimeout v = .next (choose (gripTimeout (settle v))))

/-- The unit takes an event: LANE_FAULT and MOVE_FAULT disarm the fault-guarded sets first; every slot whose source
selects the event captures it, with lost set where the slot was full; then the wave starts, in increasing number, with
the armed sets whose factor names the event, for a compare match together with the armed sets of its slot's trigger
mask (R171, R172, R175, R178, R180). In a wave a set acts at most once, and only one that was armed when the wave
started; each set's actions are carried out in order, a set of mode ONCE is then disarmed, and the armed sets of its
chain mask that have neither acted nor wait join the tail of the list in increasing number (R178). The wave arms no
set. What a set's actions do (R179): CAPTURE fills its slot whatever the slot's source, LINES writes the lines, NOTICE
offers TRIGGER with the wave's event, COMPARE_ARM enables its slot at the time base plus the delay, and a stop acts by
the table of R115, without effect in UNHOMED, IDLE and FAULT, and a verify action as the request of its name, without
effect where the request would be refused. That another block acts at once, before the wave's next action, is the
model's choice, log entry 46. -/
def Obligations.EventsWavesAndActions : Prop :=
  (∀ (kind : EventKind) (qual : Option Nat) (mask : BitVec 8) (u : State),
     let picked := fun (k : EventKind) (q : Option Nat) => decide (k = kind ∧ (q = none ∨ q = qual))
     let guard := kind = .laneFault ∨ kind = .moveFault
     let v : State := { u with ttu := { u.ttu with
       triggers := u.ttu.triggers.map fun t => { t with armed := t.armed && !(decide guard && t.faultGuard) }
       captures := u.ttu.captures.map fun c =>
         match c.source with
         | .byAction => c
         | .event k q =>
           if picked k q = true then
             { c with
               full := true
               lost := c.lost || c.full
               kind := some (.event kind)
               time := u.ttu.time
               position := u.ldr.logical
               qual := qual }
           else c } }
     let now : Happening := { kind := .event kind, qual := qual, time := u.ttu.time, position := u.ldr.logical }
     takeEvent kind qual mask u = (wave now ((List.finRange 8).filter fun i : Fin 8 =>
       v.ttu.triggers[i].armed && (mask.getLsbD i || match v.ttu.triggers[i].factor with
         | .none => false
         | .event k q => picked k q)) v).2) ∧
  (∀ (e : Event) (s : State),
     exec (.ttuEvent e) s = .next (choose (takeEvent e.kind e.qual 0#8 (takeDue (.event e) s)))) ∧
  (∀ (w : Happening) (start : List (Fin 8)) (s : State), start.Nodup →
     let r := wave w start s
     r.1.Nodup ∧ (∀ i ∈ r.1, s.ttu.triggers[i].armed = true) ∧
     (∀ i : Fin 8, r.2.ttu.triggers[i].armed = true → s.ttu.triggers[i].armed = true) ∧
     (∀ i : Fin 8, r.2.ttu.triggers[i].armed = (s.ttu.triggers[i].armed &&
       !(decide (i ∈ r.1) && decide (s.ttu.triggers[i].mode = .once)))) ∧
     (∀ i ∈ start, s.ttu.triggers[i].armed = true → i ∈ r.1) ∧
     (∀ (i : Fin 8) (rest acted : List (Fin 8)) (k : Nat) (v : State), i ∉ acted → v.ttu.triggers[i].armed = true →
       let t := v.ttu.triggers[i]
       let done := t.actions.foldl (fun x a => act i w a x) v
       let x := if t.mode = .once then
           { done with ttu := { done.ttu with triggers := upd done.ttu.triggers i fun y => { y with armed := false } } }
         else done
       waveRounds w (k + 1) (i :: rest) acted v = waveRounds w k (rest ++ (List.finRange 8).filter fun j : Fin 8 =>
         x.ttu.triggers[i].chain.getLsbD j && x.ttu.triggers[j].armed && !(acted ++ [i]).contains j && !rest.contains j)
         (acted ++ [i]) x)) ∧
  (∀ (i slot : Fin 8) (c : Fin 4) (n : LaneId) (w : Happening) (m d : BitVec 8) (code delay : Nat) (mode : StopMode)
     (s : State),
     act i w (.capture slot) s = { s with ttu := { s.ttu with captures := upd s.ttu.captures slot fun x =>
       { x with
         full := true
         lost := x.lost || x.full
         kind := some w.kind
         time := w.time
         position := w.position
         qual := w.qual } } } ∧
     (∃ l, act i w (.lines m d) s = { s with ttu := { s.ttu with lines := l } } ∧ ∀ k : Fin 8, l.getLsbD k =
       if m.getLsbD k = true ∧ s.ldr.doorHold ≠ some k then d.getLsbD k else s.ttu.lines.getLsbD k) ∧
     act i w (.notice code) s = offerNotice (.trigger i code w.kind w.qual w.time) s ∧
     act i w (.compareArm c delay) s = { s with ttu := { s.ttu with compares := upd s.ttu.compares c fun x =>
       { x with
         value := s.ttu.time + BitVec.ofNat 32 delay
         enabled := true } } } ∧
     (s.ldr.state = .unhomed ∨ s.ldr.state = .idle ∨ s.ldr.state = .fault → act i w (.stop mode) s = s) ∧
     (s.ldr.state = .homing → act i w (.stop mode) s = { s with ldr := { s.ldr with homingStop := true } }) ∧
     (s.ldr.state = .running ∨ s.ldr.state = .stopping →
       let now := s.ldr.plan.bind fun p => p.steps[p.current]?
       let stopping := fun f : Loader → Loader => { s with ldr := { f s.ldr with state := .stopping } }
       (∀ l, now = some (.travel l) → act i w (.stop mode) s = stopping fun d => { d with
         remaining := min d.remaining (if mode = .decel then (d.ramp + 1).toNat else 1) }) ∧
       (∀ m, now = some (.laneEject m) → act i w (.stop mode) s = planFails .stopped (stopping id)) ∧
       ((∀ l, now ≠ some (.travel l)) → (∀ m, now ≠ some (.laneEject m)) →
         act i w (.stop mode) s = stopping id)) ∧
     (s.vfy.contexts[n].state ≠ .running → act i w (.suspendVerify n) s = s) ∧
     (s.vfy.contexts[n].state = .running → act i w (.suspendVerify n) s = suspendPass n .server s) ∧
     (s.vfy.contexts[n].state ≠ .suspended ∨ verifyGrants n s = false → act i w (.resumeVerify n) s = s) ∧
     (s.vfy.contexts[n].state = .suspended → verifyGrants n s = true → act i w (.resumeVerify n) s = resumePass n s))

/-! ## The whole part -/

/-- The state after reset meets the invariant of the part: the bounds and agreements that every step keeps, as the
statement StepKeepsInv lists them. -/
def Obligations.ResetInv : Prop :=
  Inv State.reset

/-- Every step keeps the invariant of the part: the rooms of the reply list, the notice queue, the mount queue, the
verify queue and the restore queue; a credit only while a frame can be taken and no frame held back meanwhile; a free
transmit side only with nothing to send; settings, speed and ramp tables in their ranges; open chunks of 1 to 4,095
bytes; quotas of the least sizes that sum to at most 2,048 pages, and no region's pages above its quota; no staged chunk
of more than 4,096 bytes, every staged count the count of the stream's entries in the ready list and in compression,
and none staged for a CLOSED stream; the compressor's reserved room there until its record is placed; WRITE, and STEP
before it, in flight on WRITING lanes only, WRITE with a catalog place held, and a hold reason in HOLD only; catalog
entries and places at most 4,096 together; every record's floor and verified-to at most its end of data; the location
map and the records' locations in agreement; every governor's step a step of the speed table. -/
def Obligations.StepKeepsInv : Prop :=
  ∀ (s t : State), Inv s → step s = .next t → Inv t

/-- The time base moves by its ticks only: a tick raises it by 1 modulo 2^32; every other command leaves it, but for a
reset of the device, which can come at power-on, at the reset input, or at the end of a sent PART_RESET reply, and
sets it to 0 (R170, R190). Nothing that happens outside the server's frames and the resets of the device changes what
the server has loaded: the settings and the speed, ramp and positions tables stay (R82, R111, R112, R186). -/
def Obligations.TimeAndTablesMoveByRule : Prop :=
  (∀ (c : Instr) (s t : State), exec c s = .next t →
     (c = .timeBaseTick → t.ttu.time = s.ttu.time + 1) ∧
     (c ≠ .timeBaseTick → c ≠ .powerOn → c ≠ .resetInput → c ≠ .frameSent → t.ttu.time = s.ttu.time) ∧
     (c = .powerOn ∨ c = .resetInput → t.ttu.time = 0) ∧
     (c = .frameSent → t.ttu.time = s.ttu.time ∨ t.ttu.time = 0)) ∧
  (∀ (c : Instr) (s t : State), exec c s = .next t → isFrame c = false → c ≠ .powerOn → c ≠ .resetInput → c ≠ .frameSent →
     t.settings = s.settings ∧ t.tables = s.tables)
end

