-- ==== Sys2Proof/Laws/State.lean ====
section
/-! SUPPORT. Laws/State.lean: what each update of one piece of the state leaves in each field, one lemma per field per
update, and the reading of an element after an update. -/

namespace Sys2Proof.Machine

/-! ## modLink -/

@[simp] theorem modLink_link (f : Link → Link) (s : State) : (modLink f s).link = f s.link := rfl
@[simp] theorem modLink_streams (f : Link → Link) (s : State) : (modLink f s).streams = s.streams := rfl
@[simp] theorem modLink_cmp (f : Link → Link) (s : State) : (modLink f s).cmp = s.cmp := rfl
@[simp] theorem modLink_exp (f : Link → Link) (s : State) : (modLink f s).exp = s.exp := rfl
@[simp] theorem modLink_pool (f : Link → Link) (s : State) : (modLink f s).pool = s.pool := rfl
@[simp] theorem modLink_asm (f : Link → Link) (s : State) : (modLink f s).asm = s.asm := rfl
@[simp] theorem modLink_lanes (f : Link → Link) (s : State) : (modLink f s).lanes = s.lanes := rfl
@[simp] theorem modLink_gov (f : Link → Link) (s : State) : (modLink f s).gov = s.gov := rfl
@[simp] theorem modLink_cdr (f : Link → Link) (s : State) : (modLink f s).cdr = s.cdr := rfl
@[simp] theorem modLink_ldr (f : Link → Link) (s : State) : (modLink f s).ldr = s.ldr := rfl
@[simp] theorem modLink_mounts (f : Link → Link) (s : State) : (modLink f s).mounts = s.mounts := rfl
@[simp] theorem modLink_cat (f : Link → Link) (s : State) : (modLink f s).cat = s.cat := rfl
@[simp] theorem modLink_vfy (f : Link → Link) (s : State) : (modLink f s).vfy = s.vfy := rfl
@[simp] theorem modLink_rse (f : Link → Link) (s : State) : (modLink f s).rse = s.rse := rfl
@[simp] theorem modLink_ttu (f : Link → Link) (s : State) : (modLink f s).ttu = s.ttu := rfl
@[simp] theorem modLink_settings (f : Link → Link) (s : State) : (modLink f s).settings = s.settings := rfl
@[simp] theorem modLink_tables (f : Link → Link) (s : State) : (modLink f s).tables = s.tables := rfl
@[simp] theorem modLink_due (f : Link → Link) (s : State) : (modLink f s).due = s.due := rfl
@[simp] theorem modLink_freeCount (f : Link → Link) (s : State) : (modLink f s).freeCount = s.freeCount := rfl
@[simp] theorem modLink_pending (f : Link → Link) (s : State) : (modLink f s).pending = s.pending := rfl

/-! ## modStream -/

@[simp] theorem modStream_link (i : StreamId) (f : Stream → Stream) (s : State) : (modStream i f s).link = s.link := rfl
@[simp] theorem modStream_streams (i : StreamId) (f : Stream → Stream) (s : State) : (modStream i f s).streams = upd s.streams i f := rfl
@[simp] theorem modStream_cmp (i : StreamId) (f : Stream → Stream) (s : State) : (modStream i f s).cmp = s.cmp := rfl
@[simp] theorem modStream_exp (i : StreamId) (f : Stream → Stream) (s : State) : (modStream i f s).exp = s.exp := rfl
@[simp] theorem modStream_pool (i : StreamId) (f : Stream → Stream) (s : State) : (modStream i f s).pool = s.pool := rfl
@[simp] theorem modStream_asm (i : StreamId) (f : Stream → Stream) (s : State) : (modStream i f s).asm = s.asm := rfl
@[simp] theorem modStream_lanes (i : StreamId) (f : Stream → Stream) (s : State) : (modStream i f s).lanes = s.lanes := rfl
@[simp] theorem modStream_gov (i : StreamId) (f : Stream → Stream) (s : State) : (modStream i f s).gov = s.gov := rfl
@[simp] theorem modStream_cdr (i : StreamId) (f : Stream → Stream) (s : State) : (modStream i f s).cdr = s.cdr := rfl
@[simp] theorem modStream_ldr (i : StreamId) (f : Stream → Stream) (s : State) : (modStream i f s).ldr = s.ldr := rfl
@[simp] theorem modStream_mounts (i : StreamId) (f : Stream → Stream) (s : State) : (modStream i f s).mounts = s.mounts := rfl
@[simp] theorem modStream_cat (i : StreamId) (f : Stream → Stream) (s : State) : (modStream i f s).cat = s.cat := rfl
@[simp] theorem modStream_vfy (i : StreamId) (f : Stream → Stream) (s : State) : (modStream i f s).vfy = s.vfy := rfl
@[simp] theorem modStream_rse (i : StreamId) (f : Stream → Stream) (s : State) : (modStream i f s).rse = s.rse := rfl
@[simp] theorem modStream_ttu (i : StreamId) (f : Stream → Stream) (s : State) : (modStream i f s).ttu = s.ttu := rfl
@[simp] theorem modStream_settings (i : StreamId) (f : Stream → Stream) (s : State) : (modStream i f s).settings = s.settings := rfl
@[simp] theorem modStream_tables (i : StreamId) (f : Stream → Stream) (s : State) : (modStream i f s).tables = s.tables := rfl
@[simp] theorem modStream_due (i : StreamId) (f : Stream → Stream) (s : State) : (modStream i f s).due = s.due := rfl
@[simp] theorem modStream_freeCount (i : StreamId) (f : Stream → Stream) (s : State) : (modStream i f s).freeCount = s.freeCount := rfl
@[simp] theorem modStream_pending (i : StreamId) (f : Stream → Stream) (s : State) : (modStream i f s).pending = s.pending := rfl

/-! ## modCmp -/

@[simp] theorem modCmp_link (f : Compressor → Compressor) (s : State) : (modCmp f s).link = s.link := rfl
@[simp] theorem modCmp_streams (f : Compressor → Compressor) (s : State) : (modCmp f s).streams = s.streams := rfl
@[simp] theorem modCmp_cmp (f : Compressor → Compressor) (s : State) : (modCmp f s).cmp = f s.cmp := rfl
@[simp] theorem modCmp_exp (f : Compressor → Compressor) (s : State) : (modCmp f s).exp = s.exp := rfl
@[simp] theorem modCmp_pool (f : Compressor → Compressor) (s : State) : (modCmp f s).pool = s.pool := rfl
@[simp] theorem modCmp_asm (f : Compressor → Compressor) (s : State) : (modCmp f s).asm = s.asm := rfl
@[simp] theorem modCmp_lanes (f : Compressor → Compressor) (s : State) : (modCmp f s).lanes = s.lanes := rfl
@[simp] theorem modCmp_gov (f : Compressor → Compressor) (s : State) : (modCmp f s).gov = s.gov := rfl
@[simp] theorem modCmp_cdr (f : Compressor → Compressor) (s : State) : (modCmp f s).cdr = s.cdr := rfl
@[simp] theorem modCmp_ldr (f : Compressor → Compressor) (s : State) : (modCmp f s).ldr = s.ldr := rfl
@[simp] theorem modCmp_mounts (f : Compressor → Compressor) (s : State) : (modCmp f s).mounts = s.mounts := rfl
@[simp] theorem modCmp_cat (f : Compressor → Compressor) (s : State) : (modCmp f s).cat = s.cat := rfl
@[simp] theorem modCmp_vfy (f : Compressor → Compressor) (s : State) : (modCmp f s).vfy = s.vfy := rfl
@[simp] theorem modCmp_rse (f : Compressor → Compressor) (s : State) : (modCmp f s).rse = s.rse := rfl
@[simp] theorem modCmp_ttu (f : Compressor → Compressor) (s : State) : (modCmp f s).ttu = s.ttu := rfl
@[simp] theorem modCmp_settings (f : Compressor → Compressor) (s : State) : (modCmp f s).settings = s.settings := rfl
@[simp] theorem modCmp_tables (f : Compressor → Compressor) (s : State) : (modCmp f s).tables = s.tables := rfl
@[simp] theorem modCmp_due (f : Compressor → Compressor) (s : State) : (modCmp f s).due = s.due := rfl
@[simp] theorem modCmp_freeCount (f : Compressor → Compressor) (s : State) : (modCmp f s).freeCount = s.freeCount := rfl
@[simp] theorem modCmp_pending (f : Compressor → Compressor) (s : State) : (modCmp f s).pending = s.pending := rfl

/-! ## modExp -/

@[simp] theorem modExp_link (f : Expander → Expander) (s : State) : (modExp f s).link = s.link := rfl
@[simp] theorem modExp_streams (f : Expander → Expander) (s : State) : (modExp f s).streams = s.streams := rfl
@[simp] theorem modExp_cmp (f : Expander → Expander) (s : State) : (modExp f s).cmp = s.cmp := rfl
@[simp] theorem modExp_exp (f : Expander → Expander) (s : State) : (modExp f s).exp = f s.exp := rfl
@[simp] theorem modExp_pool (f : Expander → Expander) (s : State) : (modExp f s).pool = s.pool := rfl
@[simp] theorem modExp_asm (f : Expander → Expander) (s : State) : (modExp f s).asm = s.asm := rfl
@[simp] theorem modExp_lanes (f : Expander → Expander) (s : State) : (modExp f s).lanes = s.lanes := rfl
@[simp] theorem modExp_gov (f : Expander → Expander) (s : State) : (modExp f s).gov = s.gov := rfl
@[simp] theorem modExp_cdr (f : Expander → Expander) (s : State) : (modExp f s).cdr = s.cdr := rfl
@[simp] theorem modExp_ldr (f : Expander → Expander) (s : State) : (modExp f s).ldr = s.ldr := rfl
@[simp] theorem modExp_mounts (f : Expander → Expander) (s : State) : (modExp f s).mounts = s.mounts := rfl
@[simp] theorem modExp_cat (f : Expander → Expander) (s : State) : (modExp f s).cat = s.cat := rfl
@[simp] theorem modExp_vfy (f : Expander → Expander) (s : State) : (modExp f s).vfy = s.vfy := rfl
@[simp] theorem modExp_rse (f : Expander → Expander) (s : State) : (modExp f s).rse = s.rse := rfl
@[simp] theorem modExp_ttu (f : Expander → Expander) (s : State) : (modExp f s).ttu = s.ttu := rfl
@[simp] theorem modExp_settings (f : Expander → Expander) (s : State) : (modExp f s).settings = s.settings := rfl
@[simp] theorem modExp_tables (f : Expander → Expander) (s : State) : (modExp f s).tables = s.tables := rfl
@[simp] theorem modExp_due (f : Expander → Expander) (s : State) : (modExp f s).due = s.due := rfl
@[simp] theorem modExp_freeCount (f : Expander → Expander) (s : State) : (modExp f s).freeCount = s.freeCount := rfl
@[simp] theorem modExp_pending (f : Expander → Expander) (s : State) : (modExp f s).pending = s.pending := rfl

/-! ## modPool -/

@[simp] theorem modPool_link (f : Pool → Pool) (s : State) : (modPool f s).link = s.link := rfl
@[simp] theorem modPool_streams (f : Pool → Pool) (s : State) : (modPool f s).streams = s.streams := rfl
@[simp] theorem modPool_cmp (f : Pool → Pool) (s : State) : (modPool f s).cmp = s.cmp := rfl
@[simp] theorem modPool_exp (f : Pool → Pool) (s : State) : (modPool f s).exp = s.exp := rfl
@[simp] theorem modPool_pool (f : Pool → Pool) (s : State) : (modPool f s).pool = f s.pool := rfl
@[simp] theorem modPool_asm (f : Pool → Pool) (s : State) : (modPool f s).asm = s.asm := rfl
@[simp] theorem modPool_lanes (f : Pool → Pool) (s : State) : (modPool f s).lanes = s.lanes := rfl
@[simp] theorem modPool_gov (f : Pool → Pool) (s : State) : (modPool f s).gov = s.gov := rfl
@[simp] theorem modPool_cdr (f : Pool → Pool) (s : State) : (modPool f s).cdr = s.cdr := rfl
@[simp] theorem modPool_ldr (f : Pool → Pool) (s : State) : (modPool f s).ldr = s.ldr := rfl
@[simp] theorem modPool_mounts (f : Pool → Pool) (s : State) : (modPool f s).mounts = s.mounts := rfl
@[simp] theorem modPool_cat (f : Pool → Pool) (s : State) : (modPool f s).cat = s.cat := rfl
@[simp] theorem modPool_vfy (f : Pool → Pool) (s : State) : (modPool f s).vfy = s.vfy := rfl
@[simp] theorem modPool_rse (f : Pool → Pool) (s : State) : (modPool f s).rse = s.rse := rfl
@[simp] theorem modPool_ttu (f : Pool → Pool) (s : State) : (modPool f s).ttu = s.ttu := rfl
@[simp] theorem modPool_settings (f : Pool → Pool) (s : State) : (modPool f s).settings = s.settings := rfl
@[simp] theorem modPool_tables (f : Pool → Pool) (s : State) : (modPool f s).tables = s.tables := rfl
@[simp] theorem modPool_due (f : Pool → Pool) (s : State) : (modPool f s).due = s.due := rfl
@[simp] theorem modPool_freeCount (f : Pool → Pool) (s : State) : (modPool f s).freeCount = s.freeCount := rfl
@[simp] theorem modPool_pending (f : Pool → Pool) (s : State) : (modPool f s).pending = s.pending := rfl

/-! ## modAsm -/

@[simp] theorem modAsm_link (n : LaneId) (f : Assembly → Assembly) (s : State) : (modAsm n f s).link = s.link := rfl
@[simp] theorem modAsm_streams (n : LaneId) (f : Assembly → Assembly) (s : State) : (modAsm n f s).streams = s.streams := rfl
@[simp] theorem modAsm_cmp (n : LaneId) (f : Assembly → Assembly) (s : State) : (modAsm n f s).cmp = s.cmp := rfl
@[simp] theorem modAsm_exp (n : LaneId) (f : Assembly → Assembly) (s : State) : (modAsm n f s).exp = s.exp := rfl
@[simp] theorem modAsm_pool (n : LaneId) (f : Assembly → Assembly) (s : State) : (modAsm n f s).pool = s.pool := rfl
@[simp] theorem modAsm_asm (n : LaneId) (f : Assembly → Assembly) (s : State) : (modAsm n f s).asm = upd s.asm n f := rfl
@[simp] theorem modAsm_lanes (n : LaneId) (f : Assembly → Assembly) (s : State) : (modAsm n f s).lanes = s.lanes := rfl
@[simp] theorem modAsm_gov (n : LaneId) (f : Assembly → Assembly) (s : State) : (modAsm n f s).gov = s.gov := rfl
@[simp] theorem modAsm_cdr (n : LaneId) (f : Assembly → Assembly) (s : State) : (modAsm n f s).cdr = s.cdr := rfl
@[simp] theorem modAsm_ldr (n : LaneId) (f : Assembly → Assembly) (s : State) : (modAsm n f s).ldr = s.ldr := rfl
@[simp] theorem modAsm_mounts (n : LaneId) (f : Assembly → Assembly) (s : State) : (modAsm n f s).mounts = s.mounts := rfl
@[simp] theorem modAsm_cat (n : LaneId) (f : Assembly → Assembly) (s : State) : (modAsm n f s).cat = s.cat := rfl
@[simp] theorem modAsm_vfy (n : LaneId) (f : Assembly → Assembly) (s : State) : (modAsm n f s).vfy = s.vfy := rfl
@[simp] theorem modAsm_rse (n : LaneId) (f : Assembly → Assembly) (s : State) : (modAsm n f s).rse = s.rse := rfl
@[simp] theorem modAsm_ttu (n : LaneId) (f : Assembly → Assembly) (s : State) : (modAsm n f s).ttu = s.ttu := rfl
@[simp] theorem modAsm_settings (n : LaneId) (f : Assembly → Assembly) (s : State) : (modAsm n f s).settings = s.settings := rfl
@[simp] theorem modAsm_tables (n : LaneId) (f : Assembly → Assembly) (s : State) : (modAsm n f s).tables = s.tables := rfl
@[simp] theorem modAsm_due (n : LaneId) (f : Assembly → Assembly) (s : State) : (modAsm n f s).due = s.due := rfl
@[simp] theorem modAsm_freeCount (n : LaneId) (f : Assembly → Assembly) (s : State) : (modAsm n f s).freeCount = s.freeCount := rfl
@[simp] theorem modAsm_pending (n : LaneId) (f : Assembly → Assembly) (s : State) : (modAsm n f s).pending = s.pending := rfl

/-! ## modLane -/

@[simp] theorem modLane_link (n : LaneId) (f : Lane → Lane) (s : State) : (modLane n f s).link = s.link := rfl
@[simp] theorem modLane_streams (n : LaneId) (f : Lane → Lane) (s : State) : (modLane n f s).streams = s.streams := rfl
@[simp] theorem modLane_cmp (n : LaneId) (f : Lane → Lane) (s : State) : (modLane n f s).cmp = s.cmp := rfl
@[simp] theorem modLane_exp (n : LaneId) (f : Lane → Lane) (s : State) : (modLane n f s).exp = s.exp := rfl
@[simp] theorem modLane_pool (n : LaneId) (f : Lane → Lane) (s : State) : (modLane n f s).pool = s.pool := rfl
@[simp] theorem modLane_asm (n : LaneId) (f : Lane → Lane) (s : State) : (modLane n f s).asm = s.asm := rfl
@[simp] theorem modLane_lanes (n : LaneId) (f : Lane → Lane) (s : State) : (modLane n f s).lanes = upd s.lanes n f := rfl
@[simp] theorem modLane_gov (n : LaneId) (f : Lane → Lane) (s : State) : (modLane n f s).gov = s.gov := rfl
@[simp] theorem modLane_cdr (n : LaneId) (f : Lane → Lane) (s : State) : (modLane n f s).cdr = s.cdr := rfl
@[simp] theorem modLane_ldr (n : LaneId) (f : Lane → Lane) (s : State) : (modLane n f s).ldr = s.ldr := rfl
@[simp] theorem modLane_mounts (n : LaneId) (f : Lane → Lane) (s : State) : (modLane n f s).mounts = s.mounts := rfl
@[simp] theorem modLane_cat (n : LaneId) (f : Lane → Lane) (s : State) : (modLane n f s).cat = s.cat := rfl
@[simp] theorem modLane_vfy (n : LaneId) (f : Lane → Lane) (s : State) : (modLane n f s).vfy = s.vfy := rfl
@[simp] theorem modLane_rse (n : LaneId) (f : Lane → Lane) (s : State) : (modLane n f s).rse = s.rse := rfl
@[simp] theorem modLane_ttu (n : LaneId) (f : Lane → Lane) (s : State) : (modLane n f s).ttu = s.ttu := rfl
@[simp] theorem modLane_settings (n : LaneId) (f : Lane → Lane) (s : State) : (modLane n f s).settings = s.settings := rfl
@[simp] theorem modLane_tables (n : LaneId) (f : Lane → Lane) (s : State) : (modLane n f s).tables = s.tables := rfl
@[simp] theorem modLane_due (n : LaneId) (f : Lane → Lane) (s : State) : (modLane n f s).due = s.due := rfl
@[simp] theorem modLane_freeCount (n : LaneId) (f : Lane → Lane) (s : State) : (modLane n f s).freeCount = s.freeCount := rfl
@[simp] theorem modLane_pending (n : LaneId) (f : Lane → Lane) (s : State) : (modLane n f s).pending = s.pending := rfl

/-! ## modGov -/

@[simp] theorem modGov_link (n : LaneId) (f : Governor → Governor) (s : State) : (modGov n f s).link = s.link := rfl
@[simp] theorem modGov_streams (n : LaneId) (f : Governor → Governor) (s : State) : (modGov n f s).streams = s.streams := rfl
@[simp] theorem modGov_cmp (n : LaneId) (f : Governor → Governor) (s : State) : (modGov n f s).cmp = s.cmp := rfl
@[simp] theorem modGov_exp (n : LaneId) (f : Governor → Governor) (s : State) : (modGov n f s).exp = s.exp := rfl
@[simp] theorem modGov_pool (n : LaneId) (f : Governor → Governor) (s : State) : (modGov n f s).pool = s.pool := rfl
@[simp] theorem modGov_asm (n : LaneId) (f : Governor → Governor) (s : State) : (modGov n f s).asm = s.asm := rfl
@[simp] theorem modGov_lanes (n : LaneId) (f : Governor → Governor) (s : State) : (modGov n f s).lanes = s.lanes := rfl
@[simp] theorem modGov_gov (n : LaneId) (f : Governor → Governor) (s : State) : (modGov n f s).gov = upd s.gov n f := rfl
@[simp] theorem modGov_cdr (n : LaneId) (f : Governor → Governor) (s : State) : (modGov n f s).cdr = s.cdr := rfl
@[simp] theorem modGov_ldr (n : LaneId) (f : Governor → Governor) (s : State) : (modGov n f s).ldr = s.ldr := rfl
@[simp] theorem modGov_mounts (n : LaneId) (f : Governor → Governor) (s : State) : (modGov n f s).mounts = s.mounts := rfl
@[simp] theorem modGov_cat (n : LaneId) (f : Governor → Governor) (s : State) : (modGov n f s).cat = s.cat := rfl
@[simp] theorem modGov_vfy (n : LaneId) (f : Governor → Governor) (s : State) : (modGov n f s).vfy = s.vfy := rfl
@[simp] theorem modGov_rse (n : LaneId) (f : Governor → Governor) (s : State) : (modGov n f s).rse = s.rse := rfl
@[simp] theorem modGov_ttu (n : LaneId) (f : Governor → Governor) (s : State) : (modGov n f s).ttu = s.ttu := rfl
@[simp] theorem modGov_settings (n : LaneId) (f : Governor → Governor) (s : State) : (modGov n f s).settings = s.settings := rfl
@[simp] theorem modGov_tables (n : LaneId) (f : Governor → Governor) (s : State) : (modGov n f s).tables = s.tables := rfl
@[simp] theorem modGov_due (n : LaneId) (f : Governor → Governor) (s : State) : (modGov n f s).due = s.due := rfl
@[simp] theorem modGov_freeCount (n : LaneId) (f : Governor → Governor) (s : State) : (modGov n f s).freeCount = s.freeCount := rfl
@[simp] theorem modGov_pending (n : LaneId) (f : Governor → Governor) (s : State) : (modGov n f s).pending = s.pending := rfl

/-! ## modCdr -/

@[simp] theorem modCdr_link (f : Directory → Directory) (s : State) : (modCdr f s).link = s.link := rfl
@[simp] theorem modCdr_streams (f : Directory → Directory) (s : State) : (modCdr f s).streams = s.streams := rfl
@[simp] theorem modCdr_cmp (f : Directory → Directory) (s : State) : (modCdr f s).cmp = s.cmp := rfl
@[simp] theorem modCdr_exp (f : Directory → Directory) (s : State) : (modCdr f s).exp = s.exp := rfl
@[simp] theorem modCdr_pool (f : Directory → Directory) (s : State) : (modCdr f s).pool = s.pool := rfl
@[simp] theorem modCdr_asm (f : Directory → Directory) (s : State) : (modCdr f s).asm = s.asm := rfl
@[simp] theorem modCdr_lanes (f : Directory → Directory) (s : State) : (modCdr f s).lanes = s.lanes := rfl
@[simp] theorem modCdr_gov (f : Directory → Directory) (s : State) : (modCdr f s).gov = s.gov := rfl
@[simp] theorem modCdr_cdr (f : Directory → Directory) (s : State) : (modCdr f s).cdr = f s.cdr := rfl
@[simp] theorem modCdr_ldr (f : Directory → Directory) (s : State) : (modCdr f s).ldr = s.ldr := rfl
@[simp] theorem modCdr_mounts (f : Directory → Directory) (s : State) : (modCdr f s).mounts = s.mounts := rfl
@[simp] theorem modCdr_cat (f : Directory → Directory) (s : State) : (modCdr f s).cat = s.cat := rfl
@[simp] theorem modCdr_vfy (f : Directory → Directory) (s : State) : (modCdr f s).vfy = s.vfy := rfl
@[simp] theorem modCdr_rse (f : Directory → Directory) (s : State) : (modCdr f s).rse = s.rse := rfl
@[simp] theorem modCdr_ttu (f : Directory → Directory) (s : State) : (modCdr f s).ttu = s.ttu := rfl
@[simp] theorem modCdr_settings (f : Directory → Directory) (s : State) : (modCdr f s).settings = s.settings := rfl
@[simp] theorem modCdr_tables (f : Directory → Directory) (s : State) : (modCdr f s).tables = s.tables := rfl
@[simp] theorem modCdr_due (f : Directory → Directory) (s : State) : (modCdr f s).due = s.due := rfl
@[simp] theorem modCdr_freeCount (f : Directory → Directory) (s : State) : (modCdr f s).freeCount = s.freeCount := rfl
@[simp] theorem modCdr_pending (f : Directory → Directory) (s : State) : (modCdr f s).pending = s.pending := rfl

/-! ## modLdr -/

@[simp] theorem modLdr_link (f : Loader → Loader) (s : State) : (modLdr f s).link = s.link := rfl
@[simp] theorem modLdr_streams (f : Loader → Loader) (s : State) : (modLdr f s).streams = s.streams := rfl
@[simp] theorem modLdr_cmp (f : Loader → Loader) (s : State) : (modLdr f s).cmp = s.cmp := rfl
@[simp] theorem modLdr_exp (f : Loader → Loader) (s : State) : (modLdr f s).exp = s.exp := rfl
@[simp] theorem modLdr_pool (f : Loader → Loader) (s : State) : (modLdr f s).pool = s.pool := rfl
@[simp] theorem modLdr_asm (f : Loader → Loader) (s : State) : (modLdr f s).asm = s.asm := rfl
@[simp] theorem modLdr_lanes (f : Loader → Loader) (s : State) : (modLdr f s).lanes = s.lanes := rfl
@[simp] theorem modLdr_gov (f : Loader → Loader) (s : State) : (modLdr f s).gov = s.gov := rfl
@[simp] theorem modLdr_cdr (f : Loader → Loader) (s : State) : (modLdr f s).cdr = s.cdr := rfl
@[simp] theorem modLdr_ldr (f : Loader → Loader) (s : State) : (modLdr f s).ldr = f s.ldr := rfl
@[simp] theorem modLdr_mounts (f : Loader → Loader) (s : State) : (modLdr f s).mounts = s.mounts := rfl
@[simp] theorem modLdr_cat (f : Loader → Loader) (s : State) : (modLdr f s).cat = s.cat := rfl
@[simp] theorem modLdr_vfy (f : Loader → Loader) (s : State) : (modLdr f s).vfy = s.vfy := rfl
@[simp] theorem modLdr_rse (f : Loader → Loader) (s : State) : (modLdr f s).rse = s.rse := rfl
@[simp] theorem modLdr_ttu (f : Loader → Loader) (s : State) : (modLdr f s).ttu = s.ttu := rfl
@[simp] theorem modLdr_settings (f : Loader → Loader) (s : State) : (modLdr f s).settings = s.settings := rfl
@[simp] theorem modLdr_tables (f : Loader → Loader) (s : State) : (modLdr f s).tables = s.tables := rfl
@[simp] theorem modLdr_due (f : Loader → Loader) (s : State) : (modLdr f s).due = s.due := rfl
@[simp] theorem modLdr_freeCount (f : Loader → Loader) (s : State) : (modLdr f s).freeCount = s.freeCount := rfl
@[simp] theorem modLdr_pending (f : Loader → Loader) (s : State) : (modLdr f s).pending = s.pending := rfl

/-! ## setMounts -/

@[simp] theorem setMounts_link (l : List MountRequest) (s : State) : (setMounts l s).link = s.link := rfl
@[simp] theorem setMounts_streams (l : List MountRequest) (s : State) : (setMounts l s).streams = s.streams := rfl
@[simp] theorem setMounts_cmp (l : List MountRequest) (s : State) : (setMounts l s).cmp = s.cmp := rfl
@[simp] theorem setMounts_exp (l : List MountRequest) (s : State) : (setMounts l s).exp = s.exp := rfl
@[simp] theorem setMounts_pool (l : List MountRequest) (s : State) : (setMounts l s).pool = s.pool := rfl
@[simp] theorem setMounts_asm (l : List MountRequest) (s : State) : (setMounts l s).asm = s.asm := rfl
@[simp] theorem setMounts_lanes (l : List MountRequest) (s : State) : (setMounts l s).lanes = s.lanes := rfl
@[simp] theorem setMounts_gov (l : List MountRequest) (s : State) : (setMounts l s).gov = s.gov := rfl
@[simp] theorem setMounts_cdr (l : List MountRequest) (s : State) : (setMounts l s).cdr = s.cdr := rfl
@[simp] theorem setMounts_ldr (l : List MountRequest) (s : State) : (setMounts l s).ldr = s.ldr := rfl
@[simp] theorem setMounts_mounts (l : List MountRequest) (s : State) : (setMounts l s).mounts = l := rfl
@[simp] theorem setMounts_cat (l : List MountRequest) (s : State) : (setMounts l s).cat = s.cat := rfl
@[simp] theorem setMounts_vfy (l : List MountRequest) (s : State) : (setMounts l s).vfy = s.vfy := rfl
@[simp] theorem setMounts_rse (l : List MountRequest) (s : State) : (setMounts l s).rse = s.rse := rfl
@[simp] theorem setMounts_ttu (l : List MountRequest) (s : State) : (setMounts l s).ttu = s.ttu := rfl
@[simp] theorem setMounts_settings (l : List MountRequest) (s : State) : (setMounts l s).settings = s.settings := rfl
@[simp] theorem setMounts_tables (l : List MountRequest) (s : State) : (setMounts l s).tables = s.tables := rfl
@[simp] theorem setMounts_due (l : List MountRequest) (s : State) : (setMounts l s).due = s.due := rfl
@[simp] theorem setMounts_freeCount (l : List MountRequest) (s : State) : (setMounts l s).freeCount = s.freeCount := rfl
@[simp] theorem setMounts_pending (l : List MountRequest) (s : State) : (setMounts l s).pending = s.pending := rfl

/-! ## modCat -/

@[simp] theorem modCat_link (f : Catalog → Catalog) (s : State) : (modCat f s).link = s.link := rfl
@[simp] theorem modCat_streams (f : Catalog → Catalog) (s : State) : (modCat f s).streams = s.streams := rfl
@[simp] theorem modCat_cmp (f : Catalog → Catalog) (s : State) : (modCat f s).cmp = s.cmp := rfl
@[simp] theorem modCat_exp (f : Catalog → Catalog) (s : State) : (modCat f s).exp = s.exp := rfl
@[simp] theorem modCat_pool (f : Catalog → Catalog) (s : State) : (modCat f s).pool = s.pool := rfl
@[simp] theorem modCat_asm (f : Catalog → Catalog) (s : State) : (modCat f s).asm = s.asm := rfl
@[simp] theorem modCat_lanes (f : Catalog → Catalog) (s : State) : (modCat f s).lanes = s.lanes := rfl
@[simp] theorem modCat_gov (f : Catalog → Catalog) (s : State) : (modCat f s).gov = s.gov := rfl
@[simp] theorem modCat_cdr (f : Catalog → Catalog) (s : State) : (modCat f s).cdr = s.cdr := rfl
@[simp] theorem modCat_ldr (f : Catalog → Catalog) (s : State) : (modCat f s).ldr = s.ldr := rfl
@[simp] theorem modCat_mounts (f : Catalog → Catalog) (s : State) : (modCat f s).mounts = s.mounts := rfl
@[simp] theorem modCat_cat (f : Catalog → Catalog) (s : State) : (modCat f s).cat = f s.cat := rfl
@[simp] theorem modCat_vfy (f : Catalog → Catalog) (s : State) : (modCat f s).vfy = s.vfy := rfl
@[simp] theorem modCat_rse (f : Catalog → Catalog) (s : State) : (modCat f s).rse = s.rse := rfl
@[simp] theorem modCat_ttu (f : Catalog → Catalog) (s : State) : (modCat f s).ttu = s.ttu := rfl
@[simp] theorem modCat_settings (f : Catalog → Catalog) (s : State) : (modCat f s).settings = s.settings := rfl
@[simp] theorem modCat_tables (f : Catalog → Catalog) (s : State) : (modCat f s).tables = s.tables := rfl
@[simp] theorem modCat_due (f : Catalog → Catalog) (s : State) : (modCat f s).due = s.due := rfl
@[simp] theorem modCat_freeCount (f : Catalog → Catalog) (s : State) : (modCat f s).freeCount = s.freeCount := rfl
@[simp] theorem modCat_pending (f : Catalog → Catalog) (s : State) : (modCat f s).pending = s.pending := rfl

/-! ## modVfy -/

@[simp] theorem modVfy_link (f : Verify → Verify) (s : State) : (modVfy f s).link = s.link := rfl
@[simp] theorem modVfy_streams (f : Verify → Verify) (s : State) : (modVfy f s).streams = s.streams := rfl
@[simp] theorem modVfy_cmp (f : Verify → Verify) (s : State) : (modVfy f s).cmp = s.cmp := rfl
@[simp] theorem modVfy_exp (f : Verify → Verify) (s : State) : (modVfy f s).exp = s.exp := rfl
@[simp] theorem modVfy_pool (f : Verify → Verify) (s : State) : (modVfy f s).pool = s.pool := rfl
@[simp] theorem modVfy_asm (f : Verify → Verify) (s : State) : (modVfy f s).asm = s.asm := rfl
@[simp] theorem modVfy_lanes (f : Verify → Verify) (s : State) : (modVfy f s).lanes = s.lanes := rfl
@[simp] theorem modVfy_gov (f : Verify → Verify) (s : State) : (modVfy f s).gov = s.gov := rfl
@[simp] theorem modVfy_cdr (f : Verify → Verify) (s : State) : (modVfy f s).cdr = s.cdr := rfl
@[simp] theorem modVfy_ldr (f : Verify → Verify) (s : State) : (modVfy f s).ldr = s.ldr := rfl
@[simp] theorem modVfy_mounts (f : Verify → Verify) (s : State) : (modVfy f s).mounts = s.mounts := rfl
@[simp] theorem modVfy_cat (f : Verify → Verify) (s : State) : (modVfy f s).cat = s.cat := rfl
@[simp] theorem modVfy_vfy (f : Verify → Verify) (s : State) : (modVfy f s).vfy = f s.vfy := rfl
@[simp] theorem modVfy_rse (f : Verify → Verify) (s : State) : (modVfy f s).rse = s.rse := rfl
@[simp] theorem modVfy_ttu (f : Verify → Verify) (s : State) : (modVfy f s).ttu = s.ttu := rfl
@[simp] theorem modVfy_settings (f : Verify → Verify) (s : State) : (modVfy f s).settings = s.settings := rfl
@[simp] theorem modVfy_tables (f : Verify → Verify) (s : State) : (modVfy f s).tables = s.tables := rfl
@[simp] theorem modVfy_due (f : Verify → Verify) (s : State) : (modVfy f s).due = s.due := rfl
@[simp] theorem modVfy_freeCount (f : Verify → Verify) (s : State) : (modVfy f s).freeCount = s.freeCount := rfl
@[simp] theorem modVfy_pending (f : Verify → Verify) (s : State) : (modVfy f s).pending = s.pending := rfl

/-! ## modCtx -/

@[simp] theorem modCtx_link (n : LaneId) (f : VerifyContext → VerifyContext) (s : State) : (modCtx n f s).link = s.link := rfl
@[simp] theorem modCtx_streams (n : LaneId) (f : VerifyContext → VerifyContext) (s : State) : (modCtx n f s).streams = s.streams := rfl
@[simp] theorem modCtx_cmp (n : LaneId) (f : VerifyContext → VerifyContext) (s : State) : (modCtx n f s).cmp = s.cmp := rfl
@[simp] theorem modCtx_exp (n : LaneId) (f : VerifyContext → VerifyContext) (s : State) : (modCtx n f s).exp = s.exp := rfl
@[simp] theorem modCtx_pool (n : LaneId) (f : VerifyContext → VerifyContext) (s : State) : (modCtx n f s).pool = s.pool := rfl
@[simp] theorem modCtx_asm (n : LaneId) (f : VerifyContext → VerifyContext) (s : State) : (modCtx n f s).asm = s.asm := rfl
@[simp] theorem modCtx_lanes (n : LaneId) (f : VerifyContext → VerifyContext) (s : State) : (modCtx n f s).lanes = s.lanes := rfl
@[simp] theorem modCtx_gov (n : LaneId) (f : VerifyContext → VerifyContext) (s : State) : (modCtx n f s).gov = s.gov := rfl
@[simp] theorem modCtx_cdr (n : LaneId) (f : VerifyContext → VerifyContext) (s : State) : (modCtx n f s).cdr = s.cdr := rfl
@[simp] theorem modCtx_ldr (n : LaneId) (f : VerifyContext → VerifyContext) (s : State) : (modCtx n f s).ldr = s.ldr := rfl
@[simp] theorem modCtx_mounts (n : LaneId) (f : VerifyContext → VerifyContext) (s : State) : (modCtx n f s).mounts = s.mounts := rfl
@[simp] theorem modCtx_cat (n : LaneId) (f : VerifyContext → VerifyContext) (s : State) : (modCtx n f s).cat = s.cat := rfl
@[simp] theorem modCtx_vfy (n : LaneId) (f : VerifyContext → VerifyContext) (s : State) : (modCtx n f s).vfy = { s.vfy with contexts := upd s.vfy.contexts n f } := rfl
@[simp] theorem modCtx_rse (n : LaneId) (f : VerifyContext → VerifyContext) (s : State) : (modCtx n f s).rse = s.rse := rfl
@[simp] theorem modCtx_ttu (n : LaneId) (f : VerifyContext → VerifyContext) (s : State) : (modCtx n f s).ttu = s.ttu := rfl
@[simp] theorem modCtx_settings (n : LaneId) (f : VerifyContext → VerifyContext) (s : State) : (modCtx n f s).settings = s.settings := rfl
@[simp] theorem modCtx_tables (n : LaneId) (f : VerifyContext → VerifyContext) (s : State) : (modCtx n f s).tables = s.tables := rfl
@[simp] theorem modCtx_due (n : LaneId) (f : VerifyContext → VerifyContext) (s : State) : (modCtx n f s).due = s.due := rfl
@[simp] theorem modCtx_freeCount (n : LaneId) (f : VerifyContext → VerifyContext) (s : State) : (modCtx n f s).freeCount = s.freeCount := rfl
@[simp] theorem modCtx_pending (n : LaneId) (f : VerifyContext → VerifyContext) (s : State) : (modCtx n f s).pending = s.pending := rfl

/-! ## modRse -/

@[simp] theorem modRse_link (f : Restore → Restore) (s : State) : (modRse f s).link = s.link := rfl
@[simp] theorem modRse_streams (f : Restore → Restore) (s : State) : (modRse f s).streams = s.streams := rfl
@[simp] theorem modRse_cmp (f : Restore → Restore) (s : State) : (modRse f s).cmp = s.cmp := rfl
@[simp] theorem modRse_exp (f : Restore → Restore) (s : State) : (modRse f s).exp = s.exp := rfl
@[simp] theorem modRse_pool (f : Restore → Restore) (s : State) : (modRse f s).pool = s.pool := rfl
@[simp] theorem modRse_asm (f : Restore → Restore) (s : State) : (modRse f s).asm = s.asm := rfl
@[simp] theorem modRse_lanes (f : Restore → Restore) (s : State) : (modRse f s).lanes = s.lanes := rfl
@[simp] theorem modRse_gov (f : Restore → Restore) (s : State) : (modRse f s).gov = s.gov := rfl
@[simp] theorem modRse_cdr (f : Restore → Restore) (s : State) : (modRse f s).cdr = s.cdr := rfl
@[simp] theorem modRse_ldr (f : Restore → Restore) (s : State) : (modRse f s).ldr = s.ldr := rfl
@[simp] theorem modRse_mounts (f : Restore → Restore) (s : State) : (modRse f s).mounts = s.mounts := rfl
@[simp] theorem modRse_cat (f : Restore → Restore) (s : State) : (modRse f s).cat = s.cat := rfl
@[simp] theorem modRse_vfy (f : Restore → Restore) (s : State) : (modRse f s).vfy = s.vfy := rfl
@[simp] theorem modRse_rse (f : Restore → Restore) (s : State) : (modRse f s).rse = f s.rse := rfl
@[simp] theorem modRse_ttu (f : Restore → Restore) (s : State) : (modRse f s).ttu = s.ttu := rfl
@[simp] theorem modRse_settings (f : Restore → Restore) (s : State) : (modRse f s).settings = s.settings := rfl
@[simp] theorem modRse_tables (f : Restore → Restore) (s : State) : (modRse f s).tables = s.tables := rfl
@[simp] theorem modRse_due (f : Restore → Restore) (s : State) : (modRse f s).due = s.due := rfl
@[simp] theorem modRse_freeCount (f : Restore → Restore) (s : State) : (modRse f s).freeCount = s.freeCount := rfl
@[simp] theorem modRse_pending (f : Restore → Restore) (s : State) : (modRse f s).pending = s.pending := rfl

/-! ## modActive -/

@[simp] theorem modActive_link (f : RestoreContext → RestoreContext) (s : State) : (modActive f s).link = s.link := rfl
@[simp] theorem modActive_streams (f : RestoreContext → RestoreContext) (s : State) : (modActive f s).streams = s.streams := rfl
@[simp] theorem modActive_cmp (f : RestoreContext → RestoreContext) (s : State) : (modActive f s).cmp = s.cmp := rfl
@[simp] theorem modActive_exp (f : RestoreContext → RestoreContext) (s : State) : (modActive f s).exp = s.exp := rfl
@[simp] theorem modActive_pool (f : RestoreContext → RestoreContext) (s : State) : (modActive f s).pool = s.pool := rfl
@[simp] theorem modActive_asm (f : RestoreContext → RestoreContext) (s : State) : (modActive f s).asm = s.asm := rfl
@[simp] theorem modActive_lanes (f : RestoreContext → RestoreContext) (s : State) : (modActive f s).lanes = s.lanes := rfl
@[simp] theorem modActive_gov (f : RestoreContext → RestoreContext) (s : State) : (modActive f s).gov = s.gov := rfl
@[simp] theorem modActive_cdr (f : RestoreContext → RestoreContext) (s : State) : (modActive f s).cdr = s.cdr := rfl
@[simp] theorem modActive_ldr (f : RestoreContext → RestoreContext) (s : State) : (modActive f s).ldr = s.ldr := rfl
@[simp] theorem modActive_mounts (f : RestoreContext → RestoreContext) (s : State) : (modActive f s).mounts = s.mounts := rfl
@[simp] theorem modActive_cat (f : RestoreContext → RestoreContext) (s : State) : (modActive f s).cat = s.cat := rfl
@[simp] theorem modActive_vfy (f : RestoreContext → RestoreContext) (s : State) : (modActive f s).vfy = s.vfy := rfl
@[simp] theorem modActive_rse (f : RestoreContext → RestoreContext) (s : State) : (modActive f s).rse = { s.rse with active := s.rse.active.map f } := rfl
@[simp] theorem modActive_ttu (f : RestoreContext → RestoreContext) (s : State) : (modActive f s).ttu = s.ttu := rfl
@[simp] theorem modActive_settings (f : RestoreContext → RestoreContext) (s : State) : (modActive f s).settings = s.settings := rfl
@[simp] theorem modActive_tables (f : RestoreContext → RestoreContext) (s : State) : (modActive f s).tables = s.tables := rfl
@[simp] theorem modActive_due (f : RestoreContext → RestoreContext) (s : State) : (modActive f s).due = s.due := rfl
@[simp] theorem modActive_freeCount (f : RestoreContext → RestoreContext) (s : State) : (modActive f s).freeCount = s.freeCount := rfl
@[simp] theorem modActive_pending (f : RestoreContext → RestoreContext) (s : State) : (modActive f s).pending = s.pending := rfl

/-! ## modTtu -/

@[simp] theorem modTtu_link (f : Ttu → Ttu) (s : State) : (modTtu f s).link = s.link := rfl
@[simp] theorem modTtu_streams (f : Ttu → Ttu) (s : State) : (modTtu f s).streams = s.streams := rfl
@[simp] theorem modTtu_cmp (f : Ttu → Ttu) (s : State) : (modTtu f s).cmp = s.cmp := rfl
@[simp] theorem modTtu_exp (f : Ttu → Ttu) (s : State) : (modTtu f s).exp = s.exp := rfl
@[simp] theorem modTtu_pool (f : Ttu → Ttu) (s : State) : (modTtu f s).pool = s.pool := rfl
@[simp] theorem modTtu_asm (f : Ttu → Ttu) (s : State) : (modTtu f s).asm = s.asm := rfl
@[simp] theorem modTtu_lanes (f : Ttu → Ttu) (s : State) : (modTtu f s).lanes = s.lanes := rfl
@[simp] theorem modTtu_gov (f : Ttu → Ttu) (s : State) : (modTtu f s).gov = s.gov := rfl
@[simp] theorem modTtu_cdr (f : Ttu → Ttu) (s : State) : (modTtu f s).cdr = s.cdr := rfl
@[simp] theorem modTtu_ldr (f : Ttu → Ttu) (s : State) : (modTtu f s).ldr = s.ldr := rfl
@[simp] theorem modTtu_mounts (f : Ttu → Ttu) (s : State) : (modTtu f s).mounts = s.mounts := rfl
@[simp] theorem modTtu_cat (f : Ttu → Ttu) (s : State) : (modTtu f s).cat = s.cat := rfl
@[simp] theorem modTtu_vfy (f : Ttu → Ttu) (s : State) : (modTtu f s).vfy = s.vfy := rfl
@[simp] theorem modTtu_rse (f : Ttu → Ttu) (s : State) : (modTtu f s).rse = s.rse := rfl
@[simp] theorem modTtu_ttu (f : Ttu → Ttu) (s : State) : (modTtu f s).ttu = f s.ttu := rfl
@[simp] theorem modTtu_settings (f : Ttu → Ttu) (s : State) : (modTtu f s).settings = s.settings := rfl
@[simp] theorem modTtu_tables (f : Ttu → Ttu) (s : State) : (modTtu f s).tables = s.tables := rfl
@[simp] theorem modTtu_due (f : Ttu → Ttu) (s : State) : (modTtu f s).due = s.due := rfl
@[simp] theorem modTtu_freeCount (f : Ttu → Ttu) (s : State) : (modTtu f s).freeCount = s.freeCount := rfl
@[simp] theorem modTtu_pending (f : Ttu → Ttu) (s : State) : (modTtu f s).pending = s.pending := rfl

/-! ## modTables -/

@[simp] theorem modTables_link (f : Tables → Tables) (s : State) : (modTables f s).link = s.link := rfl
@[simp] theorem modTables_streams (f : Tables → Tables) (s : State) : (modTables f s).streams = s.streams := rfl
@[simp] theorem modTables_cmp (f : Tables → Tables) (s : State) : (modTables f s).cmp = s.cmp := rfl
@[simp] theorem modTables_exp (f : Tables → Tables) (s : State) : (modTables f s).exp = s.exp := rfl
@[simp] theorem modTables_pool (f : Tables → Tables) (s : State) : (modTables f s).pool = s.pool := rfl
@[simp] theorem modTables_asm (f : Tables → Tables) (s : State) : (modTables f s).asm = s.asm := rfl
@[simp] theorem modTables_lanes (f : Tables → Tables) (s : State) : (modTables f s).lanes = s.lanes := rfl
@[simp] theorem modTables_gov (f : Tables → Tables) (s : State) : (modTables f s).gov = s.gov := rfl
@[simp] theorem modTables_cdr (f : Tables → Tables) (s : State) : (modTables f s).cdr = s.cdr := rfl
@[simp] theorem modTables_ldr (f : Tables → Tables) (s : State) : (modTables f s).ldr = s.ldr := rfl
@[simp] theorem modTables_mounts (f : Tables → Tables) (s : State) : (modTables f s).mounts = s.mounts := rfl
@[simp] theorem modTables_cat (f : Tables → Tables) (s : State) : (modTables f s).cat = s.cat := rfl
@[simp] theorem modTables_vfy (f : Tables → Tables) (s : State) : (modTables f s).vfy = s.vfy := rfl
@[simp] theorem modTables_rse (f : Tables → Tables) (s : State) : (modTables f s).rse = s.rse := rfl
@[simp] theorem modTables_ttu (f : Tables → Tables) (s : State) : (modTables f s).ttu = s.ttu := rfl
@[simp] theorem modTables_settings (f : Tables → Tables) (s : State) : (modTables f s).settings = s.settings := rfl
@[simp] theorem modTables_tables (f : Tables → Tables) (s : State) : (modTables f s).tables = f s.tables := rfl
@[simp] theorem modTables_due (f : Tables → Tables) (s : State) : (modTables f s).due = s.due := rfl
@[simp] theorem modTables_freeCount (f : Tables → Tables) (s : State) : (modTables f s).freeCount = s.freeCount := rfl
@[simp] theorem modTables_pending (f : Tables → Tables) (s : State) : (modTables f s).pending = s.pending := rfl

/-! ## modSettings -/

@[simp] theorem modSettings_link (f : Settings → Settings) (s : State) : (modSettings f s).link = s.link := rfl
@[simp] theorem modSettings_streams (f : Settings → Settings) (s : State) : (modSettings f s).streams = s.streams := rfl
@[simp] theorem modSettings_cmp (f : Settings → Settings) (s : State) : (modSettings f s).cmp = s.cmp := rfl
@[simp] theorem modSettings_exp (f : Settings → Settings) (s : State) : (modSettings f s).exp = s.exp := rfl
@[simp] theorem modSettings_pool (f : Settings → Settings) (s : State) : (modSettings f s).pool = s.pool := rfl
@[simp] theorem modSettings_asm (f : Settings → Settings) (s : State) : (modSettings f s).asm = s.asm := rfl
@[simp] theorem modSettings_lanes (f : Settings → Settings) (s : State) : (modSettings f s).lanes = s.lanes := rfl
@[simp] theorem modSettings_gov (f : Settings → Settings) (s : State) : (modSettings f s).gov = s.gov := rfl
@[simp] theorem modSettings_cdr (f : Settings → Settings) (s : State) : (modSettings f s).cdr = s.cdr := rfl
@[simp] theorem modSettings_ldr (f : Settings → Settings) (s : State) : (modSettings f s).ldr = s.ldr := rfl
@[simp] theorem modSettings_mounts (f : Settings → Settings) (s : State) : (modSettings f s).mounts = s.mounts := rfl
@[simp] theorem modSettings_cat (f : Settings → Settings) (s : State) : (modSettings f s).cat = s.cat := rfl
@[simp] theorem modSettings_vfy (f : Settings → Settings) (s : State) : (modSettings f s).vfy = s.vfy := rfl
@[simp] theorem modSettings_rse (f : Settings → Settings) (s : State) : (modSettings f s).rse = s.rse := rfl
@[simp] theorem modSettings_ttu (f : Settings → Settings) (s : State) : (modSettings f s).ttu = s.ttu := rfl
@[simp] theorem modSettings_settings (f : Settings → Settings) (s : State) : (modSettings f s).settings = f s.settings := rfl
@[simp] theorem modSettings_tables (f : Settings → Settings) (s : State) : (modSettings f s).tables = s.tables := rfl
@[simp] theorem modSettings_due (f : Settings → Settings) (s : State) : (modSettings f s).due = s.due := rfl
@[simp] theorem modSettings_freeCount (f : Settings → Settings) (s : State) : (modSettings f s).freeCount = s.freeCount := rfl
@[simp] theorem modSettings_pending (f : Settings → Settings) (s : State) : (modSettings f s).pending = s.pending := rfl

/-! ## post -/

@[simp] theorem post_link (d : Due) (s : State) : (post d s).link = s.link := rfl
@[simp] theorem post_streams (d : Due) (s : State) : (post d s).streams = s.streams := rfl
@[simp] theorem post_cmp (d : Due) (s : State) : (post d s).cmp = s.cmp := rfl
@[simp] theorem post_exp (d : Due) (s : State) : (post d s).exp = s.exp := rfl
@[simp] theorem post_pool (d : Due) (s : State) : (post d s).pool = s.pool := rfl
@[simp] theorem post_asm (d : Due) (s : State) : (post d s).asm = s.asm := rfl
@[simp] theorem post_lanes (d : Due) (s : State) : (post d s).lanes = s.lanes := rfl
@[simp] theorem post_gov (d : Due) (s : State) : (post d s).gov = s.gov := rfl
@[simp] theorem post_cdr (d : Due) (s : State) : (post d s).cdr = s.cdr := rfl
@[simp] theorem post_ldr (d : Due) (s : State) : (post d s).ldr = s.ldr := rfl
@[simp] theorem post_mounts (d : Due) (s : State) : (post d s).mounts = s.mounts := rfl
@[simp] theorem post_cat (d : Due) (s : State) : (post d s).cat = s.cat := rfl
@[simp] theorem post_vfy (d : Due) (s : State) : (post d s).vfy = s.vfy := rfl
@[simp] theorem post_rse (d : Due) (s : State) : (post d s).rse = s.rse := rfl
@[simp] theorem post_ttu (d : Due) (s : State) : (post d s).ttu = s.ttu := rfl
@[simp] theorem post_settings (d : Due) (s : State) : (post d s).settings = s.settings := rfl
@[simp] theorem post_tables (d : Due) (s : State) : (post d s).tables = s.tables := rfl
@[simp] theorem post_due (d : Due) (s : State) : (post d s).due = s.due ++ [d] := rfl
@[simp] theorem post_freeCount (d : Due) (s : State) : (post d s).freeCount = s.freeCount := rfl
@[simp] theorem post_pending (d : Due) (s : State) : (post d s).pending = s.pending := rfl

/-! ## postFirst -/

@[simp] theorem postFirst_link (d : Due) (s : State) : (postFirst d s).link = s.link := rfl
@[simp] theorem postFirst_streams (d : Due) (s : State) : (postFirst d s).streams = s.streams := rfl
@[simp] theorem postFirst_cmp (d : Due) (s : State) : (postFirst d s).cmp = s.cmp := rfl
@[simp] theorem postFirst_exp (d : Due) (s : State) : (postFirst d s).exp = s.exp := rfl
@[simp] theorem postFirst_pool (d : Due) (s : State) : (postFirst d s).pool = s.pool := rfl
@[simp] theorem postFirst_asm (d : Due) (s : State) : (postFirst d s).asm = s.asm := rfl
@[simp] theorem postFirst_lanes (d : Due) (s : State) : (postFirst d s).lanes = s.lanes := rfl
@[simp] theorem postFirst_gov (d : Due) (s : State) : (postFirst d s).gov = s.gov := rfl
@[simp] theorem postFirst_cdr (d : Due) (s : State) : (postFirst d s).cdr = s.cdr := rfl
@[simp] theorem postFirst_ldr (d : Due) (s : State) : (postFirst d s).ldr = s.ldr := rfl
@[simp] theorem postFirst_mounts (d : Due) (s : State) : (postFirst d s).mounts = s.mounts := rfl
@[simp] theorem postFirst_cat (d : Due) (s : State) : (postFirst d s).cat = s.cat := rfl
@[simp] theorem postFirst_vfy (d : Due) (s : State) : (postFirst d s).vfy = s.vfy := rfl
@[simp] theorem postFirst_rse (d : Due) (s : State) : (postFirst d s).rse = s.rse := rfl
@[simp] theorem postFirst_ttu (d : Due) (s : State) : (postFirst d s).ttu = s.ttu := rfl
@[simp] theorem postFirst_settings (d : Due) (s : State) : (postFirst d s).settings = s.settings := rfl
@[simp] theorem postFirst_tables (d : Due) (s : State) : (postFirst d s).tables = s.tables := rfl
@[simp] theorem postFirst_due (d : Due) (s : State) : (postFirst d s).due = d :: s.due := rfl
@[simp] theorem postFirst_freeCount (d : Due) (s : State) : (postFirst d s).freeCount = s.freeCount := rfl
@[simp] theorem postFirst_pending (d : Due) (s : State) : (postFirst d s).pending = s.pending := rfl

/-! ## takeDue -/

@[simp] theorem takeDue_link (d : Due) (s : State) : (takeDue d s).link = s.link := rfl
@[simp] theorem takeDue_streams (d : Due) (s : State) : (takeDue d s).streams = s.streams := rfl
@[simp] theorem takeDue_cmp (d : Due) (s : State) : (takeDue d s).cmp = s.cmp := rfl
@[simp] theorem takeDue_exp (d : Due) (s : State) : (takeDue d s).exp = s.exp := rfl
@[simp] theorem takeDue_pool (d : Due) (s : State) : (takeDue d s).pool = s.pool := rfl
@[simp] theorem takeDue_asm (d : Due) (s : State) : (takeDue d s).asm = s.asm := rfl
@[simp] theorem takeDue_lanes (d : Due) (s : State) : (takeDue d s).lanes = s.lanes := rfl
@[simp] theorem takeDue_gov (d : Due) (s : State) : (takeDue d s).gov = s.gov := rfl
@[simp] theorem takeDue_cdr (d : Due) (s : State) : (takeDue d s).cdr = s.cdr := rfl
@[simp] theorem takeDue_ldr (d : Due) (s : State) : (takeDue d s).ldr = s.ldr := rfl
@[simp] theorem takeDue_mounts (d : Due) (s : State) : (takeDue d s).mounts = s.mounts := rfl
@[simp] theorem takeDue_cat (d : Due) (s : State) : (takeDue d s).cat = s.cat := rfl
@[simp] theorem takeDue_vfy (d : Due) (s : State) : (takeDue d s).vfy = s.vfy := rfl
@[simp] theorem takeDue_rse (d : Due) (s : State) : (takeDue d s).rse = s.rse := rfl
@[simp] theorem takeDue_ttu (d : Due) (s : State) : (takeDue d s).ttu = s.ttu := rfl
@[simp] theorem takeDue_settings (d : Due) (s : State) : (takeDue d s).settings = s.settings := rfl
@[simp] theorem takeDue_tables (d : Due) (s : State) : (takeDue d s).tables = s.tables := rfl
@[simp] theorem takeDue_due (d : Due) (s : State) : (takeDue d s).due = s.due.erase d := rfl
@[simp] theorem takeDue_freeCount (d : Due) (s : State) : (takeDue d s).freeCount = s.freeCount := rfl
@[simp] theorem takeDue_pending (d : Due) (s : State) : (takeDue d s).pending = s.pending := rfl

/-! ## dropDue -/

@[simp] theorem dropDue_link (d : Due) (s : State) : (dropDue d s).link = s.link := rfl
@[simp] theorem dropDue_streams (d : Due) (s : State) : (dropDue d s).streams = s.streams := rfl
@[simp] theorem dropDue_cmp (d : Due) (s : State) : (dropDue d s).cmp = s.cmp := rfl
@[simp] theorem dropDue_exp (d : Due) (s : State) : (dropDue d s).exp = s.exp := rfl
@[simp] theorem dropDue_pool (d : Due) (s : State) : (dropDue d s).pool = s.pool := rfl
@[simp] theorem dropDue_asm (d : Due) (s : State) : (dropDue d s).asm = s.asm := rfl
@[simp] theorem dropDue_lanes (d : Due) (s : State) : (dropDue d s).lanes = s.lanes := rfl
@[simp] theorem dropDue_gov (d : Due) (s : State) : (dropDue d s).gov = s.gov := rfl
@[simp] theorem dropDue_cdr (d : Due) (s : State) : (dropDue d s).cdr = s.cdr := rfl
@[simp] theorem dropDue_ldr (d : Due) (s : State) : (dropDue d s).ldr = s.ldr := rfl
@[simp] theorem dropDue_mounts (d : Due) (s : State) : (dropDue d s).mounts = s.mounts := rfl
@[simp] theorem dropDue_cat (d : Due) (s : State) : (dropDue d s).cat = s.cat := rfl
@[simp] theorem dropDue_vfy (d : Due) (s : State) : (dropDue d s).vfy = s.vfy := rfl
@[simp] theorem dropDue_rse (d : Due) (s : State) : (dropDue d s).rse = s.rse := rfl
@[simp] theorem dropDue_ttu (d : Due) (s : State) : (dropDue d s).ttu = s.ttu := rfl
@[simp] theorem dropDue_settings (d : Due) (s : State) : (dropDue d s).settings = s.settings := rfl
@[simp] theorem dropDue_tables (d : Due) (s : State) : (dropDue d s).tables = s.tables := rfl
@[simp] theorem dropDue_due (d : Due) (s : State) : (dropDue d s).due = s.due.filter fun e => decide (e ≠ d) := rfl
@[simp] theorem dropDue_freeCount (d : Due) (s : State) : (dropDue d s).freeCount = s.freeCount := rfl
@[simp] theorem dropDue_pending (d : Due) (s : State) : (dropDue d s).pending = s.pending := rfl

/-! ## One element of a vector -/

@[simp] theorem upd_same {α : Type} {k : Nat} (v : Vector α k) (i : Fin k) (f : α → α) : (upd v i f)[i] = f v[i] := by
  simp [upd]

theorem upd_other {α : Type} {k : Nat} (v : Vector α k) (i j : Fin k) (f : α → α) (h : j ≠ i) :
    (upd v i f)[j] = v[j] := by
  have h' : i.val ≠ j.val := fun e => h (Fin.ext e.symm)
  simp [upd, h']

@[simp] theorem upd_upd {α : Type} {k : Nat} (v : Vector α k) (i : Fin k) (f g : α → α) :
    upd (upd v i f) i g = upd v i fun x => g (f x) := by
  simp [upd]

/-- Two changes of one element agree when they agree on what stands there. -/
theorem upd_congr {α : Type} {k : Nat} (v : Vector α k) (i : Fin k) (f g : α → α) (h : f v[i] = g v[i]) :
    upd v i f = upd v i g := by
  simp only [upd, h]

theorem upd_get {α : Type} {k : Nat} (v : Vector α k) (i j : Fin k) (f : α → α) :
    (upd v i f)[j] = if j = i then f v[i] else v[j] := by
  split
  · next h => subst h; exact upd_same v j f
  · next h => exact upd_other v i j f h

/-! ## A client's expander slot (R31) -/

@[simp] theorem clientSlot_modSlot (c : ReadClient) (f : Option ExpandRequest → Option ExpandRequest) (s : State) :
    clientSlot c (modSlot c f s) = f (clientSlot c s) := by
  cases c with
  | restore => rfl
  | verify n => exact upd_same _ n f

/-- A change of one client's slot leaves every other client's slot, and the engine (R31). -/
theorem clientSlot_modSlot_other (c d : ReadClient) (f : Option ExpandRequest → Option ExpandRequest) (s : State)
    (h : d ≠ c) : clientSlot d (modSlot c f s) = clientSlot d s := by
  match c, d with
  | .restore, .restore => exact absurd rfl h
  | .restore, .verify m => rfl
  | .verify n, .restore => rfl
  | .verify n, .verify m =>
    exact upd_other _ _ _ _ fun e => h (congrArg ReadClient.verify e)

@[simp] theorem modSlot_engine (c : ReadClient) (f : Option ExpandRequest → Option ExpandRequest) (s : State) :
    (modSlot c f s).exp.engine = s.exp.engine := by
  cases c <;> rfl

end Sys2Proof.Machine
end

