-- ==== Sys2Proof/Laws/Sound.lean ====
section
/-! SUPPORT. Laws/Sound.lean: the part of the invariant that speaks of pages, the compressor, lanes, catalog, directory and
governors, and what each operation that touches them does to it. -/

namespace Sys2Proof.Machine

/-- The invariant but for the link, the rooms of the queues, the settings, the tables and the open chunks. -/
def Sound (s : State) : Prop :=
  s.pool.quotas.quotasOk ∧ s.pool.withinQuotas ∧ entriesOk s ∧ reservationOk s ∧ lanesOk s ∧ s.cat.ok ∧ s.cdr.agrees ∧
    s.cdr.cartsOk ∧ stepsOk s

/-- The drive has a WRITE, or the STEP before it, in flight on a lane. -/
def writing (n : LaneId) (s : State) : Bool := s.lanes[n].command.any fun f => f.command.ofWriting

@[simp] theorem lane_ok_iff (l : Lane) (p : Bool) :
    l.ok p ↔ (l.command.any (fun f => f.command.ofWriting) = true → l.state = .writing) ∧
      (l.command.any (fun f => f.command.isWrite) = true → p = true) ∧
      (l.holdReason.isSome = true → l.state = .hold) := Iff.rfl

@[simp] theorem ofWriting_thread : DriveCommand.thread.ofWriting = false := by decide
@[simp] theorem ofWriting_eject : DriveCommand.eject.ofWriting = false := by decide
@[simp] theorem ofWriting_read (b : Nat) : (DriveCommand.read b).ofWriting = false := by
  simp only [DriveCommand.ofWriting]
@[simp] theorem ofWriting_locate (b : Nat) (p : Purpose) : (DriveCommand.locate b p).ofWriting = false := by
  simp only [DriveCommand.ofWriting]

@[simp] theorem cart_ok_iff (c : Cart) :
    c.ok ↔ c.floor ≤ c.endOfData ∧ c.verifiedTo ≤ c.endOfData ∧ c.endOfData ≤ max32 := Iff.rfl

/-- A state from which the part's work starts soundly. -/
def Good (a : State) : Prop := chunksOk a ∧ Sound a

/-- From a good start, neither WRITE nor STEP is in flight on a lane. -/
def Calm (a : State) (n : LaneId) (s : State) : Prop := Good a → writing n s = false

variable {s : State}

theorem Sound.lane (h : Sound s) (n : LaneId) : s.lanes[n].ok s.cat.places[n] := h.2.2.2.2.1 n

/-- A lane that is not WRITING has neither WRITE nor STEP in flight. -/
theorem Sound.idle (h : Sound s) (n : LaneId) (hs : s.lanes[n].state ≠ .writing) : writing n s = false := by
  cases e : writing n s with
  | false => rfl
  | true => exact absurd ((h.lane n).1 e) hs

/-- A hold reason stands in HOLD only. -/
theorem Sound.holds (h : Sound s) (n : LaneId) (r : HoldReason) (hr : s.lanes[n].holdReason = some r) :
    s.lanes[n].state = .hold := (h.lane n).2.2 (by rw [hr]; rfl)

/-- One figure of an element is left by an update that leaves it. -/
theorem upd_figure {α β : Type} {k : Nat} (v : Vector α k) (i j : Fin k) (f : α → α) (g : α → β)
    (h : g (f v[i]) = g v[i]) : g (upd v i f)[j] = g v[j] := by
  by_cases hj : j = i
  · subst hj; rw [upd_same]; exact h
  · rw [upd_other v i j f hj]

/-! ## Streams -/

/-- A reservation reads of the streams the one's lane. -/
theorem stands_lane {v : Vector Stream 32} (r : Reservation) (i : StreamId) (h : v[i].lane = s.streams[i].lane) :
    roomStands r i { s with streams := v } ↔ roomStands r i s := by
  unfold roomStands
  cases r
  · show openRoom i v[i].lane s = true ↔ _
    rw [h]
  · show newRoom v[i].lane s = true ↔ _
    rw [h]

/-- A change of a stream that leaves its lane and its staged count, and closes it only with nothing staged. -/
theorem sound_modStream (i : StreamId) (f : Stream → Stream) (hl : (f s.streams[i]).lane = s.streams[i].lane)
    (hg : (f s.streams[i]).staged = s.streams[i].staged)
    (hc : (f s.streams[i]).state = .closed → s.streams[i].state = .closed ∨ s.streams[i].staged = 0) (h : Sound s) :
    Sound (modStream i f s) := by
  obtain ⟨q, p, ⟨e1, e2, e3⟩, r, rest⟩ := h
  have lane : ∀ j : StreamId, (upd s.streams i f)[j].lane = s.streams[j].lane := fun j => upd_figure _ _ _ _ _ hl
  have staged : ∀ j : StreamId, (upd s.streams i f)[j].staged = s.streams[j].staged := fun j => upd_figure _ _ _ _ _ hg
  refine ⟨q, p, ⟨e1, fun j => (staged j).trans (e2 j), fun j hj => ?_⟩, fun t ht => ?_, rest⟩
  · show (upd s.streams i f)[j].staged = 0
    rw [staged]
    by_cases hi : j = i
    · subst hi
      have hj : (upd s.streams j f)[j].state = .closed := hj
      rw [upd_same] at hj
      exact (hc hj).elim (e3 j) id
    · have hj : (upd s.streams i f)[j].state = .closed := hj
      rw [upd_other _ _ _ _ hi] at hj
      exact e3 j hj
  · exact (stands_lane _ _ (lane _)).2 (r t ht)

/-! ## The compressor (R8, R12, R16, R19, R22) -/

/-- An entry joins the ready list, its stream's staged count raised with it (R8, R15). -/
theorem sound_stage (e : Entry) (f : Stream → Stream) (hb : ∀ b, e.raw = some b → b.length ≤ Config.pageBytes)
    (hl : (f s.streams[e.stream]).lane = s.streams[e.stream].lane)
    (hg : (f s.streams[e.stream]).staged = s.streams[e.stream].staged + 1)
    (hc : (f s.streams[e.stream]).state ≠ .closed) (h : Sound s) : Sound (joinReady e (modStream e.stream f s)) := by
  obtain ⟨q, p, ⟨e1, e2, e3⟩, r, rest⟩ := h
  have lane : ∀ j : StreamId, (upd s.streams e.stream f)[j].lane = s.streams[j].lane := fun j =>
    upd_figure _ _ _ _ _ hl
  refine ⟨q, p, ⟨?_, fun j => ?_, fun j hj => ?_⟩, fun t ht => ?_, rest⟩
  · intro x hx b hxb
    have hx : x ∈ (s.cmp.ready ++ [e]) ++ (s.cmp.engine.map Taken.entry).toList := hx
    simp only [List.mem_append, List.mem_singleton] at hx
    obtain (hx | rfl) | hx := hx
    · exact e1 x (List.mem_append_left _ hx) b hxb
    · exact hb b hxb
    · exact e1 x (List.mem_append_right _ hx) b hxb
  · show (upd s.streams e.stream f)[j].staged =
      ((s.cmp.ready ++ [e]) ++ (s.cmp.engine.map Taken.entry).toList).countP fun x => decide (x.stream = j)
    have ej := e2 j
    simp only [Compressor.entries, List.countP_append, List.countP_cons, List.countP_nil] at ej ⊢
    by_cases hj : j = e.stream
    · subst hj; rw [upd_same, hg, ej]; simp only [decide_true, if_true]; omega
    · rw [upd_other _ _ _ _ hj, ej]; simp [Ne.symm hj]
  · have hj : (upd s.streams e.stream f)[j].state = .closed := hj
    show (upd s.streams e.stream f)[j].staged = 0
    by_cases hi : j = e.stream
    · subst hi; rw [upd_same] at hj; exact absurd hj hc
    · rw [upd_other _ _ _ _ hi] at hj ⊢; exact e3 j hj
  · exact (stands_lane (s := s) _ _ (lane _)).2 (r t ht)

/-- Entries change their marks only (R14). -/
theorem sound_marks (f : Compressor → Compressor)
    (he : (f s.cmp).entries.map (fun e => (e.stream, e.raw)) = s.cmp.entries.map fun e => (e.stream, e.raw))
    (ht : (f s.cmp).engine.map (fun t => (t.entry.stream, t.reservation)) =
      s.cmp.engine.map fun t => (t.entry.stream, t.reservation)) (h : Sound s) : Sound (modCmp f s) := by
  obtain ⟨q, p, ⟨e1, e2, e3⟩, r, rest⟩ := h
  refine ⟨q, p, ⟨fun x hx b hb => ?_, fun j => (e2 j).trans ?_, e3⟩, fun t hx => ?_, rest⟩
  · have : (x.stream, x.raw) ∈ s.cmp.entries.map fun e => (e.stream, e.raw) := by
      rw [← he]; exact List.mem_map_of_mem hx
    obtain ⟨y, hy, hxy⟩ := List.mem_map.mp this
    exact e1 y hy b ((congrArg Prod.snd hxy).trans hb)
  · have key : ∀ l : List Entry, (l.countP fun e => decide (e.stream = j)) =
        (l.map fun e => (e.stream, e.raw)).countP fun p => decide (p.1 = j) := fun l => by
      rw [List.countP_map]; rfl
    show _ = ((f s.cmp).entries.countP fun e => decide (e.stream = j))
    rw [key, key, he]
  · have hx : (f s.cmp).engine = some t := hx
    rw [hx] at ht
    cases hs : s.cmp.engine with
    | none => rw [hs] at ht; cases ht
    | some u =>
      rw [hs] at ht
      simp only [Option.map_some, Option.some.injEq, Prod.mk.injEq] at ht
      have := r u hs
      rw [← ht.1, ← ht.2] at this
      exact this

theorem takeEligible_split (s : State) (l : List Entry) (e : Entry) (rest : List Entry)
    (h : takeEligible s l = some (e, rest)) :
    eligible e s = true ∧ (∀ x, x ∈ rest ∨ x = e → x ∈ l) ∧
      ∀ p : Entry → Bool, rest.countP p + (if p e = true then 1 else 0) = l.countP p := by
  induction l generalizing e rest with
  | nil => cases h
  | cons y l ih =>
    unfold takeEligible at h
    split at h
    · next he =>
      cases h
      refine ⟨he, fun x hx => ?_, fun p => ?_⟩
      · rcases hx with hx | rfl
        · exact List.mem_cons_of_mem _ hx
        · exact List.mem_cons_self
      · rw [List.countP_cons]
    · cases ht : takeEligible s l with
      | none => rw [ht] at h; cases h
      | some w =>
        rw [ht] at h
        obtain ⟨z, r⟩ := w
        simp only [Option.map_some, Option.some.injEq, Prod.mk.injEq] at h
        obtain ⟨rfl, rfl⟩ := h
        obtain ⟨a, b, c⟩ := ih z r ht
        refine ⟨a, fun x hx => ?_, fun p => ?_⟩
        · rcases hx with hx | rfl
          · rcases List.mem_cons.mp hx with rfl | hx
            · exact List.mem_cons_self
            · exact List.mem_cons_of_mem _ (b x (.inl hx))
          · exact List.mem_cons_of_mem _ (b x (.inr rfl))
        · rw [List.countP_cons, List.countP_cons, ← c p]; omega

/-- The take reserves the room that made the entry eligible (R19, R21). -/
theorem sound_compressorTake (h : Sound s) : Sound (compressorTake s) := by
  unfold compressorTake
  split
  · exact h
  · next hn =>
    split
    · exact h
    · next e rest ht =>
      obtain ⟨q, p, ⟨e1, e2, e3⟩, r, others⟩ := h
      obtain ⟨el, mem, count⟩ := takeEligible_split s _ _ _ ht
      have ent : s.cmp.entries = s.cmp.ready := by simp [Compressor.entries, hn]
      rw [ent] at e1 e2
      refine ⟨q, p, ⟨fun x hx => e1 x (mem x ?_), fun j => (e2 j).trans ?_, e3⟩, fun t hx => ?_, others⟩
      · have hx : x ∈ rest ++ [e] := hx
        simpa using hx
      · show _ = (rest ++ [e]).countP fun x => decide (x.stream = j)
        rw [← count, List.countP_append, List.countP_cons, List.countP_nil]; omega
      · cases hx
        show roomStands (if openRoom e.stream s.streams[e.stream].lane s = true then .openRoom else .newRoom) e.stream s
        split
        · assumption
        · next hr =>
          unfold eligible at el
          have el := (Bool.or_eq_true _ _).mp el
          exact el.resolve_left hr

/-! ## Pages (R38 to R44) -/

/-- A change of the waiting list (R43). -/
theorem sound_modPool (f : Pool → Pool) (hq : (f s.pool).quotas = s.pool.quotas) (hh : (f s.pool).held = s.pool.held)
    (h : Sound s) : Sound (modPool f s) := by
  obtain ⟨q, p, e, r, rest⟩ := h
  refine ⟨?_, ?_, e, fun t ht => ?_, rest⟩
  · show (f s.pool).quotas.quotasOk
    rw [hq]; exact q
  · show (f s.pool).withinQuotas
    unfold Pool.withinQuotas
    rw [hq, hh]; exact p
  · have := r t ht
    unfold roomStands newRoom at this ⊢
    cases hm : t.reservation with
    | openRoom => rw [hm] at this; exact this
    | newRoom =>
      rw [hm] at this
      show decide ((f s.pool).held.assembly[s.streams[t.entry.stream].lane] + Config.blockPages ≤
        (f s.pool).quotas.assembly[s.streams[t.entry.stream].lane]) = true
      rw [hq, hh]; exact this

/-- Held counts that stay within the quotas, with none of the assembly regions gaining pages (R38). -/
theorem sound_modHeld (f : Regions → Regions) (hi : (f s.pool.held).ingest ≤ s.pool.quotas.ingest)
    (ha : ∀ n : LaneId, (f s.pool.held).assembly[n] ≤ s.pool.held.assembly[n])
    (hr : (f s.pool.held).read ≤ s.pool.quotas.read) (h : Sound s) : Sound (modHeld f s) := by
  obtain ⟨q, p, e, r, rest⟩ := h
  refine ⟨q, ⟨hi, fun n => (ha n).trans (p.2.1 n), hr⟩, e, fun t ht => ?_, rest⟩
  have := r t ht
  unfold roomStands newRoom at this ⊢
  cases hm : t.reservation with
  | openRoom => rw [hm] at this; exact this
  | newRoom =>
    rw [hm] at this
    have this := of_decide_eq_true this
    refine decide_eq_true ?_
    exact (Nat.add_le_add_right (ha _) _).trans this

/-! ## Assembly (R47 to R52) -/

/-- A change of a lane's assembly under which no reserved room in its open block is lost. -/
theorem sound_modAsm (n : LaneId) (f : Assembly → Assembly)
    (hr : reservedOpen n s = true → ∀ i, openRoom i n s = true → openRoom i n (modAsm n f s) = true) (h : Sound s) :
    Sound (modAsm n f s) := by
  obtain ⟨q, p, e, r, rest⟩ := h
  refine ⟨q, p, e, fun t ht => ?_, rest⟩
  have ht : s.cmp.engine = some t := ht
  have := r t ht
  unfold roomStands at this ⊢
  cases hm : t.reservation with
  | newRoom => rw [hm] at this; exact this
  | openRoom =>
    rw [hm] at this
    by_cases hn : s.streams[t.entry.stream].lane = n
    · subst hn
      refine hr ?_ _ this
      unfold reservedOpen
      simp only [show s.cmp.engine = some t from ht, hm, decide_true, Bool.and_self]
    · show openRoom _ s.streams[t.entry.stream].lane _ = true
      unfold openRoom at this ⊢
      rw [show (modAsm n f s).asm[s.streams[t.entry.stream].lane] = s.asm[s.streams[t.entry.stream].lane] from
        upd_other _ _ _ _ hn]
      exact this

theorem sound_modAsm_queue (n : LaneId) (f : Assembly → Assembly) (hf : ∀ x, (f x).openBlock = x.openBlock)
    (h : Sound s) : Sound (modAsm n f s) := by
  refine sound_modAsm n f (fun _ i hi => ?_) h
  unfold openRoom at hi ⊢
  rw [show (modAsm n f s).asm[n].openBlock = s.asm[n].openBlock by
    show (upd s.asm n f)[n].openBlock = _
    rw [upd_same, hf]]
  exact hi

/-! ## Lanes (R66, R81, R83) -/

theorem sound_modLane (n : LaneId) (f : Lane → Lane)
    (hf : s.lanes[n].ok s.cat.places[n] → (f s.lanes[n]).ok s.cat.places[n]) (h : Sound s) : Sound (modLane n f s) := by
  obtain ⟨q, p, e, r, l, rest⟩ := h
  refine ⟨q, p, e, r, fun m => ?_, rest⟩
  show (upd s.lanes n f)[m].ok s.cat.places[m]
  by_cases hm : m = n
  · subst hm; rw [upd_same]; exact hf (l m)
  · rw [upd_other _ _ _ _ hm]; exact l m

/-! ## Governors (R82) -/

theorem sound_modGov (n : LaneId) (f : Governor → Governor)
    (hf : s.gov[n].step < s.tables.speed.length → (f s.gov[n]).step < s.tables.speed.length) (h : Sound s) :
    Sound (modGov n f s) := by
  obtain ⟨q, p, e, r, l, c, m, k, g⟩ := h
  refine ⟨q, p, e, r, l, c, m, k, fun j => ?_⟩
  show (upd s.gov n f)[j].step < _
  by_cases hj : j = n
  · subst hj; rw [upd_same]; exact hf (g j)
  · rw [upd_other _ _ _ _ hj]; exact g j

/-! ## Catalog (R133, R134) -/

theorem held_upd (v : Vector Bool 4) (n : LaneId) (b : Bool) :
    ((upd v n fun _ => b).toList.filter id).length + (if v[n] = true then 1 else 0) =
      (v.toList.filter id).length + (if b = true then 1 else 0) := by
  obtain ⟨⟨l⟩, hl⟩ := v
  match l, hl with
  | [w, x, y, z], _ =>
    match n with
    | 0 => revert w x y z b; decide
    | 1 => revert w x y z b; decide
    | 2 => revert w x y z b; decide
    | 3 => revert w x y z b; decide

/-- A change of the catalog that leaves its places and adds no entry. -/
theorem sound_modCat (f : Catalog → Catalog) (hp : (f s.cat).places = s.cat.places)
    (he : (f s.cat).entries.length ≤ s.cat.entries.length) (h : Sound s) : Sound (modCat f s) := by
  obtain ⟨q, p, e, r, l, c, rest⟩ := h
  refine ⟨q, p, e, r, fun n => ?_, ?_, rest⟩
  · show s.lanes[n].ok (f s.cat).places[n]
    rw [hp]; exact l n
  · show (f s.cat).ok
    unfold Catalog.ok at c ⊢
    rw [hp]; omega

/-- A place that changes: it is given up with no WRITE in flight, or is given while there is room. -/
theorem sound_setPlaceOf (n : LaneId) (b : Bool) (f : Catalog → Catalog)
    (hp : (f s.cat).places = upd s.cat.places n fun _ => b) (hw : b = false → writing n s = false)
    (hc : (f s.cat).entries.length + (if b = true then 1 else 0) + (s.cat.places.toList.filter id).length ≤
      Config.catalogEntries + (if s.cat.places[n] = true then 1 else 0)) (h : Sound s) : Sound (modCat f s) := by
  obtain ⟨q, p, e, r, l, -, rest⟩ := h
  have held := held_upd s.cat.places n b
  refine ⟨q, p, e, r, fun m => ?_, ?_, rest⟩
  · show s.lanes[m].ok (f s.cat).places[m]
    rw [hp]
    by_cases hm : m = n
    · subst hm
      rw [upd_same]
      obtain ⟨x, y, z⟩ := l m
      refine ⟨x, fun hv => ?_, z⟩
      by_contra hb
      have hb : b = false := by simpa using hb
      have := hw hb
      unfold writing at this
      cases hk : s.lanes[m].command with
      | none => rw [hk] at hv; cases hv
      | some g =>
        rw [hk] at hv this
        simp only [Option.any_some] at hv this
        cases hg : g.command <;> rw [hg] at hv this <;> simp [DriveCommand.isWrite, DriveCommand.ofWriting] at hv this
    · rw [upd_other _ _ _ _ hm]; exact l m
  · show (f s.cat).ok
    unfold Catalog.ok
    rw [hp]; omega

/-! ## Directory (R90, R92) -/

/-- A change of a record in its place (R90). -/
theorem sound_modRecord (i : CartId) (f : Cart → Cart)
    (hf : ∀ c, recordAt i s = some c → (f c).location = c.location ∧ (c.ok → (f c).ok)) (h : Sound s) :
    Sound (modRecord i f s) := by
  obtain ⟨q, p, e, r, l, c, m, k, g⟩ := h
  refine ⟨q, p, e, r, l, c, fun x j => ?_, fun j x hx => ?_, g⟩
  · show s.cdr.map[x] = some j ↔ ∃ c, (upd s.cdr.records i (Option.map f))[j] = some c ∧ c.location.place = some x
    rw [m x j]
    by_cases hj : j = i
    · subst hj
      rw [upd_same]
      cases hr : s.cdr.records[j] with
      | none => simp
      | some y => simp [(hf y hr).1]
    · rw [upd_other _ _ _ _ hj]
  · have hx : (upd s.cdr.records i (Option.map f))[j] = some x := hx
    by_cases hj : j = i
    · subst hj
      rw [upd_same] at hx
      cases hr : s.cdr.records[j] with
      | none => rw [hr] at hx; cases hx
      | some y => rw [hr] at hx; cases hx; exact (hf y hr).2 (k j y hr)
    · rw [upd_other _ _ _ _ hj] at hx
      exact k j x hx

/-- The map and the records after a record takes an index and a location whose place no other record has. -/
theorem sound_cdr (d : Directory) (hm : d.agrees) (hk : d.cartsOk) (h : Sound s) : Sound { s with cdr := d } := by
  obtain ⟨q, p, e, r, l, c, -, -, g⟩ := h
  exact ⟨q, p, e, r, l, c, hm, hk, g⟩

/-- The directory alone has changed. -/
def CdrOnly (a s : State) : Prop := s = { a with cdr := s.cdr }

theorem CdrOnly.trans {a b s : State} (h : CdrOnly a b) (k : CdrOnly b s) : CdrOnly a s := by
  unfold CdrOnly at h k ⊢
  rw [h] at k; exact k

theorem cdrOnly_setPlace (l : Location) (r : Option CartId) (s : State) : CdrOnly s (setPlace l r s) := by
  unfold setPlace; split <;> rfl

theorem cdrOnly_clearPlace (i : CartId) (s : State) : CdrOnly s (clearPlace i s) := by
  unfold clearPlace
  repeat' split
  all_goals first | rfl | exact cdrOnly_setPlace _ _ s

theorem cdrOnly_displaceOther (i : CartId) (l : Location) (s : State) : CdrOnly s (displaceOther i l s) := by
  unfold displaceOther
  repeat' split
  all_goals rfl

theorem Sound.directory {a : State} (h : Sound a) (k : CdrOnly a s) (hm : s.cdr.agrees) (hc : s.cdr.cartsOk) : Sound s := by
  unfold CdrOnly at k
  rw [k]; exact sound_cdr _ hm hc h

theorem map_setPlace (l : Location) (r : Option CartId) (s : State) (p : Fin 55) :
    (setPlace l r s).cdr.map[p] = if l.place = some p then r else s.cdr.map[p] := by
  unfold setPlace
  cases hl : l.place with
  | none => simp
  | some x =>
    show (upd s.cdr.map x fun _ => r)[p] = _
    rw [upd_get]
    simp [eq_comm]

theorem records_setPlace (l : Location) (r : Option CartId) (s : State) : (setPlace l r s).cdr.records = s.cdr.records := by
  unfold setPlace; split <;> rfl

theorem records_clearPlace (i : CartId) (s : State) : (clearPlace i s).cdr.records = s.cdr.records := by
  unfold clearPlace
  repeat' split
  all_goals first | rfl | exact records_setPlace _ _ s

/-- Away from a location, the map names every record but `i` as the directory places it; and no other record is there. -/
def agreesBut (i : CartId) (l : Location) (d : Directory) : Prop :=
  (∀ p, l.place ≠ some p → ∀ j : CartId, d.map[p] = some j ↔ j ≠ i ∧ ∃ c, d.records[j] = some c ∧ c.location.place = some p) ∧
  ∀ p, l.place = some p → ∀ (j : CartId) (c : Cart), j ≠ i → d.records[j] = some c → c.location.place ≠ some p

/-- The place of record `i` is cleared (R97). -/
theorem map_clearPlace (i : CartId) (s : State) (x : Fin 55)
    (h : ∀ p, s.cdr.map[p] = some i ↔ ∃ c, s.cdr.records[i] = some c ∧ c.location.place = some p) :
    (clearPlace i s).cdr.map[x] = if s.cdr.map[x] = some i then none else s.cdr.map[x] := by
  unfold clearPlace recordAt
  cases hr : s.cdr.records[i] with
  | none =>
    have : s.cdr.map[x] ≠ some i := fun e => by
      obtain ⟨c, hc, -⟩ := (h x).1 e
      rw [hr] at hc; cases hc
    simp [this, -Fin.getElem_fin]
  | some c =>
    dsimp only
    cases hp : c.location.place with
    | none =>
      have hn : namedAt c.location s = none := by unfold namedAt; rw [hp]
      have : s.cdr.map[x] ≠ some i := fun e => by
        obtain ⟨y, hy, hz⟩ := (h x).1 e
        rw [hr] at hy; cases hy; rw [hp] at hz; cases hz
      simp [hn, this, -Fin.getElem_fin]
    | some p =>
      have hn : namedAt c.location s = some i := by
        unfold namedAt; rw [hp]; exact (h p).2 ⟨c, hr, hp⟩
      rw [if_pos hn, map_setPlace, hp]
      by_cases hx : p = x
      · subst hx
        have : s.cdr.map[p] = some i := (h p).2 ⟨c, hr, hp⟩
        simp [this, -Fin.getElem_fin]
      · have : s.cdr.map[x] ≠ some i := fun e => by
          obtain ⟨y, hy, hz⟩ := (h x).1 e
          rw [hr] at hy; cases hy; rw [hp] at hz; exact hx (Option.some.inj hz)
        simp [hx, this, -Fin.getElem_fin]

/-- A record stands at an index with a location, where the map agrees but for it (R92). -/
theorem agrees_put (i : CartId) (c : Cart) (a s : State) (hb : agreesBut i c.location a.cdr)
    (hm : s.cdr.map = a.cdr.map) (hr : s.cdr.records = upd a.cdr.records i fun _ => some c) :
    (setPlace c.location (some i) s).cdr.agrees := by
  intro p j
  rw [map_setPlace, records_setPlace, hr, hm]
  by_cases hp : c.location.place = some p
  · rw [if_pos hp]
    by_cases hj : j = i
    · subst hj; rw [upd_same]; simp [hp]
    · rw [upd_other _ _ _ _ hj]
      refine ⟨fun e => absurd (Option.some.inj e).symm hj, fun ⟨x, hx, hxp⟩ => absurd hxp (hb.2 p hp j x hj hx)⟩
  · rw [if_neg hp, hb.1 p hp j]
    by_cases hj : j = i
    · subst hj; rw [upd_same]; simp [hp]
    · rw [upd_other _ _ _ _ hj]; simp [hj]

/-- What DISPLACE and CLEAR leave for a record that moves to a location (R92, R97). -/
theorem agreesBut_clear (i : CartId) (l : Location) (h : s.cdr.agrees) :
    agreesBut i l (clearPlace i (displaceOther i l s)).cdr := by
  -- the other record at the location, if any, has become MISSING
  have key : ∀ a : State, a.cdr.map = s.cdr.map → a.cdr.records[i] = s.cdr.records[i] →
      (∀ p, l.place ≠ some p → ∀ j : CartId, (∃ c, a.cdr.records[j] = some c ∧ c.location.place = some p) ↔
        ∃ c, s.cdr.records[j] = some c ∧ c.location.place = some p) →
      (∀ p, l.place = some p → ∀ (j : CartId) (c : Cart), j ≠ i → a.cdr.records[j] = some c → c.location.place ≠ some p) →
      agreesBut i l (clearPlace i a).cdr := by
    intro a hm hi ho hl
    have own : ∀ p, a.cdr.map[p] = some i ↔ ∃ c, a.cdr.records[i] = some c ∧ c.location.place = some p := fun p => by
      rw [hm, hi]; exact h p i
    refine ⟨fun p hp j => ?_, ?_⟩
    · rw [map_clearPlace i a p own, records_clearPlace, ho p hp j, hm, ← h p j]
      by_cases hx : s.cdr.map[p] = some i
      · rw [if_pos hx, hx]
        refine ⟨fun e => (by cases e), fun ⟨ne, e⟩ => absurd (Option.some.inj e).symm ne⟩
      · rw [if_neg hx]
        refine ⟨fun e => ⟨fun w => hx (w ▸ e), e⟩, fun e => e.2⟩
    · rw [records_clearPlace]; exact hl
  unfold displaceOther
  cases hn : namedAt l s with
  | none =>
    refine key s rfl rfl (fun _ _ _ => Iff.rfl) fun p hp j c _ hc e => ?_
    unfold namedAt at hn
    rw [hp] at hn
    have := (h p j).2 ⟨c, hc, e⟩
    rw [show s.cdr.map[p] = none from hn] at this; cases this
  | some j0 =>
    have named : ∀ p, l.place = some p → s.cdr.map[p] = some j0 := fun p hp => by
      unfold namedAt at hn; rw [hp] at hn; exact hn
    dsimp only
    split
    · next e =>
      subst e
      refine key s rfl rfl (fun _ _ _ => Iff.rfl) fun p hp j c hj hc e => ?_
      have := (h p j).2 ⟨c, hc, e⟩
      rw [named p hp] at this; exact hj (Option.some.inj this).symm
    · next ne =>
      have moved : ∀ j : CartId, (modRecord j0 (fun c => { c with location := .missing }) s).cdr.records[j] =
          if j = j0 then s.cdr.records[j0].map (fun c => { c with location := .missing }) else s.cdr.records[j] :=
        fun j => upd_get _ _ _ _
      refine key _ rfl ?_ (fun p hp j => ?_) fun p hp j c hj hc e => ?_
      · rw [moved, if_neg (Ne.symm ne)]
      · rw [moved]
        split
        · next e =>
          subst e
          constructor
          · rintro ⟨c, hc, e⟩
            cases hr : s.cdr.records[j] with
            | none => rw [hr] at hc; cases hc
            | some y => rw [hr] at hc; cases hc; cases e
          · rintro ⟨c, hc, e⟩
            have hx : l.place.isSome = true := by
              unfold namedAt at hn
              cases hl : l.place with
              | none => rw [hl] at hn; cases hn
              | some _ => rfl
            obtain ⟨w, hw⟩ := Option.isSome_iff_exists.mp hx
            obtain ⟨y, hy, hyp⟩ := (h w j).1 (named w hw)
            rw [hy] at hc; cases hc
            rw [hyp] at e; cases e
            exact absurd hw hp
        · exact Iff.rfl
      · rw [moved] at hc
        split at hc
        · next ej =>
          cases hr : s.cdr.records[j0] with
          | none => rw [hr] at hc; cases hc
          | some y => rw [hr] at hc; cases hc; cases e
        · next nj =>
          have := (h p j).2 ⟨c, hc, e⟩
          rw [named p hp] at this; exact nj (Option.some.inj this).symm

theorem cartsOk_upd (d : Directory) (i : CartId) (f : Option Cart → Option Cart)
    (hf : ∀ c, f d.records[i] = some c → c.ok) (h : d.cartsOk) (m : Vector (Option CartId) 55) :
    Directory.cartsOk { records := upd d.records i f, map := m } := by
  intro j c hc
  have hc : (upd d.records i f)[j] = some c := hc
  by_cases hj : j = i
  · subst hj; rw [upd_same] at hc; exact hf c hc
  · rw [upd_other _ _ _ _ hj] at hc; exact h j c hc

/-- A record moves (R93), where there is one. -/
theorem sound_moveRecord (i : CartId) (l : Location) (hi : (recordAt i s).isSome = true) (h : Sound s) :
    Sound (moveRecord i l s) := by
  have hm := h.2.2.2.2.2.2.1
  have hc := h.2.2.2.2.2.2.2.1
  have only : CdrOnly s (moveRecord i l s) :=
    ((cdrOnly_displaceOther i l s).trans (cdrOnly_clearPlace i _)).trans
      ((show CdrOnly _ (modRecord i (fun c => { c with location := l }) _) from rfl).trans (cdrOnly_setPlace _ _ _))
  -- the records that stand before the move's own change
  have before : (clearPlace i (displaceOther i l s)).cdr.cartsOk := by
    intro j c hj
    rw [records_clearPlace] at hj
    unfold displaceOther at hj
    split at hj
    · exact hc j c hj
    · split at hj
      · exact hc j c hj
      · next m _ _ =>
        refine cartsOk_upd s.cdr m (Option.map fun c => { c with location := .missing }) (fun x hx => ?_) hc s.cdr.map j c hj
        cases hr : s.cdr.records[m] with
        | none => rw [hr] at hx; cases hx
        | some y => rw [hr] at hx; cases hx; exact hc m y hr
  obtain ⟨x, hx⟩ := Option.isSome_iff_exists.mp hi
  have still : (clearPlace i (displaceOther i l s)).cdr.records[i] = some x := by
    rw [records_clearPlace]
    unfold displaceOther
    split
    · exact hx
    · split
      · exact hx
      · next j _ ne =>
        exact (upd_other s.cdr.records j i _ (Ne.symm ne)).trans hx
  refine h.directory only ?_ ?_
  · refine agrees_put i { x with location := l } _ _ (agreesBut_clear i l hm) rfl ?_
    exact upd_congr _ i _ _ (by rw [still]; rfl)
  · unfold moveRecord
    intro j c hj
    rw [records_setPlace] at hj
    refine cartsOk_upd (clearPlace i (displaceOther i l s)).cdr i (Option.map fun c => { c with location := l })
      (fun y hy => ?_) before (clearPlace i (displaceOther i l s)).cdr.map j c hj
    rw [still] at hy; cases hy
    exact before i x still

/-- A record is written at an index (R97), its location free for it. -/
theorem sound_putRecord (i : CartId) (c : Cart) (hk : c.ok) (hl : ∀ j, namedAt c.location s = some j → j = i)
    (h : Sound s) : Sound (putRecord i c s) := by
  have hm := h.2.2.2.2.2.2.1
  have hc := h.2.2.2.2.2.2.2.1
  have only : CdrOnly s (putRecord i c s) :=
    (cdrOnly_clearPlace i s).trans ((show CdrOnly _ (modCdr _ _) from rfl).trans (cdrOnly_setPlace _ _ _))
  have same : displaceOther i c.location s = s := by
    unfold displaceOther
    split
    · rfl
    · next j e => rw [if_pos (hl j e)]
  have but := agreesBut_clear i c.location hm
  rw [same] at but
  refine h.directory only (agrees_put i c _ _ but rfl rfl) ?_
  unfold putRecord
  intro j x hj
  rw [records_setPlace] at hj
  refine cartsOk_upd (clearPlace i s).cdr i (fun _ => some c) (fun y hy => by cases hy; exact hk) ?_ (clearPlace i s).cdr.map
    j x hj
  intro k y hy
  rw [records_clearPlace] at hy
  exact hc k y hy

/-- An index becomes empty (R96, R104). -/
theorem sound_dropRecord (i : CartId) (h : Sound s) : Sound (dropRecord i s) := by
  have hm := h.2.2.2.2.2.2.1
  have hc := h.2.2.2.2.2.2.2.1
  have only : CdrOnly s (dropRecord i s) := (cdrOnly_clearPlace i s).trans rfl
  have same : displaceOther i .outside s = s := rfl
  have but := agreesBut_clear i .outside hm
  rw [same] at but
  refine h.directory only (fun p j => ?_) ?_
  · show (clearPlace i s).cdr.map[p] = some j ↔ ∃ c, (upd (clearPlace i s).cdr.records i fun _ => none)[j] = some c ∧ _
    rw [but.1 p (fun e => by cases e) j]
    by_cases hj : j = i
    · subst hj; rw [upd_same]; simp
    · rw [upd_other _ _ _ _ hj]; simp [hj]
  · refine cartsOk_upd (clearPlace i s).cdr i (fun _ => none) (fun y hy => by cases hy) ?_ _
    intro k y hy
    rw [records_clearPlace] at hy
    exact hc k y hy

/-- A place that names an index names a record (R92). -/
theorem Sound.named (h : Sound s) (l : Location) (i : CartId) (hn : namedAt l s = some i) :
    (recordAt i s).isSome = true := by
  unfold namedAt at hn
  split at hn
  · cases hn
  · next p _ =>
    obtain ⟨c, hc, -⟩ := (h.2.2.2.2.2.2.1 p i).1 hn
    unfold recordAt
    rw [hc]; rfl

/-! ## Lanes that drive no writing -/

theorem calm_of_command {a t : State} {n : LaneId} (h : t.lanes[n].command = s.lanes[n].command) : Calm a n t ↔ Calm a n s := by
  unfold Calm writing
  rw [h]

theorem calm_of_lanes {a t : State} {n : LaneId} (h : t.lanes = s.lanes) : Calm a n t ↔ Calm a n s :=
  calm_of_command (by rw [h])

variable {a : State} {n : LaneId}

@[simp] theorem calm_modLane (m : LaneId) (f : Lane → Lane) (hf : ∀ l, (f l).command = l.command) :
    Calm a n (modLane m f s) ↔ Calm a n s := calm_of_command (upd_figure _ _ _ _ Lane.command (hf _))

@[simp] theorem calm_clearCommand : Calm a n (clearCommand n s) := fun _ => by
  unfold writing clearCommand
  rw [show (modLane n (fun l => { l with command := none }) s).lanes[n] = _ from upd_same _ _ _]
  rfl

@[simp] theorem calm_dropCommand (f : Lane → Lane) (hf : ∀ l, (f l).command = none) : Calm a n (modLane n f s) := fun _ => by
  unfold writing
  rw [show (modLane n f s).lanes[n] = _ from upd_same _ _ _, hf]
  rfl

@[simp] theorem calm_post (d : Due) : Calm a n (post d s) ↔ Calm a n s := Iff.rfl
@[simp] theorem calm_postFirst (d : Due) : Calm a n (postFirst d s) ↔ Calm a n s := Iff.rfl
@[simp] theorem calm_modCtx (m : LaneId) (f : VerifyContext → VerifyContext) : Calm a n (modCtx m f s) ↔ Calm a n s :=
  Iff.rfl
@[simp] theorem calm_modGov (m : LaneId) (f : Governor → Governor) : Calm a n (modGov m f s) ↔ Calm a n s := Iff.rfl
@[simp] theorem calm_modAsm (m : LaneId) (f : Assembly → Assembly) : Calm a n (modAsm m f s) ↔ Calm a n s := Iff.rfl
@[simp] theorem calm_modRecord (i : CartId) (f : Cart → Cart) : Calm a n (modRecord i f s) ↔ Calm a n s := Iff.rfl
@[simp] theorem calm_modVfy (f : Verify → Verify) : Calm a n (modVfy f s) ↔ Calm a n s := Iff.rfl
@[simp] theorem calm_raise (k : EventKind) (q : Option Nat) : Calm a n (raise k q s) ↔ Calm a n s := Iff.rfl
@[simp] theorem calm_answer (h : Hdr) (c : Nat) (st : Status) (b : ReplyBody) : Calm a n (answer h c st b s) ↔ Calm a n s :=
  Iff.rfl

@[simp] theorem calm_offerNotice (b : NoticeBody) : Calm a n (offerNotice b s) ↔ Calm a n s :=
  calm_of_lanes (by unfold offerNotice; split <;> rfl)

@[simp] theorem calm_setNeedsLocate (m : LaneId) (b : Bool) : Calm a n (setNeedsLocate m b s) ↔ Calm a n s :=
  calm_of_lanes (by unfold setNeedsLocate; split <;> rfl)

@[simp] theorem calm_freeRead (k : Nat) : Calm a n (freeRead k s) ↔ Calm a n s :=
  calm_of_lanes (by unfold freeRead; split <;> rfl)

theorem askPlace_lanes (n : LaneId) (s : State) : (askPlace n s).2.lanes = s.lanes := by
  unfold askPlace
  repeat' split
  · rfl
  · rfl
  · rfl
  · show (offerNotice _ s).lanes = _
    unfold offerNotice; split <;> rfl

@[simp] theorem calm_askPlace (m : LaneId) : Calm a n (askPlace m s).2 ↔ Calm a n s := calm_of_lanes (askPlace_lanes m s)

theorem setLaneState_lanes (n : LaneId) (st : LaneState) (s : State) :
    (setLaneState n st s).lanes = (modLane n (fun l => { l with state := st, holdReason := none }) s).lanes := by
  unfold setLaneState windowTimer laneReport
  cases st <;> first | rfl | (dsimp only; split <;> rfl)

theorem setLaneState_state (n : LaneId) (st : LaneState) (s : State) : (setLaneState n st s).lanes[n].state = st := by
  rw [setLaneState_lanes]
  show (upd s.lanes n _)[n].state = st
  rw [upd_same]

@[simp] theorem calm_setLaneState (m : LaneId) (st : LaneState) : Calm a n (setLaneState m st s) ↔ Calm a n s := by
  rw [calm_of_lanes (setLaneState_lanes m st s)]
  simp

theorem writeStarts_ready (n : LaneId) (s : State) (h : writeStarts n s = true) : s.lanes[n].state = .ready := by
  unfold writeStarts at h
  split at h
  · simp only [Bool.and_eq_true, decide_eq_true_eq] at h
    exact h.1.1.1.1.1
  · cases h

/-- A place granted is held (R133). -/
theorem askPlace_held (n : LaneId) (s : State) (h : (askPlace n s).1 = true) : (askPlace n s).2.cat.places[n] = true := by
  unfold askPlace at h ⊢
  split
  · assumption
  · next h1 =>
    rw [if_neg h1] at h
    split
    · exact upd_same _ _ _
    · next h2 =>
      rw [if_neg h2] at h
      split at h <;> cases h

end Sys2Proof.Machine
end

