-- ==== Sys2Proof/Laws/KeepsOps.lean ====
section
/-! SUPPORT. Laws/KeepsOps.lean: the shared operations keep what is not theirs: the structure Keeps, and one lemma per operation. -/

namespace Sys2Proof.Machine

/-- State `s` follows from state `a` by the part's internal work: what that work leaves as it was, and the rooms it
respects. -/
structure Keeps (a s : State) : Prop where
  pending : s.pending = a.pending
  replies : s.link.replies = a.link.replies
  counters : s.link.counters = a.link.counters
  sending : s.link.sending = a.link.sending
  credit : s.link.credit = a.link.credit
  resetReply : s.link.resetReply = a.link.resetReply
  waiting : s.link.waiting = a.link.waiting
  settings : s.settings = a.settings
  tables : s.tables = a.tables
  time : s.ttu.time = a.ttu.time
  notices : a.link.notices.length ≤ Config.noticeRoom → s.link.notices.length ≤ Config.noticeRoom
  mounts : a.mounts.length ≤ Config.mountRoom → s.mounts.length ≤ Config.mountRoom
  verifies : a.vfy.queue.length ≤ Config.mountRoom → s.vfy.queue.length ≤ Config.mountRoom
  restores : a.rse.queue.length ≤ Config.restoreRoom → s.rse.queue.length ≤ Config.restoreRoom
  chunks : chunksOk a → chunksOk s
  sound : Good a → Sound s

theorem Keeps.refl (s : State) : Keeps s s :=
  ⟨rfl, rfl, rfl, rfl, rfl, rfl, rfl, rfl, rfl, rfl, id, id, id, id, id, And.right⟩

theorem Keeps.trans {a b c : State} (h : Keeps a b) (k : Keeps b c) : Keeps a c :=
  ⟨k.1.trans h.1, k.2.trans h.2, k.3.trans h.3, k.4.trans h.4, k.5.trans h.5, k.6.trans h.6, k.7.trans h.7,
    k.8.trans h.8, k.9.trans h.9, k.10.trans h.10, k.11 ∘ h.11, k.12 ∘ h.12, k.13 ∘ h.13, k.14 ∘ h.14, k.15 ∘ h.15,
    fun g => k.16 ⟨h.15 g.1, h.16 g⟩⟩

/-! ## Updates of one piece -/

variable {a s : State}

theorem chunks_modStream (i : StreamId) (f : Stream → Stream)
    (hf : ∀ st, (f st).openChunk = st.openChunk ∨ (f st).openChunk = none) (h : chunksOk s) :
    chunksOk (modStream i f s) := by
  intro j c hc
  by_cases hj : j = i
  · subst hj
    simp only [modStream, upd_same] at hc
    rcases hf s.streams[j] with e | e
    · exact h j c (e ▸ hc)
    · rw [e] at hc; cases hc
  · simp only [modStream, upd_other _ _ _ _ hj] at hc
    exact h j c hc

/-- A change of a stream that takes no bytes into its open chunk. -/
theorem keeps_modStream_of (i : StreamId) (f : Stream → Stream)
    (hf : ∀ st, (f st).openChunk = st.openChunk ∨ (f st).openChunk = none)
    (hs : Good a → Sound s → Sound (modStream i f s)) (h : Keeps a s) : Keeps a (modStream i f s) := by
  exact ⟨h.1, h.2, h.3, h.4, h.5, h.6, h.7, h.8, h.9, h.10, h.11, h.12, h.13, h.14,
    fun b => chunks_modStream i f hf (h.15 b), fun g => hs g (h.16 g)⟩

@[simp] theorem keeps_modStream (i : StreamId) (f : Stream → Stream)
    (hf : ∀ st, (f st).openChunk = st.openChunk ∨ (f st).openChunk = none)
    (hs : ∀ st, (f st).lane = st.lane ∧ (f st).staged = st.staged ∧ ((f st).state = .closed → st.state = .closed))
    (h : Keeps a s) : Keeps a (modStream i f s) :=
  keeps_modStream_of i f hf
    (fun _ => sound_modStream i f (hs _).1 (hs _).2.1 fun e => .inl ((hs _).2.2 e)) h

theorem keeps_modCmp (f : Compressor → Compressor) (hs : Sound s → Sound (modCmp f s)) (h : Keeps a s) :
    Keeps a (modCmp f s) :=
  ⟨h.1, h.2, h.3, h.4, h.5, h.6, h.7, h.8, h.9, h.10, h.11, h.12, h.13, h.14, h.15, fun g => hs (h.16 g)⟩

@[simp] theorem keeps_modExp (f : Expander → Expander) (h : Keeps a s) : Keeps a (modExp f s) :=
  ⟨h.1, h.2, h.3, h.4, h.5, h.6, h.7, h.8, h.9, h.10, h.11, h.12, h.13, h.14, h.15, h.16⟩

theorem keeps_modPool_of (f : Pool → Pool) (hs : Good a → Sound s → Sound (modPool f s))
    (h : Keeps a s) : Keeps a (modPool f s) :=
  ⟨h.1, h.2, h.3, h.4, h.5, h.6, h.7, h.8, h.9, h.10, h.11, h.12, h.13, h.14, h.15, fun g => hs g (h.16 g)⟩

/-- A change of the read waiting list. -/
@[simp] theorem keeps_modPool (f : Pool → Pool) (hq : (f s.pool).quotas = s.pool.quotas)
    (hh : (f s.pool).held = s.pool.held) (h : Keeps a s) : Keeps a (modPool f s) :=
  keeps_modPool_of f (fun _ => sound_modPool f hq hh) h

theorem keeps_modAsm_of (n : LaneId) (f : Assembly → Assembly) (hs : Good a → Sound s → Sound (modAsm n f s))
    (h : Keeps a s) :
    Keeps a (modAsm n f s) :=
  ⟨h.1, h.2, h.3, h.4, h.5, h.6, h.7, h.8, h.9, h.10, h.11, h.12, h.13, h.14, h.15, fun g => hs g (h.16 g)⟩

/-- A change of a sealed queue. -/
@[simp] theorem keeps_modAsm (n : LaneId) (f : Assembly → Assembly) (hf : ∀ x, (f x).openBlock = x.openBlock)
    (h : Keeps a s) : Keeps a (modAsm n f s) := keeps_modAsm_of n f (fun _ => sound_modAsm_queue n f hf) h

theorem keeps_modLane_of (n : LaneId) (f : Lane → Lane)
    (hs : Good a → (f s.lanes[n]).ok s.cat.places[n]) (h : Keeps a s) : Keeps a (modLane n f s) :=
  ⟨h.1, h.2, h.3, h.4, h.5, h.6, h.7, h.8, h.9, h.10, h.11, h.12, h.13, h.14, h.15,
    fun g => sound_modLane n f (fun _ => hs g) (h.16 g)⟩

/-- A change of a lane that starts no WRITE and no STEP and leaves no hold reason outside HOLD. -/
@[simp] theorem keeps_modLane (n : LaneId) (f : Lane → Lane) (hf : ∀ l p, l.ok p → (f l).ok p) (h : Keeps a s) :
    Keeps a (modLane n f s) := keeps_modLane_of n f (fun g => hf _ _ ((h.16 g).lane n)) h

theorem keeps_modGov_of (n : LaneId) (f : Governor → Governor) (hs : Sound s → Sound (modGov n f s)) (h : Keeps a s) :
    Keeps a (modGov n f s) :=
  ⟨h.1, h.2, h.3, h.4, h.5, h.6, h.7, h.8, h.9, h.10, h.11, h.12, h.13, h.14, h.15, fun g => hs (h.16 g)⟩

/-- A change of a governor that does not raise its step. -/
@[simp] theorem keeps_modGov (n : LaneId) (f : Governor → Governor) (hf : ∀ g, (f g).step ≤ g.step) (h : Keeps a s) :
    Keeps a (modGov n f s) := keeps_modGov_of n f (sound_modGov n f fun w => (hf _).trans_lt w) h

/-- A change of the directory alone. -/
theorem Keeps.directory {t : State} (h : Keeps a s) (k : CdrOnly s t) (hs : Good a → Sound s → Sound t) : Keeps a t := by
  unfold CdrOnly at k
  rw [k] at hs ⊢
  exact ⟨h.1, h.2, h.3, h.4, h.5, h.6, h.7, h.8, h.9, h.10, h.11, h.12, h.13, h.14, h.15, fun g => hs g (h.16 g)⟩

@[simp] theorem keeps_modLdr (f : Loader → Loader) (h : Keeps a s) : Keeps a (modLdr f s) :=
  ⟨h.1, h.2, h.3, h.4, h.5, h.6, h.7, h.8, h.9, h.10, h.11, h.12, h.13, h.14, h.15, h.16⟩

theorem keeps_modCat_of (f : Catalog → Catalog) (hs : Good a → Sound s → Sound (modCat f s)) (h : Keeps a s) :
    Keeps a (modCat f s) :=
  ⟨h.1, h.2, h.3, h.4, h.5, h.6, h.7, h.8, h.9, h.10, h.11, h.12, h.13, h.14, h.15, fun g => hs g (h.16 g)⟩

/-- A change of the catalog that leaves its places and adds no entry. -/
@[simp] theorem keeps_modCat (f : Catalog → Catalog) (hp : (f s.cat).places = s.cat.places)
    (he : (f s.cat).entries.length ≤ s.cat.entries.length) (h : Keeps a s) : Keeps a (modCat f s) :=
  keeps_modCat_of f (fun _ => sound_modCat f hp he) h

@[simp] theorem keeps_modCtx (n : LaneId) (f : VerifyContext → VerifyContext) (h : Keeps a s) :
    Keeps a (modCtx n f s) :=
  ⟨h.1, h.2, h.3, h.4, h.5, h.6, h.7, h.8, h.9, h.10, h.11, h.12, h.13, h.14, h.15, h.16⟩

@[simp] theorem keeps_modActive (f : RestoreContext → RestoreContext) (h : Keeps a s) : Keeps a (modActive f s) :=
  ⟨h.1, h.2, h.3, h.4, h.5, h.6, h.7, h.8, h.9, h.10, h.11, h.12, h.13, h.14, h.15, h.16⟩

@[simp] theorem keeps_modTtu (f : Ttu → Ttu) (hf : ∀ t, (f t).time = t.time) (h : Keeps a s) : Keeps a (modTtu f s) :=
  ⟨h.1, h.2, h.3, h.4, h.5, h.6, h.7, h.8, h.9, (hf s.ttu).trans h.10, h.11, h.12, h.13, h.14, h.15, h.16⟩

/-- A change of the verify engine that does not lengthen its queue. -/
@[simp] theorem keeps_modVfy (f : Verify → Verify) (hf : (f s.vfy).queue.length ≤ s.vfy.queue.length) (h : Keeps a s) :
    Keeps a (modVfy f s) :=
  ⟨h.1, h.2, h.3, h.4, h.5, h.6, h.7, h.8, h.9, h.10, h.11, h.12, fun b => hf.trans (h.13 b), h.14, h.15, h.16⟩

/-- A change of the restore engine that does not lengthen its queue. -/
@[simp] theorem keeps_modRse (f : Restore → Restore) (hf : (f s.rse).queue.length ≤ s.rse.queue.length) (h : Keeps a s) :
    Keeps a (modRse f s) :=
  ⟨h.1, h.2, h.3, h.4, h.5, h.6, h.7, h.8, h.9, h.10, h.11, h.12, h.13, fun b => hf.trans (h.14 b), h.15, h.16⟩

/-- A mount queue that has not grown. -/
@[simp] theorem keeps_setMounts (l : List MountRequest) (hl : l.length ≤ s.mounts.length) (h : Keeps a s) :
    Keeps a (setMounts l s) :=
  ⟨h.1, h.2, h.3, h.4, h.5, h.6, h.7, h.8, h.9, h.10, h.11, fun b => hl.trans (h.12 b), h.13, h.14, h.15, h.16⟩

@[simp] theorem keeps_post (d : Due) (h : Keeps a s) : Keeps a (post d s) :=
  ⟨h.1, h.2, h.3, h.4, h.5, h.6, h.7, h.8, h.9, h.10, h.11, h.12, h.13, h.14, h.15, h.16⟩

@[simp] theorem keeps_postFirst (d : Due) (h : Keeps a s) : Keeps a (postFirst d s) :=
  ⟨h.1, h.2, h.3, h.4, h.5, h.6, h.7, h.8, h.9, h.10, h.11, h.12, h.13, h.14, h.15, h.16⟩

@[simp] theorem keeps_dropDue (d : Due) (h : Keeps a s) : Keeps a (dropDue d s) :=
  ⟨h.1, h.2, h.3, h.4, h.5, h.6, h.7, h.8, h.9, h.10, h.11, h.12, h.13, h.14, h.15, h.16⟩

@[simp] theorem keeps_takeDue (d : Due) (h : Keeps a s) : Keeps a (takeDue d s) :=
  ⟨h.1, h.2, h.3, h.4, h.5, h.6, h.7, h.8, h.9, h.10, h.11, h.12, h.13, h.14, h.15, h.16⟩

@[simp] theorem keeps_drawCount (h : Keeps a s) : Keeps a (drawCount s).2 :=
  ⟨h.1, h.2, h.3, h.4, h.5, h.6, h.7, h.8, h.9, h.10, h.11, h.12, h.13, h.14, h.15, h.16⟩

@[simp] theorem keeps_raised (n k : Nat) (h : Keeps a s) : Keeps a (raised n k s).2 := by
  unfold raised
  split
  · exact h
  · exact keeps_drawCount h

theorem keeps_forEach {α : Type} (l : List α) (f : α → State → State) (hf : ∀ x t, Keeps a t → Keeps a (f x t))
    (h : Keeps a s) : Keeps a (forEach l f s) := by
  unfold forEach
  induction l generalizing s with
  | nil => exact h
  | cons x l ih => exact ih (hf x s h)

/-! ## Notices -/

@[simp] theorem keeps_offerNotice (b : NoticeBody) (h : Keeps a s) : Keeps a (offerNotice b s) := by
  unfold offerNotice
  split
  · exact ⟨h.1, h.2, h.3, h.4, h.5, h.6, h.7, h.8, h.9, h.10, h.11, h.12, h.13, h.14, h.15, h.16⟩
  · next hn =>
    refine ⟨h.1, h.2, h.3, h.4, h.5, h.6, h.7, h.8, h.9, h.10, fun _ => ?_, h.12, h.13, h.14, h.15, h.16⟩
    simp only [modLink, List.length_append, List.length_cons, List.length_nil]
    omega

@[simp] theorem keeps_raise (k : EventKind) (q : Option Nat) {a s : State} (h : Keeps a s) : Keeps a (raise k q s) := by
  unfold raise
  all_goals simp (maxDischargeDepth := 30) [*]

@[simp] theorem keeps_checkResume (i : StreamId) {a s : State} (h : Keeps a s) : Keeps a (checkResume i s) := by
  unfold checkResume
  repeat' split
  all_goals simp (maxDischargeDepth := 30) [*]

@[simp] theorem keeps_checkAllResumes {a s : State} (h : Keeps a s) : Keeps a (checkAllResumes s) :=
  keeps_forEach _ _ (fun _ _ => keeps_checkResume _) h

@[simp] theorem keeps_checkComplete (i : StreamId) {a s : State} (h : Keeps a s) : Keeps a (checkComplete i s) := by
  unfold checkComplete
  repeat' split
  all_goals simp (maxDischargeDepth := 30) [*]

/-- Held counts that stay within the quotas, with none of the assembly regions gaining pages. -/
theorem keeps_modHeld (f : Regions → Regions) {a s : State}
    (hi : Sound s → (f s.pool.held).ingest ≤ s.pool.quotas.ingest)
    (ha : ∀ n : LaneId, (f s.pool.held).assembly[n] ≤ s.pool.held.assembly[n])
    (hr : Sound s → (f s.pool.held).read ≤ s.pool.quotas.read) (h : Keeps a s) : Keeps a (modHeld f s) :=
  keeps_modPool_of _ (fun _ w => sound_modHeld f (hi w) ha (hr w) w) h

/-- An ingest page granted where there is room (R9, R41). -/
@[simp] theorem keeps_takeIngest {a s : State} (hr : s.pool.held.ingest < s.pool.quotas.ingest) (h : Keeps a s) :
    Keeps a (takeIngest s) :=
  keeps_modHeld _ (fun _ => hr) (fun _ => Nat.le_refl _) (fun w => w.2.1.2.2) h

@[simp] theorem keeps_freeIngest (k : Nat) {a s : State} (h : Keeps a s) : Keeps a (freeIngest k s) := by
  unfold freeIngest
  split
  · exact h
  · exact keeps_checkAllResumes (keeps_modHeld _ (fun w => (Nat.sub_le _ _).trans w.2.1.1) (fun _ => Nat.le_refl _)
      (fun w => w.2.1.2.2) h)

@[simp] theorem keeps_freeAssembly (n : LaneId) {a s : State} (h : Keeps a s) : Keeps a (freeAssembly n s) := by
  refine keeps_post _ (keeps_modHeld _ (fun w => w.2.1.1) (fun m => ?_) (fun w => w.2.1.2.2) h)
  show (upd s.pool.held.assembly n (· - Config.blockPages))[m] ≤ _
  rw [upd_get]
  split
  · next e => subst e; exact Nat.sub_le _ _
  · exact Nat.le_refl _

@[simp] theorem keeps_freeRead (k : Nat) {a s : State} (h : Keeps a s) : Keeps a (freeRead k s) := by
  unfold freeRead
  split
  · exact h
  · exact keeps_post _ (keeps_modHeld _ (fun w => w.2.1.1) (fun _ => Nat.le_refl _)
      (fun w => (Nat.sub_le _ _).trans w.2.1.2.2) h)

/-- Read pages granted where they fit (R38, R43). -/
@[simp] theorem keeps_takeRead (k : Nat) {a s : State} (hr : readFits k s = true) (h : Keeps a s) :
    Keeps a (takeRead k s) :=
  keeps_modHeld _ (fun w => w.2.1.1) (fun _ => Nat.le_refl _) (fun _ => of_decide_eq_true hr) h

@[simp] theorem keeps_waitRead (c : ReadClient) (k : Nat) {a s : State} (h : Keeps a s) : Keeps a (waitRead c k s) := by
  unfold waitRead
  (try dsimp only)
  repeat' split
  all_goals simp (maxDischargeDepth := 30) [*]

@[simp] theorem keeps_withdrawRead (c : ReadClient) {a s : State} (h : Keeps a s) : Keeps a (withdrawRead c s) := by
  unfold withdrawRead
  repeat' split
  all_goals simp (maxDischargeDepth := 30) [*]

@[simp] theorem keeps_modSlot (c : ReadClient) (f : Option ExpandRequest → Option ExpandRequest) {a s : State}
    (h : Keeps a s) : Keeps a (modSlot c f s) := by
  unfold modSlot
  split
  all_goals simp [*]

@[simp] theorem keeps_offerRecord (c : ReadClient) (r : WalkedRecord) {a s : State} (h : Keeps a s) : Keeps a (offerRecord c r s) := by
  unfold offerRecord
  simp [*]

@[simp] theorem keeps_emptySlot (c : ReadClient) {a s : State} (h : Keeps a s) : Keeps a (emptySlot c s) := by
  unfold emptySlot
  repeat' split
  all_goals simp (maxDischargeDepth := 30) [*]

@[simp] theorem keeps_surrenderPages (c : ReadClient) (k : Nat) {a s : State} (h : Keeps a s) :
    Keeps a (surrenderPages c k s) := by
  unfold surrenderPages
  repeat' split
  all_goals simp (maxDischargeDepth := 30) [*]

@[simp] theorem keeps_abandonPages (c : ReadClient) (k : Nat) {a s : State} (h : Keeps a s) :
    Keeps a (abandonPages c k s) := by
  unfold abandonPages
  simp [*]

theorem keeps_modRecord_of (i : CartId) (f : Cart → Cart) {a s : State}
    (hf : ∀ c, recordAt i s = some c → (f c).location = c.location ∧ (c.ok → (f c).ok)) (h : Keeps a s) :
    Keeps a (modRecord i f s) := h.directory rfl fun _ => sound_modRecord i f hf

/-- A change of a record that leaves its location and its ranges. -/
@[simp] theorem keeps_modRecord (i : CartId) (f : Cart → Cart) {a s : State}
    (hf : ∀ c, (f c).location = c.location ∧ (c.ok → (f c).ok)) (h : Keeps a s) : Keeps a (modRecord i f s) :=
  keeps_modRecord_of i f (fun c _ => hf c) h

theorem cdrOnly_moveRecord (i : CartId) (l : Location) (s : State) : CdrOnly s (moveRecord i l s) :=
  ((cdrOnly_displaceOther i l s).trans (cdrOnly_clearPlace i _)).trans
    ((show CdrOnly _ (modRecord i (fun c => { c with location := l }) _) from rfl).trans (cdrOnly_setPlace _ _ _))

theorem cdrOnly_putRecord (i : CartId) (c : Cart) (s : State) : CdrOnly s (putRecord i c s) :=
  (cdrOnly_clearPlace i s).trans ((show CdrOnly _ (modCdr _ _) from rfl).trans (cdrOnly_setPlace _ _ _))

theorem cdrOnly_dropRecord (i : CartId) (s : State) : CdrOnly s (dropRecord i s) := (cdrOnly_clearPlace i s).trans rfl

/-- A record moves, where there is one. -/
@[simp] theorem keeps_moveRecord (i : CartId) (l : Location) {a s : State} (hi : Good a → (recordAt i s).isSome = true)
    (h : Keeps a s) : Keeps a (moveRecord i l s) :=
  h.directory (cdrOnly_moveRecord i l s) fun g => sound_moveRecord i l (hi g)

/-- A record is written at an index, its location free for it. -/
theorem keeps_putRecord (i : CartId) (c : Cart) {a s : State} (hk : c.ok)
    (hl : Good a → ∀ j, namedAt c.location s = some j → j = i) (h : Keeps a s) : Keeps a (putRecord i c s) :=
  h.directory (cdrOnly_putRecord i c s) fun g => sound_putRecord i c hk (hl g)

@[simp] theorem keeps_dropRecord (i : CartId) {a s : State} (h : Keeps a s) : Keeps a (dropRecord i s) :=
  h.directory (cdrOnly_dropRecord i s) fun _ => sound_dropRecord i

@[simp] theorem keeps_setNeedsLocate (n : LaneId) (b : Bool) {a s : State} (h : Keeps a s) : Keeps a (setNeedsLocate n b s) := by
  unfold setNeedsLocate
  repeat' split
  all_goals simp (maxDischargeDepth := 30) [*]

@[simp] theorem keeps_askPick (p : Fin 8) {a s : State} (h : Keeps a s) : Keeps a (askPick p s) := by
  unfold askPick
  repeat' split
  all_goals simp (maxDischargeDepth := 30) [*]

@[simp] theorem keeps_askPickFor (i : CartId) {a s : State} (h : Keeps a s) : Keeps a (askPickFor i s) := by
  unfold askPickFor
  repeat' split
  all_goals simp (maxDischargeDepth := 30) [*]

@[simp] theorem keeps_writeTestFor (i : CartId) {a s : State} (h : Keeps a s) : Keeps a (writeTestFor i s) := by
  have hf : ∀ (l : List LaneId) t, Keeps a t → Keeps a (forEach l (fun n s => if s.lanes[n].mounted = some i then postFirst (.writeStart n) s else s) t) := by
    intro l t ht
    refine keeps_forEach l _ (fun x u hu => ?_) ht
    try dsimp only
    split <;> simp [hu]
  unfold writeTestFor
  exact hf _ _ h

@[simp] theorem keeps_roomReport  {a s : State} (h : Keeps a s) : Keeps a (roomReport s) := by
  have hf : ∀ (l : List LaneId) t, Keeps a t → Keeps a (forEach l (fun n s => if s.lanes[n].holdReason = some .catalogFull then post (.catalogHold n) s else s) t) := by
    intro l t ht
    refine keeps_forEach l _ (fun x u hu => ?_) ht
    try dsimp only
    split <;> simp [hu]
  unfold roomReport
  split
  · exact hf _ _ h
  · exact h

/-- A place given up with no WRITE in flight. -/
@[simp] theorem keeps_releasePlace (n : LaneId) {a s : State} (hw : Calm a n s) (h : Keeps a s) :
    Keeps a (releasePlace n s) := by
  unfold releasePlace
  split
  · next hp =>
    refine keeps_roomReport (keeps_modCat_of (fun c => { c with places := upd c.places n fun _ => false })
      (fun g w => sound_setPlaceOf n false _ rfl (fun _ => hw g) ?_ w) h)
    have := w.2.2.2.2.2.1
    unfold Catalog.ok at this
    rw [if_pos hp]
    simp only [Bool.false_eq_true, if_false]
    omega
  · exact h

@[simp] theorem keeps_askPlace (n : LaneId) {a s : State} (h : Keeps a s) : Keeps a (askPlace n s).2 := by
  unfold askPlace
  repeat' split
  · exact h
  · next hp hr =>
    refine keeps_modCat_of (fun c => { c with places := upd c.places n fun _ => true, fullReported := false })
      (fun _ w => sound_setPlaceOf n true _ rfl (fun e => by cases e) ?_ w) h
    unfold freeRoom placesHeld at hr
    rw [if_neg hp]
    simp only [if_true]
    omega
  · exact h
  · exact keeps_modCat (fun c => { c with fullReported := true }) rfl (Nat.le_refl _) (keeps_offerNotice _ h)

/-- An entry takes the place held for it (R134). -/
theorem keeps_insertEntry (n : LaneId) (i : CartId) (label : List Byte) (block : Nat) (runs : List Run) {a s : State}
    (hp : Good a → s.cat.places[n] = true) (hw : Calm a n s) (h : Keeps a s) :
    Keeps a (insertEntry n i label block runs s) := by
  unfold insertEntry
  dsimp only
  have k : ∀ e : CatEntry, Keeps a (modCat (fun c => { c with
      entries := c.entries ++ [e], nextSerial := c.nextSerial + 1, places := upd c.places n fun _ => false }) s) := by
    intro e
    refine keeps_modCat_of _ (fun g w => sound_setPlaceOf n false _ rfl (fun _ => hw g) ?_ w) h
    have := w.2.2.2.2.2.1
    unfold Catalog.ok at this
    rw [if_pos (hp g)]
    simp only [Bool.false_eq_true, if_false, List.length_append, List.length_cons, List.length_nil]
    omega
  split
  · exact keeps_offerNotice _ (k _)
  · exact k _

/-- A removal from the catalog. -/
theorem keeps_keepEntries (keep : List CatEntry → List CatEntry) {a s : State} (hk : ∀ l, (keep l).length ≤ l.length)
    (h : Keeps a s) : Keeps a (keepEntries keep s) := by
  have k : Keeps a (modCat (fun c => { c with entries := keep c.entries }) s) := keeps_modCat _ rfl (hk _) h
  unfold keepEntries
  dsimp only
  split
  · exact keeps_roomReport k
  · exact k

@[simp] theorem keeps_removeEntries (i : CartId) (b : Nat) {a s : State} (h : Keeps a s) : Keeps a (removeEntries i b s) :=
  keeps_keepEntries _ (fun _ => List.length_filter_le _ _) h

@[simp] theorem keeps_markEntry (i : CartId) (b : Nat) (st : BlockStatus) {a s : State} (h : Keeps a s) : Keeps a (markEntry i b st s) := by
  unfold markEntry
  all_goals simp (maxDischargeDepth := 30) [*]

/-- A request that joins the mount queue where there is room. -/
@[simp] theorem keeps_enqueueMount (m : MountRequest) {a s : State} (hr : s.mounts.length < Config.mountRoom)
    (h : Keeps a s) : Keeps a (enqueueMount m s) := by
  unfold enqueueMount
  refine keeps_post _ ⟨h.1, h.2, h.3, h.4, h.5, h.6, h.7, h.8, h.9, h.10, h.11, fun _ => ?_, h.13, h.14, h.15, h.16⟩
  simp only [setMounts, List.length_append, List.length_cons, List.length_nil]
  omega

@[simp] theorem keeps_offerMount (i : CartId) (target : MountTarget) (cls : MountClass) (r : Requester) (tag : Nat)
    (fill : Option LaneId) {a s : State} (h : Keeps a s) : Keeps a (offerMount i target cls r tag fill s).2 := by
  unfold offerMount
  split
  · exact keeps_setMounts _ (by simp) h
  · split
    · exact h
    · exact keeps_enqueueMount _ (by omega) h

@[simp] theorem keeps_mountRoomNotice  {a s : State} (h : Keeps a s) : Keeps a (mountRoomNotice s) := by
  have hf : ∀ (l : List LaneId) t, Keeps a t → Keeps a (forEach l (fun n s => if s.lanes[n].pickNoRoom = true then post (.scratchPick n) s else s) t) := by
    intro l t ht
    refine keeps_forEach l _ (fun x u hu => ?_) ht
    try dsimp only
    split <;> simp [hu]
  unfold mountRoomNotice
  exact keeps_post _ (keeps_post _ (hf _ _ h))

@[simp] theorem keeps_pickScratch (n : LaneId) {a s : State} (h : Keeps a s) : Keeps a (pickScratch n s) := by
  unfold pickScratch
  (try dsimp only)
  repeat' split
  all_goals simp (maxDischargeDepth := 30) [*]

end Sys2Proof.Machine
end

