-- ==== Sys2Proof/Laws/KeepsLanes.lean ====
section
/-! SUPPORT. Laws/KeepsLanes.lean: lanes and verify passes keep the link, the queue of commands and the tables. -/

namespace Sys2Proof.Machine

@[simp] theorem keeps_laneReport (n : LaneId) {a s : State} (h : Keeps a s) : Keeps a (laneReport n s) := by
  unfold laneReport
  all_goals simp (maxDischargeDepth := 30) [*]

@[simp] theorem keeps_startWindow (n : LaneId) {a s : State} (h : Keeps a s) : Keeps a (startWindow n s) := by
  unfold startWindow
  all_goals simp (maxDischargeDepth := 30) [*]

@[simp] theorem keeps_windowTimer (n : LaneId) (old new : LaneState) {a s : State} (h : Keeps a s) : Keeps a (windowTimer n old new s) := by
  unfold windowTimer
  repeat' split
  all_goals simp (maxDischargeDepth := 30) [*]

/-- A lane leaves WRITING with neither WRITE nor STEP in flight. -/
@[simp] theorem keeps_setLaneState (n : LaneId) (st : LaneState) {a s : State} (hw : st = .writing ∨ Calm a n s)
    (h : Keeps a s) : Keeps a (setLaneState n st s) := by
  refine keeps_laneReport n (keeps_windowTimer n _ _ (keeps_modLane_of n _ (fun g => ?_) h))
  refine ⟨fun e => hw.elim id fun w => ?_, ((h.16 g).lane n).2.1, fun e => by cases e⟩
  exact absurd (e.symm.trans (w g)) (by decide)

@[simp] theorem keeps_becomeReady (n : LaneId) {a s : State} (hw : Calm a n s) (h : Keeps a s) :
    Keeps a (becomeReady n s) := keeps_postFirst _ (keeps_setLaneState n _ (.inr hw) h)

/-- A command that is neither WRITE nor STEP. -/
@[simp] theorem keeps_sendCommand (n : LaneId) (c : DriveCommand) {a s : State} (hc : c.ofWriting = false)
    (h : Keeps a s) : Keeps a (sendCommand n c s) := by
  refine keeps_modLane_of n _ (fun g => ?_) h
  refine ⟨fun e => absurd (hc.symm.trans e) (by decide), fun e => ?_, ((h.16 g).lane n).2.2⟩
  cases c <;> first | (cases hc; done) | cases e

/-- WRITE, or STEP before it, sent by a WRITING lane that holds its place. -/
theorem keeps_sendWriting (n : LaneId) (c : DriveCommand) {a s : State}
    (hs : Good a → s.lanes[n].state = .writing ∧ s.cat.places[n] = true) (h : Keeps a s) :
    Keeps a (sendCommand n c s) :=
  keeps_modLane_of n _ (fun g => ⟨fun _ => (hs g).1, fun _ => (hs g).2, ((h.16 g).lane n).2.2⟩) h

@[simp] theorem calm_sendCommand (n : LaneId) (c : DriveCommand) {a s : State} (hc : c.ofWriting = false) :
    Calm a n (sendCommand n c s) := fun _ => by
  unfold writing sendCommand
  rw [show (modLane n _ s).lanes[n] = _ from upd_same _ _ _]
  exact hc

@[simp] theorem keeps_sendThread (n : LaneId) {a s : State} (h : Keeps a s) : Keeps a (sendThread n s) := by
  unfold sendThread
  all_goals simp (maxDischargeDepth := 30) [*]

@[simp] theorem keeps_grantRestore (n : LaneId) {a s : State} (hw : Calm a n s) (h : Keeps a s) :
    Keeps a (grantRestore n s) := by
  unfold grantRestore
  (try dsimp only)
  repeat' split
  all_goals simp (maxDischargeDepth := 30) [*]

@[simp] theorem keeps_enterHold (n : LaneId) (r : HoldReason) {a s : State} (hw : Calm a n s) (h : Keeps a s) :
    Keeps a (enterHold n r s) := by
  have k : Keeps a (setLaneState n .hold s) := keeps_setLaneState n .hold (.inr hw) h
  refine keeps_raise _ _ (keeps_modLane_of n _ (fun g => ?_) k)
  obtain ⟨x, y, -⟩ := (k.16 g).lane n
  exact ⟨x, y, fun _ => setLaneState_state n .hold s⟩

/-- A WRITING lane that holds its place sends the head of its queue, or STEP before it. -/
theorem keeps_sendBlock (n : LaneId) {a s : State}
    (hs : Good a → s.lanes[n].state = .writing ∧ s.cat.places[n] = true) (h : Keeps a s) : Keeps a (sendBlock n s) := by
  unfold sendBlock
  repeat' split
  · exact h
  · refine keeps_sendWriting n _ (fun g => ⟨?_, (hs g).2⟩) (keeps_modLane n _ (by simp) h)
    show (upd s.lanes n _)[n].state = _
    rw [upd_same]; exact (hs g).1
  · exact keeps_sendWriting n _ hs h

@[simp] theorem keeps_sendHead (n : LaneId) {a s : State} (hs : Good a → s.lanes[n].state = .writing) (hw : Calm a n s)
    (h : Keeps a s) : Keeps a (sendHead n s) := by
  unfold sendHead
  dsimp only
  split
  · exact keeps_grantRestore n hw h
  · split
    · next e =>
      exact keeps_sendBlock n (fun g => ⟨by rw [askPlace_lanes]; exact hs g, askPlace_held n s e⟩) (keeps_askPlace n h)
    · exact keeps_enterHold n _ (by simpa using hw) (keeps_askPlace n h)

@[simp] theorem keeps_enterWriting (n : LaneId) {a s : State} (hw : Calm a n s) (h : Keeps a s) :
    Keeps a (enterWriting n s) :=
  keeps_sendHead n (fun _ => setLaneState_state n .writing s) (by simpa using hw)
    (keeps_setLaneState n .writing (.inl rfl) h)

@[simp] theorem keeps_startWriting (n : LaneId) {a s : State} (hw : Calm a n s) (h : Keeps a s) :
    Keeps a (startWriting n s) := by
  unfold startWriting
  repeat' split
  all_goals simp (maxDischargeDepth := 30) [*]

@[simp] theorem keeps_writeStart (n : LaneId) {a s : State} (h : Keeps a s) : Keeps a (writeStart n s) := by
  unfold writeStart
  split
  · next e => exact keeps_startWriting n (fun g => (h.16 g).idle n (by rw [writeStarts_ready n s e]; decide)) h
  · exact h

@[simp] theorem keeps_holdResume (n : LaneId) {a s : State} (h : Keeps a s) : Keeps a (holdResume n s) := by
  unfold holdResume
  split
  · next e => exact keeps_startWriting n (fun g => (h.16 g).idle n (by rw [(h.16 g).holds n _ e.1]; decide)) h
  · exact h

@[simp] theorem keeps_catalogResume (n : LaneId) {a s : State} (h : Keeps a s) : Keeps a (catalogResume n s) := by
  unfold catalogResume
  dsimp only
  repeat' split
  · next e _ =>
    refine keeps_startWriting n ((calm_askPlace n).2 fun g => ?_) (keeps_askPlace n h)
    exact (h.16 g).idle n (by rw [(h.16 g).holds n _ e]; decide)
  · exact keeps_askPlace n h
  · exact h

@[simp] theorem keeps_laneRead (n : LaneId) (b : Nat) {a s : State} (h : Keeps a s) : Keeps a (laneRead n b s) := by
  unfold laneRead
  (try dsimp only)
  repeat' split
  all_goals simp (maxDischargeDepth := 30) [*]

@[simp] theorem keeps_requestNotice (r : VerifyRequest) (res : VerifyResult) {a s : State} (h : Keeps a s) : Keeps a (requestNotice r res s) := by
  unfold requestNotice
  all_goals simp (maxDischargeDepth := 30) [*]

@[simp] theorem keeps_passNotice (n : LaneId) (c : VerifyContext) (res : VerifyResult) {a s : State} (h : Keeps a s) : Keeps a (passNotice n c res s) := by
  unfold passNotice
  all_goals simp (maxDischargeDepth := 30) [*]

@[simp] theorem keeps_withdrawLaneRead (n : LaneId) {a s : State} (h : Keeps a s) : Keeps a (withdrawLaneRead n s) := by
  unfold withdrawLaneRead
  repeat' split
  all_goals simp (maxDischargeDepth := 30) [*]

@[simp] theorem keeps_withdrawPass (n : LaneId) {a s : State} (h : Keeps a s) : Keeps a (withdrawPass n s) := by
  unfold withdrawPass
  (try dsimp only)
  repeat' split
  all_goals simp (maxDischargeDepth := 30) [*]

@[simp] theorem keeps_endPass (n : LaneId) (res : VerifyResult) {a s : State} (h : Keeps a s) : Keeps a (endPass n res s) := by
  unfold endPass
  (try dsimp only)
  repeat' split
  all_goals simp (maxDischargeDepth := 30) [*]

@[simp] theorem keeps_sendEject (n : LaneId) {a s : State} (h : Keeps a s) : Keeps a (sendEject n s) := by
  unfold sendEject
  all_goals simp (maxDischargeDepth := 30) [*]

@[simp] theorem keeps_doRelease (n : LaneId) {a s : State} (hw : Calm a n s) (h : Keeps a s) : Keeps a (doRelease n s) := by
  unfold doRelease
  (try dsimp only)
  repeat' split
  all_goals simp (maxDischargeDepth := 30) [*]

theorem calm_idle {a s : State} {n : LaneId} (h : ¬ s.lanes[n].command.isSome = true) : Calm a n s := fun _ => by
  unfold writing
  cases e : s.lanes[n].command with
  | none => rfl
  | some f => rw [e] at h; exact absurd rfl h

@[simp] theorem keeps_releaseLane (n : LaneId) {a s : State} (h : Keeps a s) : Keeps a (releaseLane n s) := by
  unfold releaseLane
  split
  · exact keeps_modLane n _ (by simp) h
  · next e => exact keeps_doRelease n (calm_idle e) h

@[simp] theorem keeps_finishRelease (n : LaneId) {a s : State} (hw : Calm a n s) (h : Keeps a s) :
    Keeps a (finishRelease n s) := by
  unfold finishRelease
  repeat' split
  all_goals simp (maxDischargeDepth := 30) [*]

@[simp] theorem keeps_passRead (n : LaneId) {a s : State} (h : Keeps a s) : Keeps a (passRead n s) := by
  unfold passRead
  all_goals simp (maxDischargeDepth := 30) [*]

@[simp] theorem keeps_passPages (n : LaneId) {a s : State} (h : Keeps a s) : Keeps a (passPages n s) := by
  unfold passPages
  (try dsimp only)
  repeat' split
  all_goals simp (maxDischargeDepth := 30) [*]

@[simp] theorem keeps_raiseVerified (c : VerifyContext) {a s : State} (h : Keeps a s) : Keeps a (raiseVerified c s) := by
  unfold raiseVerified
  repeat' split
  · exact h
  · exact keeps_modRecord _ _ (fun r => ⟨rfl, fun w => ⟨w.1, Nat.min_le_left _ _, w.2.2⟩⟩) h
  · exact h

@[simp] theorem keeps_completePass (n : LaneId) {a s : State} (h : Keeps a s) : Keeps a (completePass n s) := by
  unfold completePass
  (try dsimp only)
  repeat' split
  all_goals simp (maxDischargeDepth := 30) [*]

@[simp] theorem keeps_passAdvance (n : LaneId) {a s : State} (h : Keeps a s) : Keeps a (passAdvance n s) := by
  unfold passAdvance
  (try dsimp only)
  repeat' split
  all_goals simp (maxDischargeDepth := 30) [*]

@[simp] theorem keeps_blockDone (n : LaneId) {a s : State} (h : Keeps a s) : Keeps a (blockDone n s) := by
  unfold blockDone
  (try dsimp only)
  repeat' split
  all_goals simp (maxDischargeDepth := 30) [*]

@[simp] theorem keeps_passRecords (n : LaneId) {a s : State} (h : Keeps a s) : Keeps a (passRecords n s) := by
  unfold passRecords
  repeat' split
  all_goals simp (maxDischargeDepth := 30) [*]

@[simp] theorem keeps_passBlock (n : LaneId) (read : Option (List Byte)) {a s : State} (h : Keeps a s) : Keeps a (passBlock n read s) := by
  unfold passBlock
  (try dsimp only)
  repeat' split
  all_goals simp (maxDischargeDepth := 30) [*]

@[simp] theorem keeps_passOutcome (n : LaneId) (o : Expanded) {a s : State} (h : Keeps a s) : Keeps a (passOutcome n o s) := by
  unfold passOutcome
  (try dsimp only)
  repeat' split
  all_goals simp (maxDischargeDepth := 30) [*]

@[simp] theorem keeps_suspendPass (n : LaneId) (cause : SuspendCause) {a s : State} (h : Keeps a s) : Keeps a (suspendPass n cause s) := by
  unfold suspendPass
  (try dsimp only)
  repeat' split
  all_goals simp (maxDischargeDepth := 30) [*]

@[simp] theorem keeps_grantVerify (n : LaneId) {a s : State} (hw : Calm a n s) (h : Keeps a s) :
    Keeps a (grantVerify n s) := by
  unfold grantVerify
  (try dsimp only)
  repeat' split
  all_goals simp (maxDischargeDepth := 30) [*]

@[simp] theorem keeps_resumePass (n : LaneId) {a s : State} (hw : Calm a n s) (h : Keeps a s) :
    Keeps a (resumePass n s) := by
  unfold resumePass
  (try dsimp only)
  repeat' split
  all_goals simp (maxDischargeDepth := 30) [*]

/-- A verify claim is granted in READY and HOLD only (R73). -/
theorem calm_grants {n : LaneId} {a s : State} (h : Keeps a s) (hv : verifyGrants n s = true) : Calm a n s := fun g => by
  refine (h.16 g).idle n fun e => ?_
  unfold verifyGrants at hv
  rw [e] at hv
  split at hv <;> simp at hv

@[simp] theorem keeps_autoResume (n : LaneId) {a s : State} (h : Keeps a s) : Keeps a (autoResume n s) := by
  unfold autoResume
  dsimp only
  split
  · next e => exact keeps_resumePass n (calm_grants h e.2.2) h
  · exact h

@[simp] theorem keeps_startPass (n : LaneId) (r : VerifyRequest) {a s : State} (h : Keeps a s) : Keeps a (startPass n r s) := by
  unfold startPass
  (try dsimp only)
  repeat' split
  all_goals simp (maxDischargeDepth := 30) [*, List.length_erase_le]

@[simp] theorem keeps_verifyMount (r : VerifyRequest) {a s : State} (h : Keeps a s) : Keeps a (verifyMount r s) := by
  unfold verifyMount
  (try dsimp only)
  repeat' split
  all_goals simp (maxDischargeDepth := 30) [*]

@[simp] theorem keeps_testRequest (r : VerifyRequest) (used : List LaneId) {a s : State} (h : Keeps a s) :
    Keeps a (testRequest r used s).2 := by
  unfold testRequest
  split
  · exact keeps_requestNotice r _ (keeps_modVfy _ List.length_erase_le h)
  · split
    · exact h
    · split
      · split
        · next e => exact keeps_startPass _ r (keeps_grantVerify _ (calm_grants h e.2.1) h)
        · exact h
      · exact keeps_verifyMount r h

@[simp] theorem keeps_testRequests (l : List VerifyRequest) (used : List LaneId) {a s : State} (h : Keeps a s) :
    Keeps a (testRequests l used s) := by
  induction l generalizing used s with
  | nil => exact h
  | cons r l ih => exact ih _ (keeps_testRequest r used h)

@[simp] theorem keeps_verifyStart {a s : State} (h : Keeps a s) : Keeps a (verifyStart s) := keeps_testRequests _ _ h

@[simp] theorem keeps_verifyPlanEnded (i : Option CartId) (failure : Option PlanReason) {a s : State} (h : Keeps a s) : Keeps a (verifyPlanEnded i failure s) := by
  unfold verifyPlanEnded
  (try dsimp only)
  repeat' split
  all_goals simp (maxDischargeDepth := 30) [*, List.length_erase_le]

end Sys2Proof.Machine
end

