-- ==== Sys2Proof/Laws/Quiet.lean ====
section
/-! SUPPORT. Laws/Quiet.lean: the work of lanes, verify passes and the restore leaves the compressor and its room alone, and
starts no WRITE. -/

namespace Sys2Proof.Machine

/-- From `a` to `s` the compressor, the quotas and the streams' lanes, states and staged counts have not changed, no
assembly region has gained pages, and no WRITE or STEP has been sent. -/
structure Quiet (a s : State) : Prop where
  cmp : s.cmp = a.cmp
  quotas : s.pool.quotas = a.pool.quotas
  assembly : ∀ n : LaneId, s.pool.held.assembly[n] ≤ a.pool.held.assembly[n]
  streams : ∀ i : StreamId, s.streams[i].lane = a.streams[i].lane ∧ s.streams[i].state = a.streams[i].state ∧
    s.streams[i].staged = a.streams[i].staged
  calm : ∀ n, writing n s = true → writing n a = true

theorem Quiet.refl (s : State) : Quiet s s := ⟨rfl, rfl, fun _ => Nat.le_refl _, fun _ => ⟨rfl, rfl, rfl⟩, fun _ => id⟩

theorem Quiet.trans {a b c : State} (h : Quiet a b) (k : Quiet b c) : Quiet a c :=
  ⟨k.1.trans h.1, k.2.trans h.2, fun n => (k.3 n).trans (h.3 n),
    fun i => ⟨(k.4 i).1.trans (h.4 i).1, (k.4 i).2.1.trans (h.4 i).2.1, (k.4 i).2.2.trans (h.4 i).2.2⟩,
    fun n w => h.5 n (k.5 n w)⟩

/-- Room for a new block stays. -/
theorem Quiet.newRoom {a s : State} (h : Quiet a s) (n : LaneId) (hr : newRoom n a = true) : newRoom n s = true := by
  refine decide_eq_true ?_
  rw [h.quotas]
  exact (Nat.add_le_add_right (h.assembly n) _).trans (of_decide_eq_true hr)

/-- No WRITE has been sent since. -/
theorem Quiet.stillCalm {a b c : State} {n : LaneId} (h : Quiet b c) (hw : Calm a n b) : Calm a n c := fun g => by
  cases e : writing n c with
  | false => rfl
  | true => exact absurd ((hw g).symm.trans (h.5 n e)) (by decide)

variable {a s : State}

@[simp] theorem quiet_modStream (i : StreamId) (f : Stream → Stream)
    (hf : ∀ st, (f st).lane = st.lane ∧ (f st).state = st.state ∧ (f st).staged = st.staged) (h : Quiet a s) :
    Quiet a (modStream i f s) :=
  ⟨h.1, h.2, h.3, fun j => ⟨(upd_figure _ _ _ _ Stream.lane (hf _).1).trans (h.4 j).1,
    (upd_figure _ _ _ _ Stream.state (hf _).2.1).trans (h.4 j).2.1,
    (upd_figure _ _ _ _ Stream.staged (hf _).2.2).trans (h.4 j).2.2⟩, h.5⟩

@[simp] theorem quiet_modPool (f : Pool → Pool) (hq : (f s.pool).quotas = s.pool.quotas)
    (hh : (f s.pool).held = s.pool.held) (h : Quiet a s) : Quiet a (modPool f s) :=
  ⟨h.1, hq.trans h.2, fun n => by show (f s.pool).held.assembly[n] ≤ _; rw [hh]; exact h.3 n, h.4, h.5⟩

theorem quiet_modHeld (f : Regions → Regions) (ha : ∀ n : LaneId, (f s.pool.held).assembly[n] ≤ s.pool.held.assembly[n])
    (h : Quiet a s) : Quiet a (modHeld f s) := ⟨h.1, h.2, fun n => (ha n).trans (h.3 n), h.4, h.5⟩

@[simp] theorem quiet_modLane (n : LaneId) (f : Lane → Lane) (hf : ∀ l, (f l).command = l.command ∨ (f l).command = none)
    (h : Quiet a s) : Quiet a (modLane n f s) := by
  refine ⟨h.1, h.2, h.3, h.4, fun m hm => h.5 m ?_⟩
  unfold writing at hm ⊢
  by_cases e : m = n
  · subst e
    rw [show (modLane m f s).lanes[m] = _ from upd_same _ _ _] at hm
    rcases hf s.lanes[m] with e | e <;> rw [e] at hm
    · exact hm
    · cases hm
  · rw [show (modLane n f s).lanes[m] = _ from upd_other _ _ _ _ e] at hm
    exact hm

@[simp] theorem quiet_modLink (f : Link → Link) (h : Quiet a s) : Quiet a (modLink f s) := ⟨h.1, h.2, h.3, h.4, h.5⟩

@[simp] theorem quiet_modExp (f : Expander → Expander) (h : Quiet a s) : Quiet a (modExp f s) := ⟨h.1, h.2, h.3, h.4, h.5⟩

@[simp] theorem quiet_modCdr (f : Directory → Directory) (h : Quiet a s) : Quiet a (modCdr f s) := ⟨h.1, h.2, h.3, h.4, h.5⟩

@[simp] theorem quiet_modLdr (f : Loader → Loader) (h : Quiet a s) : Quiet a (modLdr f s) := ⟨h.1, h.2, h.3, h.4, h.5⟩

@[simp] theorem quiet_modCat (f : Catalog → Catalog) (h : Quiet a s) : Quiet a (modCat f s) := ⟨h.1, h.2, h.3, h.4, h.5⟩

@[simp] theorem quiet_modVfy (f : Verify → Verify) (h : Quiet a s) : Quiet a (modVfy f s) := ⟨h.1, h.2, h.3, h.4, h.5⟩

@[simp] theorem quiet_modRse (f : Restore → Restore) (h : Quiet a s) : Quiet a (modRse f s) := ⟨h.1, h.2, h.3, h.4, h.5⟩

@[simp] theorem quiet_modActive (f : RestoreContext → RestoreContext) (h : Quiet a s) : Quiet a (modActive f s) := ⟨h.1, h.2, h.3, h.4, h.5⟩

@[simp] theorem quiet_modAsm (n : LaneId) (f : Assembly → Assembly) (h : Quiet a s) : Quiet a (modAsm n f s) :=
  ⟨h.1, h.2, h.3, h.4, h.5⟩

@[simp] theorem quiet_modGov (n : LaneId) (f : Governor → Governor) (h : Quiet a s) : Quiet a (modGov n f s) :=
  ⟨h.1, h.2, h.3, h.4, h.5⟩

@[simp] theorem quiet_modCtx (n : LaneId) (f : VerifyContext → VerifyContext) (h : Quiet a s) : Quiet a (modCtx n f s) :=
  ⟨h.1, h.2, h.3, h.4, h.5⟩

@[simp] theorem quiet_setMounts (l : List MountRequest) (h : Quiet a s) : Quiet a (setMounts l s) :=
  ⟨h.1, h.2, h.3, h.4, h.5⟩

@[simp] theorem quiet_post (d : Due) (h : Quiet a s) : Quiet a (post d s) := ⟨h.1, h.2, h.3, h.4, h.5⟩

@[simp] theorem quiet_postFirst (d : Due) (h : Quiet a s) : Quiet a (postFirst d s) := ⟨h.1, h.2, h.3, h.4, h.5⟩

@[simp] theorem quiet_drawCount (h : Quiet a s) : Quiet a (drawCount s).2 := ⟨h.1, h.2, h.3, h.4, h.5⟩

@[simp] theorem quiet_offerNotice (b : NoticeBody) (h : Quiet a s) : Quiet a (offerNotice b s) := by
  unfold offerNotice
  split <;> simp [h]

theorem quiet_forEach {α : Type} (l : List α) (f : α → State → State) (hf : ∀ x t, Quiet a t → Quiet a (f x t))
    (h : Quiet a s) : Quiet a (forEach l f s) := by
  unfold forEach
  induction l generalizing s with
  | nil => exact h
  | cons x l ih => exact ih (hf x s h)

@[simp] theorem quiet_freeIngest (k : Nat) (h : Quiet a s) : Quiet a (freeIngest k s) := by
  unfold freeIngest
  split
  · exact h
  · refine quiet_forEach _ _ (fun i t ht => ?_) (quiet_modHeld _ (fun _ => Nat.le_refl _) h)
    unfold checkResume
    split <;> simp [ht]

@[simp] theorem quiet_raise (k : EventKind) (q : Option Nat) {a s : State} (h : Quiet a s) : Quiet a (raise k q s) := quiet_post _ h

@[simp] theorem quiet_checkResume (i : StreamId) {a s : State} (h : Quiet a s) : Quiet a (checkResume i s) := by
  unfold checkResume
  repeat' split
  all_goals simp (maxDischargeDepth := 30) [*]

@[simp] theorem quiet_checkAllResumes {a s : State} (h : Quiet a s) : Quiet a (checkAllResumes s) :=
  quiet_forEach _ _ (fun _ _ => quiet_checkResume _) h

@[simp] theorem quiet_checkComplete (i : StreamId) {a s : State} (h : Quiet a s) : Quiet a (checkComplete i s) := by
  unfold checkComplete
  repeat' split
  all_goals simp (maxDischargeDepth := 30) [*]

@[simp] theorem quiet_freeRead (k : Nat) {a s : State} (h : Quiet a s) : Quiet a (freeRead k s) := by
  unfold freeRead
  split
  · exact h
  · exact quiet_post _ (quiet_modHeld _ (fun _ => Nat.le_refl _) h)

@[simp] theorem quiet_takeRead (k : Nat) {a s : State} (h : Quiet a s) : Quiet a (takeRead k s) :=
  quiet_modHeld _ (fun _ => Nat.le_refl _) h

@[simp] theorem quiet_waitRead (c : ReadClient) (k : Nat) {a s : State} (h : Quiet a s) : Quiet a (waitRead c k s) := by
  unfold waitRead
  (try dsimp only)
  repeat' split
  all_goals simp (maxDischargeDepth := 30) [*]

@[simp] theorem quiet_withdrawRead (c : ReadClient) {a s : State} (h : Quiet a s) : Quiet a (withdrawRead c s) := by
  unfold withdrawRead
  repeat' split
  all_goals simp (maxDischargeDepth := 30) [*]

@[simp] theorem quiet_modSlot (c : ReadClient) (f : Option ExpandRequest → Option ExpandRequest) {a s : State}
    (h : Quiet a s) : Quiet a (modSlot c f s) := by
  unfold modSlot
  split
  all_goals simp [*]

@[simp] theorem quiet_offerRecord (c : ReadClient) (r : WalkedRecord) {a s : State} (h : Quiet a s) : Quiet a (offerRecord c r s) := by
  unfold offerRecord
  simp [*]

@[simp] theorem quiet_emptySlot (c : ReadClient) {a s : State} (h : Quiet a s) : Quiet a (emptySlot c s) := by
  unfold emptySlot
  repeat' split
  all_goals simp (maxDischargeDepth := 30) [*]

@[simp] theorem quiet_surrenderPages (c : ReadClient) (k : Nat) {a s : State} (h : Quiet a s) :
    Quiet a (surrenderPages c k s) := by
  unfold surrenderPages
  repeat' split
  all_goals simp (maxDischargeDepth := 30) [*]

@[simp] theorem quiet_abandonPages (c : ReadClient) (k : Nat) {a s : State} (h : Quiet a s) :
    Quiet a (abandonPages c k s) := by
  unfold abandonPages
  simp [*]

@[simp] theorem quiet_modRecord (i : CartId) (f : Cart → Cart) {a s : State} (h : Quiet a s) : Quiet a (modRecord i f s) :=
  ⟨h.1, h.2, h.3, h.4, h.5⟩

@[simp] theorem quiet_setNeedsLocate (n : LaneId) (b : Bool) {a s : State} (h : Quiet a s) : Quiet a (setNeedsLocate n b s) := by
  unfold setNeedsLocate
  repeat' split
  all_goals simp (maxDischargeDepth := 30) [*]

@[simp] theorem quiet_roomReport  {a s : State} (h : Quiet a s) : Quiet a (roomReport s) := by
  have hf : ∀ (l : List LaneId) t, Quiet a t → Quiet a (forEach l (fun n s => if s.lanes[n].holdReason = some .catalogFull then post (.catalogHold n) s else s) t) := by
    intro l t ht
    refine quiet_forEach l _ (fun x u hu => ?_) ht
    try dsimp only
    split <;> simp [hu]
  unfold roomReport
  split
  · exact hf _ _ h
  · exact h

@[simp] theorem quiet_releasePlace (n : LaneId) {a s : State} (h : Quiet a s) : Quiet a (releasePlace n s) := by
  unfold releasePlace
  repeat' split
  all_goals simp (maxDischargeDepth := 30) [*]

@[simp] theorem quiet_enqueueMount (m : MountRequest) {a s : State} (h : Quiet a s) : Quiet a (enqueueMount m s) :=
  quiet_post _ (quiet_setMounts _ h)

@[simp] theorem quiet_offerMount (i : CartId) (target : MountTarget) (cls : MountClass) (r : Requester) (tag : Nat)
    (fill : Option LaneId) {a s : State} (h : Quiet a s) : Quiet a (offerMount i target cls r tag fill s).2 := by
  unfold offerMount
  repeat' split
  all_goals simp [h]

@[simp] theorem quiet_markEntry (i : CartId) (b : Nat) (st : BlockStatus) {a s : State} (h : Quiet a s) : Quiet a (markEntry i b st s) := by
  unfold markEntry
  all_goals simp (maxDischargeDepth := 30) [*]

@[simp] theorem quiet_raised (n k : Nat) (h : Quiet a s) : Quiet a (raised n k s).2 := by
  unfold raised
  split
  · exact h
  · exact quiet_drawCount h

@[simp] theorem quiet_laneReport (n : LaneId) {a s : State} (h : Quiet a s) : Quiet a (laneReport n s) := by
  unfold laneReport
  all_goals simp (maxDischargeDepth := 30) [*]

@[simp] theorem quiet_startWindow (n : LaneId) {a s : State} (h : Quiet a s) : Quiet a (startWindow n s) := by
  unfold startWindow
  all_goals simp (maxDischargeDepth := 30) [*]

@[simp] theorem quiet_windowTimer (n : LaneId) (old new : LaneState) {a s : State} (h : Quiet a s) : Quiet a (windowTimer n old new s) := by
  unfold windowTimer
  repeat' split
  all_goals simp (maxDischargeDepth := 30) [*]

@[simp] theorem quiet_setLaneState (n : LaneId) (st : LaneState) {a s : State} (h : Quiet a s) : Quiet a (setLaneState n st s) := by
  unfold setLaneState
  all_goals simp (maxDischargeDepth := 30) [*]

@[simp] theorem quiet_becomeReady (n : LaneId) {a s : State} (h : Quiet a s) : Quiet a (becomeReady n s) := by
  unfold becomeReady
  all_goals simp (maxDischargeDepth := 30) [*]

@[simp] theorem quiet_sendCommand (n : LaneId) (c : DriveCommand) {a s : State} (hc : c.ofWriting = false)
    (h : Quiet a s) : Quiet a (sendCommand n c s) := by
  refine ⟨h.1, h.2, h.3, h.4, fun m hm => ?_⟩
  by_cases e : m = n
  · subst e
    unfold writing sendCommand at hm
    rw [show (modLane m _ s).lanes[m] = _ from upd_same _ _ _] at hm
    exact absurd (hc.symm.trans hm) (by decide)
  · refine h.5 m ?_
    unfold writing sendCommand at hm
    rw [show (modLane n _ s).lanes[m] = _ from upd_other _ _ _ _ e] at hm
    exact hm

@[simp] theorem quiet_grantRestore (n : LaneId) {a s : State} (h : Quiet a s) : Quiet a (grantRestore n s) := by
  unfold grantRestore
  (try dsimp only)
  repeat' split
  all_goals simp (maxDischargeDepth := 30) [*]

@[simp] theorem quiet_laneRead (n : LaneId) (b : Nat) {a s : State} (h : Quiet a s) : Quiet a (laneRead n b s) := by
  unfold laneRead
  (try dsimp only)
  repeat' split
  all_goals simp (maxDischargeDepth := 30) [*]

@[simp] theorem quiet_requestNotice (r : VerifyRequest) (res : VerifyResult) {a s : State} (h : Quiet a s) : Quiet a (requestNotice r res s) := by
  unfold requestNotice
  all_goals simp (maxDischargeDepth := 30) [*]

@[simp] theorem quiet_passNotice (n : LaneId) (c : VerifyContext) (res : VerifyResult) {a s : State} (h : Quiet a s) : Quiet a (passNotice n c res s) := by
  unfold passNotice
  all_goals simp (maxDischargeDepth := 30) [*]

@[simp] theorem quiet_withdrawLaneRead (n : LaneId) {a s : State} (h : Quiet a s) : Quiet a (withdrawLaneRead n s) := by
  unfold withdrawLaneRead
  repeat' split
  all_goals simp (maxDischargeDepth := 30) [*]

@[simp] theorem quiet_withdrawPass (n : LaneId) {a s : State} (h : Quiet a s) : Quiet a (withdrawPass n s) := by
  unfold withdrawPass
  (try dsimp only)
  repeat' split
  all_goals simp (maxDischargeDepth := 30) [*]

@[simp] theorem quiet_endPass (n : LaneId) (res : VerifyResult) {a s : State} (h : Quiet a s) : Quiet a (endPass n res s) := by
  unfold endPass
  (try dsimp only)
  repeat' split
  all_goals simp (maxDischargeDepth := 30) [*]

@[simp] theorem quiet_sendEject (n : LaneId) {a s : State} (h : Quiet a s) : Quiet a (sendEject n s) := by
  unfold sendEject
  all_goals simp (maxDischargeDepth := 30) [*]

@[simp] theorem quiet_doRelease (n : LaneId) {a s : State} (h : Quiet a s) : Quiet a (doRelease n s) := by
  unfold doRelease
  (try dsimp only)
  repeat' split
  all_goals simp (maxDischargeDepth := 30) [*]

@[simp] theorem quiet_releaseLane (n : LaneId) {a s : State} (h : Quiet a s) : Quiet a (releaseLane n s) := by
  unfold releaseLane
  repeat' split
  all_goals simp (maxDischargeDepth := 30) [*]

@[simp] theorem quiet_finishRelease (n : LaneId) {a s : State} (h : Quiet a s) : Quiet a (finishRelease n s) := by
  unfold finishRelease
  repeat' split
  all_goals simp (maxDischargeDepth := 30) [*]

@[simp] theorem quiet_passRead (n : LaneId) {a s : State} (h : Quiet a s) : Quiet a (passRead n s) := by
  unfold passRead
  all_goals simp (maxDischargeDepth := 30) [*]

@[simp] theorem quiet_passPages (n : LaneId) {a s : State} (h : Quiet a s) : Quiet a (passPages n s) := by
  unfold passPages
  (try dsimp only)
  repeat' split
  all_goals simp (maxDischargeDepth := 30) [*]

@[simp] theorem quiet_raiseVerified (c : VerifyContext) {a s : State} (h : Quiet a s) : Quiet a (raiseVerified c s) := by
  unfold raiseVerified
  repeat' split
  all_goals simp (maxDischargeDepth := 30) [*]

@[simp] theorem quiet_completePass (n : LaneId) {a s : State} (h : Quiet a s) : Quiet a (completePass n s) := by
  unfold completePass
  (try dsimp only)
  repeat' split
  all_goals simp (maxDischargeDepth := 30) [*]

@[simp] theorem quiet_passAdvance (n : LaneId) {a s : State} (h : Quiet a s) : Quiet a (passAdvance n s) := by
  unfold passAdvance
  (try dsimp only)
  repeat' split
  all_goals simp (maxDischargeDepth := 30) [*]

@[simp] theorem quiet_blockDone (n : LaneId) {a s : State} (h : Quiet a s) : Quiet a (blockDone n s) := by
  unfold blockDone
  (try dsimp only)
  repeat' split
  all_goals simp (maxDischargeDepth := 30) [*]

@[simp] theorem quiet_passRecords (n : LaneId) {a s : State} (h : Quiet a s) : Quiet a (passRecords n s) := by
  unfold passRecords
  repeat' split
  all_goals simp (maxDischargeDepth := 30) [*]

@[simp] theorem quiet_passBlock (n : LaneId) (read : Option (List Byte)) {a s : State} (h : Quiet a s) : Quiet a (passBlock n read s) := by
  unfold passBlock
  (try dsimp only)
  repeat' split
  all_goals simp (maxDischargeDepth := 30) [*]

@[simp] theorem quiet_suspendPass (n : LaneId) (cause : SuspendCause) {a s : State} (h : Quiet a s) : Quiet a (suspendPass n cause s) := by
  unfold suspendPass
  (try dsimp only)
  repeat' split
  all_goals simp (maxDischargeDepth := 30) [*]

@[simp] theorem quiet_writeClaim (n : LaneId) {a s : State} (h : Quiet a s) : Quiet a (writeClaim n s) := by
  unfold writeClaim
  (try dsimp only)
  repeat' split
  all_goals simp (maxDischargeDepth := 30) [*]

@[simp] theorem quiet_sealOpen (n : LaneId) (c : SealCause) {a s : State} (h : Quiet a s) : Quiet a (sealOpen n c s) := by
  unfold sealOpen
  (try dsimp only)
  repeat' split
  all_goals simp (maxDischargeDepth := 30) [*]

@[simp] theorem quiet_countInflow (n : LaneId) (k : Nat) {a s : State} (h : Quiet a s) : Quiet a (countInflow n k s) := by
  unfold countInflow
  all_goals simp (maxDischargeDepth := 30) [*]

@[simp] theorem quiet_commitRun (i : CartId) (b : Nat) (r : Run) {a s : State} (h : Quiet a s) : Quiet a (commitRun i b r s) := by
  unfold commitRun
  (try dsimp only)
  all_goals simp (maxDischargeDepth := 30) [*]

@[simp] theorem quiet_commitRecord (i : CartId) {a s : State} (h : Quiet a s) : Quiet a (commitRecord i s) := by
  unfold commitRecord
  (try dsimp only)
  repeat' split
  all_goals simp (maxDischargeDepth := 30) [*]

@[simp] theorem quiet_insertEntry (n : LaneId) (i : CartId) (label : List Byte) (block : Nat) (runs : List Run) {a s : State} (h : Quiet a s) : Quiet a (insertEntry n i label block runs s) := by
  unfold insertEntry
  (try dsimp only)
  repeat' split
  all_goals simp (maxDischargeDepth := 30) [*]

@[simp] theorem quiet_reportEmpty (n : LaneId) {a s : State} (h : Quiet a s) : Quiet a (reportEmpty n s) := by
  unfold reportEmpty
  repeat' split
  all_goals simp (maxDischargeDepth := 30) [*]

@[simp] theorem quiet_countDelivered (n : LaneId) {a s : State} (h : Quiet a s) : Quiet a (countDelivered n s) := by
  unfold countDelivered
  (try dsimp only)
  all_goals simp (maxDischargeDepth := 30) [*]

@[simp] theorem quiet_freeAssembly (n : LaneId) {a s : State} (h : Quiet a s) : Quiet a (freeAssembly n s) := by
  refine quiet_post _ (quiet_modHeld _ (fun m => ?_) h)
  show (upd s.pool.held.assembly n (· - Config.blockPages))[m] ≤ _
  rw [upd_get]
  split
  · next e => subst e; exact Nat.sub_le _ _
  · exact Nat.le_refl _

@[simp] theorem quiet_commitHead (n : LaneId) (b : Nat) {a s : State} (h : Quiet a s) : Quiet a (commitHead n b s) := by
  have hf : ∀ (i : CartId) (l : List Run) t, Quiet a t → Quiet a (forEach l (commitRun i b) t) :=
    fun i l _ ht => quiet_forEach l _ (fun r _ => quiet_commitRun i b r) ht
  unfold commitHead
  repeat' split
  all_goals simp (maxDischargeDepth := 30) [h, hf]

@[simp] theorem quiet_earlyWarning (n : LaneId) (flag : Bool) {a s : State} (h : Quiet a s) : Quiet a (earlyWarning n flag s) := by
  unfold earlyWarning
  repeat' split
  all_goals simp (maxDischargeDepth := 30) [*]

@[simp] theorem quiet_pendRestore (n : LaneId) {a s : State} (h : Quiet a s) : Quiet a (pendRestore n s) := by
  unfold pendRestore
  all_goals simp (maxDischargeDepth := 30) [*]

@[simp] theorem quiet_claimRestore (n : LaneId) {a s : State} (h : Quiet a s) : Quiet a (claimRestore n s) := by
  unfold claimRestore
  repeat' split
  all_goals simp (maxDischargeDepth := 30) [*]

@[simp] theorem quiet_restoreNotice (c : RestoreContext) (r : RestoreResult) {a s : State} (h : Quiet a s) : Quiet a (restoreNotice c r s) := by
  unfold restoreNotice
  all_goals simp (maxDischargeDepth := 30) [*]

@[simp] theorem quiet_leaveLane (n : LaneId) {a s : State} (h : Quiet a s) : Quiet a (leaveLane n s) := by
  unfold leaveLane
  repeat' split
  all_goals simp (maxDischargeDepth := 30) [*]

@[simp] theorem quiet_finishRestore (r : RestoreResult) {a s : State} (h : Quiet a s) : Quiet a (finishRestore r s) := by
  unfold finishRestore
  (try dsimp only)
  repeat' split
  all_goals simp (maxDischargeDepth := 30) [*]

@[simp] theorem quiet_completeRestore  {a s : State} (h : Quiet a s) : Quiet a (completeRestore s) := by
  unfold completeRestore
  repeat' split
  all_goals simp (maxDischargeDepth := 30) [*]

@[simp] theorem quiet_giveUp (ends : Bool) {a s : State} (h : Quiet a s) : Quiet a (giveUp ends s) := by
  unfold giveUp
  (try dsimp only)
  repeat' split
  all_goals simp (maxDischargeDepth := 30) [*]

@[simp] theorem quiet_restoreLaneFault  {a s : State} (h : Quiet a s) : Quiet a (restoreLaneFault s) := by
  unfold restoreLaneFault
  (try dsimp only)
  repeat' split
  all_goals simp (maxDischargeDepth := 30) [*]

@[simp] theorem quiet_restoreRead {a s : State} (h : Quiet a s) : Quiet a (restoreRead s) := by
  unfold restoreRead
  (try dsimp only)
  repeat' split
  all_goals simp (maxDischargeDepth := 30) [*]

@[simp] theorem quiet_startRead {a s : State} (h : Quiet a s) : Quiet a (startRead s) := by
  unfold startRead
  (try dsimp only)
  repeat' split
  all_goals simp (maxDischargeDepth := 30) [*]

@[simp] theorem quiet_sendDamaged (cause : SegmentCause) {a s : State} (h : Quiet a s) : Quiet a (sendDamaged cause s) := by
  unfold sendDamaged
  all_goals simp (maxDischargeDepth := 30) [*]

@[simp] theorem quiet_startDamage (upTo : Nat) (cause : SegmentCause) (after : AfterDamage) {a s : State} (h : Quiet a s) : Quiet a (startDamage upTo cause after s) := by
  unfold startDamage
  all_goals simp (maxDischargeDepth := 30) [*]

@[simp] theorem quiet_restoreMount  {a s : State} (h : Quiet a s) : Quiet a (restoreMount s) := by
  unfold restoreMount
  (try dsimp only)
  repeat' split
  all_goals simp (maxDischargeDepth := 30) [*]

@[simp] theorem quiet_restoreClaim (n : LaneId) {a s : State} (h : Quiet a s) : Quiet a (restoreClaim n s) := by
  unfold restoreClaim
  (try dsimp only)
  repeat' split
  all_goals simp (maxDischargeDepth := 30) [*]

@[simp] theorem quiet_reach  {a s : State} (h : Quiet a s) : Quiet a (reach s) := by
  unfold reach
  (try dsimp only)
  repeat' split
  all_goals simp (maxDischargeDepth := 30) [*]

@[simp] theorem quiet_restNotFound  {a s : State} (h : Quiet a s) : Quiet a (restNotFound s) := by
  unfold restNotFound
  (try dsimp only)
  repeat' split
  all_goals simp (maxDischargeDepth := 30) [*]

@[simp] theorem quiet_findNext  {a s : State} (h : Quiet a s) : Quiet a (findNext s) := by
  unfold findNext
  (try dsimp only)
  repeat' split
  all_goals simp (maxDischargeDepth := 30) [*]

@[simp] theorem quiet_afterBlock  {a s : State} (h : Quiet a s) : Quiet a (afterBlock s) := by
  unfold afterBlock
  repeat' split
  all_goals simp (maxDischargeDepth := 30) [*]

@[simp] theorem quiet_freeBlock {a s : State} (h : Quiet a s) : Quiet a (freeBlock s) := by
  unfold freeBlock
  repeat' split
  all_goals simp [*]

@[simp] theorem quiet_blockEnd  {a s : State} (h : Quiet a s) : Quiet a (blockEnd s) := by
  unfold blockEnd
  (try dsimp only)
  repeat' split
  all_goals simp (maxDischargeDepth := 30) [*]

@[simp] theorem quiet_restoreOffer  {a s : State} (h : Quiet a s) : Quiet a (restoreOffer s) := by
  unfold restoreOffer
  repeat' split
  all_goals simp (maxDischargeDepth := 30) [*]

@[simp] theorem quiet_restoreRecords  {a s : State} (h : Quiet a s) : Quiet a (restoreRecords s) := by
  unfold restoreRecords
  (try dsimp only)
  repeat' split
  all_goals simp (maxDischargeDepth := 30) [*]

@[simp] theorem quiet_restoreBlock (read : Option (List Byte)) {a s : State} (h : Quiet a s) : Quiet a (restoreBlock read s) := by
  unfold restoreBlock
  (try dsimp only)
  repeat' split
  all_goals simp (maxDischargeDepth := 30) [*]

end Sys2Proof.Machine
end

