-- ==== Sys2Proof/Laws/Unreserved.lean ====
section
/-! SUPPORT. Laws/Unreserved.lean: what a completion does before the compressor becomes IDLE (R22) it would do alike with
the compressor IDLE already. -/

namespace Sys2Proof.Machine

/-- The state with its compressor IDLE. -/
def unreserved (s : State) : State := modCmp (fun c => { c with engine := none }) s

variable (s : State)

@[simp] theorem unreserved_streams : (unreserved s).streams = s.streams := rfl
@[simp] theorem unreserved_pool : (unreserved s).pool = s.pool := rfl
@[simp] theorem unreserved_exp : (unreserved s).exp = s.exp := rfl
@[simp] theorem unreserved_asm : (unreserved s).asm = s.asm := rfl
@[simp] theorem unreserved_lanes : (unreserved s).lanes = s.lanes := rfl
@[simp] theorem unreserved_gov : (unreserved s).gov = s.gov := rfl
@[simp] theorem unreserved_cdr : (unreserved s).cdr = s.cdr := rfl
@[simp] theorem unreserved_cat : (unreserved s).cat = s.cat := rfl
@[simp] theorem unreserved_vfy : (unreserved s).vfy = s.vfy := rfl
@[simp] theorem unreserved_ttu : (unreserved s).ttu = s.ttu := rfl
@[simp] theorem unreserved_settings : (unreserved s).settings = s.settings := rfl

theorem unreserved_ite (c : Prop) [Decidable c] (a b : State) :
    unreserved (if c then a else b) = if c then unreserved a else unreserved b := apply_ite _ _ _ _

@[simp] theorem modLane_unreserved (n : LaneId) (f : Lane → Lane) :
    modLane n f (unreserved s) = unreserved (modLane n f s) := rfl
@[simp] theorem modGov_unreserved (n : LaneId) (f : Governor → Governor) :
    modGov n f (unreserved s) = unreserved (modGov n f s) := rfl
@[simp] theorem modAsm_unreserved (n : LaneId) (f : Assembly → Assembly) :
    modAsm n f (unreserved s) = unreserved (modAsm n f s) := rfl
@[simp] theorem modCtx_unreserved (n : LaneId) (f : VerifyContext → VerifyContext) :
    modCtx n f (unreserved s) = unreserved (modCtx n f s) := rfl
@[simp] theorem modHeld_unreserved (f : Regions → Regions) : modHeld f (unreserved s) = unreserved (modHeld f s) := rfl
@[simp] theorem modPool_unreserved (f : Pool → Pool) : modPool f (unreserved s) = unreserved (modPool f s) := rfl
@[simp] theorem modCat_unreserved (f : Catalog → Catalog) : modCat f (unreserved s) = unreserved (modCat f s) := rfl
@[simp] theorem modRecord_unreserved (i : CartId) (f : Cart → Cart) :
    modRecord i f (unreserved s) = unreserved (modRecord i f s) := rfl
@[simp] theorem modStream_unreserved (i : StreamId) (f : Stream → Stream) :
    modStream i f (unreserved s) = unreserved (modStream i f s) := rfl
@[simp] theorem post_unreserved (d : Due) : post d (unreserved s) = unreserved (post d s) := rfl
@[simp] theorem postFirst_unreserved (d : Due) : postFirst d (unreserved s) = unreserved (postFirst d s) := rfl
@[simp] theorem laneReport_unreserved (n : LaneId) : laneReport n (unreserved s) = unreserved (laneReport n s) := rfl
@[simp] theorem startWindow_unreserved (n : LaneId) : startWindow n (unreserved s) = unreserved (startWindow n s) := rfl
@[simp] theorem sendCommand_unreserved (n : LaneId) (c : DriveCommand) :
    sendCommand n c (unreserved s) = unreserved (sendCommand n c s) := rfl
@[simp] theorem countInflow_unreserved (n : LaneId) (k : Nat) :
    countInflow n k (unreserved s) = unreserved (countInflow n k s) := rfl
@[simp] theorem openWith_unreserved (n : LaneId) (r : Record) :
    openWith n r (unreserved s) = unreserved (openWith n r s) := rfl

theorem forEach_unreserved {α : Type} (l : List α) (f : α → State → State)
    (hf : ∀ x t, f x (unreserved t) = unreserved (f x t)) :
    forEach l f (unreserved s) = unreserved (forEach l f s) := by
  unfold forEach
  induction l generalizing s with
  | nil => rfl
  | cons x l ih => simp only [List.foldl_cons, hf, ih]

@[simp] theorem windowTimer_unreserved (n : LaneId) (old new : LaneState) :
    windowTimer n old new (unreserved s) = unreserved (windowTimer n old new s) := by
  unfold windowTimer
  cases new <;> simp [unreserved_ite]

@[simp] theorem setLaneState_unreserved (n : LaneId) (st : LaneState) :
    setLaneState n st (unreserved s) = unreserved (setLaneState n st s) := by
  simp [setLaneState]

@[simp] theorem setNeedsLocate_unreserved (n : LaneId) (b : Bool) :
    setNeedsLocate n b (unreserved s) = unreserved (setNeedsLocate n b s) := by
  simp only [setNeedsLocate, unreserved_lanes]
  generalize s.lanes[n].mounted = m
  cases m <;> rfl

@[simp] theorem roomReport_unreserved : roomReport (unreserved s) = unreserved (roomReport s) := by
  have := forEach_unreserved s allLanes (fun n s => if s.lanes[n].holdReason = some .catalogFull then post (.catalogHold n) s else s)
    (fun _ _ => by rw [unreserved_ite]; rfl)
  unfold roomReport
  rw [unreserved_ite, ← this]
  rfl

@[simp] theorem releasePlace_unreserved (n : LaneId) :
    releasePlace n (unreserved s) = unreserved (releasePlace n s) := by
  simp [releasePlace, unreserved_ite]

@[simp] theorem grantRestore_unreserved (n : LaneId) :
    grantRestore n (unreserved s) = unreserved (grantRestore n s) := by
  simp [grantRestore, unreserved_ite]

@[simp] theorem freeRead_unreserved (k : Nat) : freeRead k (unreserved s) = unreserved (freeRead k s) := by
  simp [freeRead, unreserved_ite]

@[simp] theorem withdrawRead_unreserved (c : ReadClient) :
    withdrawRead c (unreserved s) = unreserved (withdrawRead c s) := by
  simp [withdrawRead, unreserved_ite]

@[simp] theorem modExp_unreserved (f : Expander → Expander) : modExp f (unreserved s) = unreserved (modExp f s) := rfl

@[simp] theorem offerNotice_unreserved (b : NoticeBody) :
    offerNotice b (unreserved s) = unreserved (offerNotice b s) := by
  rw [offerNotice, offerNotice, unreserved_ite]
  rfl

@[simp] theorem modSlot_unreserved (c : ReadClient) (f : Option ExpandRequest → Option ExpandRequest) :
    modSlot c f (unreserved s) = unreserved (modSlot c f s) := by
  cases c <;> rfl

@[simp] theorem emptySlot_unreserved (c : ReadClient) : emptySlot c (unreserved s) = unreserved (emptySlot c s) := by
  unfold emptySlot
  rw [show clientSlot c (unreserved s) = clientSlot c s by cases c <;> rfl]
  split <;> simp

@[simp] theorem surrenderPages_unreserved (c : ReadClient) (k : Nat) :
    surrenderPages c k (unreserved s) = unreserved (surrenderPages c k s) := by
  unfold surrenderPages
  rw [show expanding c (unreserved s) = expanding c s from rfl, show awaiting c (unreserved s) = awaiting c s by cases c <;> rfl]
  simp [unreserved_ite]

@[simp] theorem withdrawPass_unreserved (n : LaneId) :
    withdrawPass n (unreserved s) = unreserved (withdrawPass n s) := by
  have k : withdrawLaneRead n (unreserved s) = unreserved (withdrawLaneRead n s) := by
    simp only [withdrawLaneRead, unreserved_lanes, modLane_unreserved, unreserved_ite]
    rfl
  simp only [withdrawPass, abandonPages, unreserved_vfy]
  generalize s.vfy.contexts[n].stage = g
  cases g <;> simp [k]

@[simp] theorem endPass_unreserved (n : LaneId) (res : VerifyResult) :
    endPass n res (unreserved s) = unreserved (endPass n res s) := by
  simp [endPass, passNotice, unreserved_ite]

@[simp] theorem sendEject_unreserved (n : LaneId) : sendEject n (unreserved s) = unreserved (sendEject n s) := by
  simp [sendEject]

@[simp] theorem becomeReady_unreserved (n : LaneId) : becomeReady n (unreserved s) = unreserved (becomeReady n s) := by
  simp [becomeReady]

@[simp] theorem doRelease_unreserved (n : LaneId) : doRelease n (unreserved s) = unreserved (doRelease n s) := by
  simp only [doRelease, modLane_unreserved, unreserved_lanes, grantRestore_unreserved, sendEject_unreserved,
    becomeReady_unreserved, unreserved_ite]

@[simp] theorem releaseLane_unreserved (n : LaneId) : releaseLane n (unreserved s) = unreserved (releaseLane n s) := by
  simp [releaseLane, unreserved_ite]

@[simp] theorem suspendPass_unreserved (n : LaneId) (c : SuspendCause) :
    suspendPass n c (unreserved s) = unreserved (suspendPass n c s) := by
  simp only [suspendPass, unreserved_vfy, modCtx_unreserved, releaseLane_unreserved, withdrawRead_unreserved,
    freeRead_unreserved]
  generalize s.vfy.contexts[n].state = x
  generalize s.vfy.contexts[n].stage = y
  cases x <;> cases y <;> first | rfl | exact (unreserved_ite _ _ _).symm

@[simp] theorem writeClaim_unreserved (n : LaneId) : writeClaim n (unreserved s) = unreserved (writeClaim n s) := by
  simp only [writeClaim, unreserved_lanes, unreserved_asm, unreserved_ite, modLane_unreserved, laneReport_unreserved,
    suspendPass_unreserved]
  rfl

@[simp] theorem sealOpen_unreserved (n : LaneId) (c : SealCause) :
    sealOpen n c (unreserved s) = unreserved (sealOpen n c s) := by
  simp only [sealOpen, unreserved_asm]
  generalize s.asm[n].openBlock = b
  cases b <;> simp

@[simp] theorem deferredSeal_unreserved (n : LaneId) :
    deferredSeal n (unreserved s) = unreserved (deferredSeal n s) := by
  simp only [deferredSeal, unreserved_asm, sealOpen_unreserved]
  generalize s.asm[n].openBlock = b
  cases b with
  | none => rfl
  | some b => generalize hd : b.deferred = d; cases d <;> simp only [hd]

@[simp] theorem placeRecord_unreserved (n : LaneId) (r : Record) :
    placeRecord n r (unreserved s) = unreserved (placeRecord n r s) := by
  simp only [placeRecord, unreserved_asm, openWith_unreserved, sealOpen_unreserved, modAsm_unreserved]
  generalize s.asm[n].openBlock = b
  cases b <;> simp only [← unreserved_ite, countInflow_unreserved, sealOpen_unreserved]

@[simp] theorem freeIngest_unreserved (k : Nat) : freeIngest k (unreserved s) = unreserved (freeIngest k s) := by
  have := fun t => forEach_unreserved t allStreams checkResume
    (fun i u => by rw [checkResume, checkResume, unreserved_ite]; rfl)
  simp [freeIngest, checkAllResumes, unreserved_ite, this]
end Sys2Proof.Machine
end

