-- ==== Sys2Proof/Laws/KeepsAssembly.lean ====
section
/-! SUPPORT. Laws/KeepsAssembly.lean: assembly, restore and faults keep the link, the queue of commands and the tables. -/

namespace Sys2Proof.Machine

@[simp] theorem keeps_writeClaim (n : LaneId) {a s : State} (h : Keeps a s) : Keeps a (writeClaim n s) := by
  unfold writeClaim
  (try dsimp only)
  repeat' split
  all_goals simp (maxDischargeDepth := 30) [*]

/-- A seal of an open block that is not reserved. -/
theorem keeps_sealOpen (n : LaneId) (cause : SealCause) {a s : State} (hr : Good a → reservedOpen n s = false)
    (h : Keeps a s) : Keeps a (sealOpen n cause s) := by
  unfold sealOpen
  split
  · exact h
  · refine keeps_postFirst _ (keeps_postFirst _ (keeps_writeClaim n (keeps_post _ (keeps_modAsm_of n _ (fun g => ?_) h))))
    exact sound_modAsm n _ fun e => absurd (e.symm.trans (hr g)) (by decide)

@[simp] theorem keeps_askSeal (n : LaneId) (cause : SealCause) {a s : State} (h : Keeps a s) : Keeps a (askSeal n cause s) := by
  unfold askSeal
  dsimp only
  split
  · refine keeps_modAsm_of n _ (fun _ => sound_modAsm n _ fun _ i hi => ?_) h
    unfold openRoom at hi ⊢
    rw [show ∀ f, (modAsm n f s).asm[n] = f s.asm[n] from fun f => upd_same _ _ _]
    dsimp only
    cases hb : s.asm[n].openBlock with
    | none => rw [hb] at hi; cases hi
    | some b => rw [hb] at hi; exact hi
  · next e => exact keeps_sealOpen n cause (fun _ => by simpa using e) h

theorem keeps_deferredSeal (n : LaneId) {a s : State} (hr : Good a → reservedOpen n s = false) (h : Keeps a s) :
    Keeps a (deferredSeal n s) := by
  unfold deferredSeal
  repeat' split
  all_goals first | exact h | exact keeps_sealOpen n _ hr h

/-- A block's pages are taken where the region has room, with the compressor IDLE (R39, R47). -/
theorem keeps_takeAssembly (n : LaneId) {a s : State} (he : Good a → s.cmp.engine = none)
    (hr : Good a → newRoom n s = true) (h : Keeps a s) : Keeps a (takeAssembly n s) := by
  unfold takeAssembly modHeld
  refine keeps_modPool_of _ (fun g w => ?_) h
  obtain ⟨q, p, e, -, rest⟩ := w
  refine ⟨q, ⟨p.1, fun m => ?_, p.2.2⟩, e, fun t ht => ?_, rest⟩
  · show (upd s.pool.held.assembly n (· + Config.blockPages))[m] ≤ s.pool.quotas.assembly[m]
    rw [upd_get]
    split
    · next e => subst e; exact of_decide_eq_true (hr g)
    · exact p.2.1 m
  · have ht : s.cmp.engine = some t := ht
    rw [he g] at ht; cases ht

/-- A new block where the region has room, with the compressor IDLE. -/
theorem keeps_openWith (n : LaneId) (r : Record) {a s : State} (he : Good a → s.cmp.engine = none)
    (hr : Good a → newRoom n s = true) (h : Keeps a s) : Keeps a (openWith n r s) := by
  refine keeps_modAsm_of n _ (fun g => sound_modAsm n _ fun e => ?_) (keeps_takeAssembly n he hr h)
  have he : (takeAssembly n s).cmp.engine = none := he g
  unfold reservedOpen at e
  rw [he] at e; cases e

@[simp] theorem keeps_countInflow (n : LaneId) (k : Nat) {a s : State} (h : Keeps a s) : Keeps a (countInflow n k s) := by
  unfold countInflow
  all_goals simp (maxDischargeDepth := 30) [*]

/-- A record that fits its lane's open block, or finds room for a new one, is placed with the compressor IDLE. -/
theorem keeps_placeRecord (n : LaneId) (r : Record) {a s : State} (he : Good a → s.cmp.engine = none)
    (hr : Good a → newRoom n s = true ∨
      ∃ b, s.asm[n].openBlock = some b ∧ b.fitsSize r = true ∧ b.fitsStream r = true) (h : Keeps a s) :
    Keeps a (placeRecord n r s) := by
  have idle : ∀ t : State, t.cmp = s.cmp → Good a → ∀ m, reservedOpen m t = false := fun t ht g m => by
    unfold reservedOpen
    rw [ht, he g]
  have sealed : ∀ c, Keeps a (sealOpen n c s) := fun c => keeps_sealOpen n c (fun g => idle s rfl g n) h
  have fresh : ∀ c, (Good a → newRoom n s = true) → Keeps a (openWith n r (sealOpen n c s)) := fun c hn =>
    keeps_openWith n r (fun g => by rw [(quiet_sealOpen n c (Quiet.refl s)).cmp]; exact he g)
      (fun g => (quiet_sealOpen n c (Quiet.refl s)).newRoom n (hn g)) (sealed c)
  have placed : ∀ t : State, t.cmp = s.cmp → Keeps a t →
      Keeps a (if r.mark = .none then countInflow n r.size t else sealOpen n .mark (countInflow n r.size t)) := by
    intro t ht k
    split
    · exact keeps_countInflow n _ k
    · exact keeps_sealOpen n _ (fun g => idle _ ht g n) (keeps_countInflow n _ k)
  unfold placeRecord
  refine placed _ ?_ ?_
  · repeat' split
    all_goals first | rfl | exact (quiet_sealOpen n _ (Quiet.refl s)).cmp
  split
  · next hb =>
    refine keeps_openWith n r he (fun g => (hr g).resolve_right fun ⟨b, e, _⟩ => ?_) h
    rw [hb] at e; cases e
  · next b hb =>
    have one : ∀ g, newRoom n s = true ∨ b.fitsSize r = true ∧ b.fitsStream r = true := fun g =>
      (hr g).imp id fun ⟨b', e, x⟩ => by rw [hb] at e; cases e; exact x
    split
    · next e => exact fresh _ fun g => (one g).resolve_right fun x => by rw [e] at x; cases x.1
    · split
      · next e => exact fresh _ fun g => (one g).resolve_right fun x => by rw [e] at x; cases x.2
      · refine keeps_modAsm_of n _ (fun g => sound_modAsm n _ fun e => ?_) h
        exact absurd (e.symm.trans (idle s rfl g n)) (by decide)

@[simp] theorem keeps_compressorTake  {a s : State} (h : Keeps a s) : Keeps a (compressorTake s) := by
  have e : compressorTake s = modCmp (fun _ => (compressorTake s).cmp) s := by
    unfold compressorTake
    repeat' split
    all_goals rfl
  rw [e]
  exact keeps_modCmp _ (fun w => e ▸ sound_compressorTake w) h

@[simp] theorem methodCounts_kept (e : Entry) (m : Method) (st : Stream) :
    (methodCounts e m st).lane = st.lane ∧ (methodCounts e m st).state = st.state := by
  unfold methodCounts
  repeat' split
  all_goals exact ⟨rfl, rfl⟩

@[simp] theorem methodCounts_openChunk (e : Entry) (m : Method) (st : Stream) :
    (methodCounts e m st).openChunk = st.openChunk := by
  unfold methodCounts
  repeat' split
  all_goals rfl

/-- A record of an entry has the entry's stream, and at most the largest size (R30). -/
theorem formRecord_size (e : Entry) (p : Bool) (h : ∀ b, e.raw = some b → b.length ≤ Config.pageBytes) :
    (formRecord e p).stream = e.stream ∧ (formRecord e p).size ≤ Config.largestRecord := by
  unfold formRecord
  cases hr : e.raw with
  | none => exact ⟨rfl, show 16 + 0 ≤ 4112 by decide⟩
  | some b =>
    have := h b hr
    dsimp only
    split
    · next c =>
      refine ⟨rfl, ?_⟩
      show 16 + (pack b).length ≤ 4112
      have : b.length ≤ 4096 := this
      omega
    · refine ⟨rfl, ?_⟩
      show 16 + b.length ≤ 4112
      have : b.length ≤ 4096 := this
      omega

/-- The entry in compression leaves it, and its stream's staged count falls (R12, R22). -/
theorem sound_taken {s : State} (t : Taken) (f : Stream → Stream) (ht : s.cmp.engine = some t)
    (hf : ∀ st, (f st).lane = st.lane ∧ (f st).state = st.state ∧ (f st).staged = st.staged - 1) (h : Sound s) :
    Sound (unreserved (modStream t.entry.stream f s)) := by
  obtain ⟨q, p, ⟨e1, e2, e3⟩, -, rest⟩ := h
  have ent : s.cmp.entries = s.cmp.ready ++ [t.entry] := by simp [Compressor.entries, ht]
  rw [ent] at e1 e2
  have count : ∀ j : StreamId, (upd s.streams t.entry.stream f)[j].staged =
      s.cmp.ready.countP fun e => decide (e.stream = j) := fun j => by
    have := e2 j
    rw [List.countP_append, List.countP_cons, List.countP_nil] at this
    by_cases hj : j = t.entry.stream
    · subst hj; rw [upd_same, (hf _).2.2, this]; simp
    · rw [upd_other _ _ _ _ hj, this]; simp [Ne.symm hj]
  refine ⟨q, p, ⟨fun x hx => e1 x ?_, fun j => ?_, fun j hj => ?_⟩, fun x hx => (by cases hx), rest⟩
  · have hx : x ∈ s.cmp.ready ++ [] := hx
    rw [List.append_nil] at hx
    exact List.mem_append_left _ hx
  · show _ = (s.cmp.ready ++ []).countP _
    rw [List.append_nil]; exact count j
  · show (upd s.streams t.entry.stream f)[j].staged = 0
    have hj : (upd s.streams t.entry.stream f)[j].state = .closed := hj
    rw [upd_figure _ _ _ _ Stream.state (hf _).2.1] at hj
    have := (e2 j).symm.trans (e3 j hj)
    rw [List.countP_append] at this
    rw [count]; omega

theorem asm_freeIngest (k : Nat) (s : State) : (freeIngest k s).asm = s.asm := by
  have all : ∀ (l : List StreamId) (t : State), (forEach l checkResume t).asm = t.asm := by
    intro l
    unfold forEach
    induction l with
    | nil => exact fun _ => rfl
    | cons i l ih =>
      intro t
      refine (ih _).trans ?_
      show (checkResume i t).asm = t.asm
      unfold checkResume
      split <;> rfl
  unfold freeIngest
  split
  · rfl
  · exact all _ _

@[simp] theorem keeps_compressionComplete  {a s : State} (h : Keeps a s) : Keeps a (compressionComplete s) := by
  unfold compressionComplete
  split
  · exact h
  · next t ht =>
    dsimp only
    refine keeps_checkComplete _ (keeps_checkResume _ (keeps_post _ ?_))
    -- the compressor may as well be IDLE from the start
    show Keeps a (unreserved _)
    rw [← deferredSeal_unreserved, unreserved_ite, ← freeIngest_unreserved, ← placeRecord_unreserved,
      ← freeIngest_unreserved]
    -- once the entry has left compression
    have taken : ∀ f : Stream → Stream, (∀ st, (f st).lane = st.lane ∧ (f st).state = st.state ∧
        (f st).staged = st.staged - 1) → (∀ st, (f st).openChunk = st.openChunk) →
        Keeps a (unreserved (modStream t.entry.stream f s)) := fun f hf hc =>
      ⟨h.1, h.2, h.3, h.4, h.5, h.6, h.7, h.8, h.9, h.10, h.11, h.12, h.13, h.14,
        fun b => chunks_modStream _ f (fun st => .inl (hc st)) (h.15 b), fun g => sound_taken t f ht hf (h.16 g)⟩
    have idle : ∀ (k : Nat) (u : State), u.cmp.engine = none → (freeIngest k u).cmp.engine = none := fun k u hu => by
      rw [(quiet_freeIngest k (Quiet.refl u)).cmp]; exact hu
    split
    · refine keeps_deferredSeal _ (fun _ => ?_) (keeps_freeIngest _ (taken _ (fun _ => ⟨rfl, rfl, rfl⟩) fun _ => rfl))
      unfold reservedOpen
      rw [idle _ _ rfl]
    · refine keeps_deferredSeal _ (fun _ => ?_) (keeps_placeRecord _ _ (fun _ => idle _ _ rfl) (fun g => ?_)
        (keeps_freeIngest _ (taken _ (fun st => ⟨(methodCounts_kept _ _ st).1, (methodCounts_kept _ _ st).2, rfl⟩)
          fun st => methodCounts_openChunk _ _ st)))
      · rw [freeIngest_unreserved, placeRecord_unreserved]; rfl
      · have w := h.16 g
        obtain ⟨hi, hz⟩ := formRecord_size t.entry
            (packingTried s.streams[t.entry.stream]) (w.2.2.1.1 t.entry (by simp [Compressor.entries, ht]))
        have stands := w.2.2.2.1 t ht
        unfold roomStands at stands
        split at stands
        · refine .inr ?_
          show ∃ b, (freeIngest _ (unreserved _)).asm[s.streams[t.entry.stream].lane].openBlock = some b ∧ _
          rw [asm_freeIngest]
          unfold openRoom at stands
          split at stands
          · cases stands
          · next b hb =>
            simp only [Bool.and_eq_true, decide_eq_true_eq] at stands
            refine ⟨b, hb, decide_eq_true ?_, ?_⟩
            · have := stands.1
              omega
            · unfold OpenBlock.fitsStream
              rw [hi]; exact stands.2
        · exact .inl ((quiet_freeIngest _ (Quiet.refl _)).newRoom _ stands)

@[simp] theorem keeps_commitRun (i : CartId) (b : Nat) (r : Run) {a s : State} (h : Keeps a s) : Keeps a (commitRun i b r s) := by
  unfold commitRun
  (try dsimp only)
  all_goals simp (maxDischargeDepth := 30) [*]

@[simp] theorem keeps_commitRecord (i : CartId) {a s : State} (h : Keeps a s) : Keeps a (commitRecord i s) := by
  unfold commitRecord
  split
  · exact h
  · next c hc =>
    refine keeps_modRecord_of i _ (fun x hx => ?_) h
    rw [hc] at hx; cases hx
    refine ⟨rfl, fun w => ?_⟩
    obtain ⟨x, y, z⟩ := w
    refine ⟨le_min (x.trans z) ?_, le_min (y.trans z) ?_, Nat.min_le_left _ _⟩ <;> dsimp only <;> omega

@[simp] theorem keeps_reportEmpty (n : LaneId) {a s : State} (h : Keeps a s) : Keeps a (reportEmpty n s) := by
  unfold reportEmpty
  repeat' split
  all_goals simp (maxDischargeDepth := 30) [*]

@[simp] theorem keeps_countDelivered (n : LaneId) {a s : State} (h : Keeps a s) : Keeps a (countDelivered n s) := by
  unfold countDelivered
  (try dsimp only)
  all_goals simp (maxDischargeDepth := 30) [*]

/-- The head is committed with its catalog place held and no WRITE in flight any more. -/
@[simp] theorem keeps_commitHead (n : LaneId) (b : Nat) {a s : State} (hp : Good a → s.cat.places[n] = true)
    (hw : Calm a n s) (h : Keeps a s) : Keeps a (commitHead n b s) := by
  have hf : ∀ (i : CartId) (l : List Run) t, Keeps a t → Keeps a (forEach l (commitRun i b) t) :=
    fun i l _ ht => keeps_forEach l _ (fun r _ => keeps_commitRun i b r) ht
  have only : ∀ i, CdrOnly s (commitRecord i s) := fun i => by
    unfold commitRecord
    split <;> rfl
  have hi : ∀ i l rs, Keeps a (insertEntry n i l b rs (commitRecord i s)) := fun i l rs => by
    refine keeps_insertEntry n i l b rs (fun g => ?_) ((calm_of_lanes ?_).2 hw) (keeps_commitRecord i h)
    · rw [only i]; exact hp g
    · rw [only i]
  unfold commitHead
  split
  · simp (maxDischargeDepth := 30) [hi, hf]
  · exact h

@[simp] theorem keeps_earlyWarning (n : LaneId) (flag : Bool) {a s : State} (h : Keeps a s) : Keeps a (earlyWarning n flag s) := by
  unfold earlyWarning
  repeat' split
  all_goals simp (maxDischargeDepth := 30) [*]

@[simp] theorem keeps_endCartridge (n : LaneId) {a s : State} (hw : Calm a n s) (h : Keeps a s) :
    Keeps a (endCartridge n s) := by
  unfold endCartridge
  (try dsimp only)
  repeat' split
  all_goals simp (maxDischargeDepth := 30) [*]

@[simp] theorem keeps_continueWriting (n : LaneId) {a s : State} (hs : Good a → s.lanes[n].state = .writing)
    (hw : Calm a n s) (h : Keeps a s) : Keeps a (continueWriting n s) := by
  unfold continueWriting
  repeat' split
  · exact keeps_endCartridge n hw h
  · exact keeps_grantRestore n hw h
  · exact keeps_enterHold n _ hw h
  · exact keeps_sendHead n hs hw h

@[simp] theorem keeps_pendRestore (n : LaneId) {a s : State} (h : Keeps a s) : Keeps a (pendRestore n s) := by
  unfold pendRestore
  all_goals simp (maxDischargeDepth := 30) [*]

@[simp] theorem keeps_claimRestore (n : LaneId) {a s : State} (h : Keeps a s) : Keeps a (claimRestore n s) := by
  have granted : s.lanes[n].state ≠ .writing → Keeps a (grantRestore n s) := fun e =>
    keeps_grantRestore n (fun g => (h.16 g).idle n e) h
  unfold claimRestore
  split
  · next e => exact granted (by rw [e]; decide)
  · next e => exact granted (by rw [e]; decide)
  all_goals simp (maxDischargeDepth := 30) [h]

@[simp] theorem keeps_restoreNotice (c : RestoreContext) (r : RestoreResult) {a s : State} (h : Keeps a s) : Keeps a (restoreNotice c r s) := by
  unfold restoreNotice
  all_goals simp (maxDischargeDepth := 30) [*]

@[simp] theorem keeps_queuedRestoreNotice (r : RestoreRequest) {a s : State} (h : Keeps a s) : Keeps a (queuedRestoreNotice r s) := by
  unfold queuedRestoreNotice
  all_goals simp (maxDischargeDepth := 30) [*]

@[simp] theorem keeps_leaveLane (n : LaneId) {a s : State} (h : Keeps a s) : Keeps a (leaveLane n s) := by
  unfold leaveLane
  repeat' split
  all_goals simp (maxDischargeDepth := 30) [*]

@[simp] theorem keeps_finishRestore (r : RestoreResult) {a s : State} (h : Keeps a s) : Keeps a (finishRestore r s) := by
  unfold finishRestore
  (try dsimp only)
  repeat' split
  all_goals simp (maxDischargeDepth := 30) [*]

@[simp] theorem keeps_completeRestore  {a s : State} (h : Keeps a s) : Keeps a (completeRestore s) := by
  unfold completeRestore
  repeat' split
  all_goals simp (maxDischargeDepth := 30) [*]

@[simp] theorem keeps_giveUp (ends : Bool) {a s : State} (h : Keeps a s) : Keeps a (giveUp ends s) := by
  unfold giveUp
  (try dsimp only)
  repeat' split
  all_goals simp (maxDischargeDepth := 30) [*]

@[simp] theorem keeps_restoreLaneFault  {a s : State} (h : Keeps a s) : Keeps a (restoreLaneFault s) := by
  unfold restoreLaneFault
  (try dsimp only)
  repeat' split
  all_goals simp (maxDischargeDepth := 30) [*]

@[simp] theorem keeps_restoreRead  {a s : State} (h : Keeps a s) : Keeps a (restoreRead s) := by
  unfold restoreRead
  (try dsimp only)
  repeat' split
  all_goals simp (maxDischargeDepth := 30) [*]

@[simp] theorem keeps_startRead  {a s : State} (h : Keeps a s) : Keeps a (startRead s) := by
  unfold startRead
  (try dsimp only)
  repeat' split
  all_goals simp (maxDischargeDepth := 30) [*]

@[simp] theorem keeps_sendDamaged (cause : SegmentCause) {a s : State} (h : Keeps a s) : Keeps a (sendDamaged cause s) := by
  unfold sendDamaged
  all_goals simp (maxDischargeDepth := 30) [*]

@[simp] theorem keeps_startDamage (upTo : Nat) (cause : SegmentCause) (after : AfterDamage) {a s : State} (h : Keeps a s) : Keeps a (startDamage upTo cause after s) := by
  unfold startDamage
  all_goals simp (maxDischargeDepth := 30) [*]

@[simp] theorem keeps_restoreMount  {a s : State} (h : Keeps a s) : Keeps a (restoreMount s) := by
  unfold restoreMount
  (try dsimp only)
  repeat' split
  all_goals simp (maxDischargeDepth := 30) [*]

@[simp] theorem keeps_restoreClaim (n : LaneId) {a s : State} (h : Keeps a s) : Keeps a (restoreClaim n s) := by
  unfold restoreClaim
  (try dsimp only)
  repeat' split
  all_goals simp (maxDischargeDepth := 30) [*]

@[simp] theorem keeps_reach  {a s : State} (h : Keeps a s) : Keeps a (reach s) := by
  unfold reach
  (try dsimp only)
  repeat' split
  all_goals simp (maxDischargeDepth := 30) [*]

@[simp] theorem keeps_restNotFound  {a s : State} (h : Keeps a s) : Keeps a (restNotFound s) := by
  unfold restNotFound
  (try dsimp only)
  repeat' split
  all_goals simp (maxDischargeDepth := 30) [*]

@[simp] theorem keeps_findNext  {a s : State} (h : Keeps a s) : Keeps a (findNext s) := by
  unfold findNext
  (try dsimp only)
  repeat' split
  all_goals simp (maxDischargeDepth := 30) [*]

@[simp] theorem keeps_afterBlock  {a s : State} (h : Keeps a s) : Keeps a (afterBlock s) := by
  unfold afterBlock
  repeat' split
  all_goals simp (maxDischargeDepth := 30) [*]

@[simp] theorem keeps_freeBlock {a s : State} (h : Keeps a s) : Keeps a (freeBlock s) := by
  unfold freeBlock
  repeat' split
  all_goals simp [*]

@[simp] theorem keeps_blockEnd  {a s : State} (h : Keeps a s) : Keeps a (blockEnd s) := by
  unfold blockEnd
  (try dsimp only)
  repeat' split
  all_goals simp (maxDischargeDepth := 30) [*]

@[simp] theorem keeps_restoreOffer  {a s : State} (h : Keeps a s) : Keeps a (restoreOffer s) := by
  unfold restoreOffer
  repeat' split
  all_goals simp (maxDischargeDepth := 30) [*]

@[simp] theorem keeps_restoreRecords  {a s : State} (h : Keeps a s) : Keeps a (restoreRecords s) := by
  have go : ∀ (p : Prop) [Decidable p] (d : Nat) (t : State), Keeps a t →
      Keeps a (if p then startDamage d .block .records t
        else if t.pool.waiting = [] ∧ readFits 1 t = true then restoreOffer (takeRead 1 t) else waitRead .restore 1 t) := by
    intro p _ d t k
    repeat' split
    · exact keeps_startDamage _ _ _ k
    · next e => exact keeps_restoreOffer (keeps_takeRead 1 e.2 k)
    · exact keeps_waitRead _ _ k
  have skip : ∀ (b : Bool) (x y : Nat), Keeps a (if b = true then raised x y s else (x, s)).2 := by
    intro b x y
    split <;> simp [h]
  unfold restoreRecords
  split
  · exact h
  · split
    · exact keeps_blockEnd h
    · exact go _ _ _ (keeps_modActive _ (skip _ _ _))

@[simp] theorem keeps_restoreBlock (read : Option (List Byte)) {a s : State} (h : Keeps a s) : Keeps a (restoreBlock read s) := by
  unfold restoreBlock
  (try dsimp only)
  repeat' split
  all_goals simp (maxDischargeDepth := 30) [*]

@[simp] theorem keeps_restoreOutcome (r : WalkedRecord) (o : Expanded) {a s : State} (h : Keeps a s) : Keeps a (restoreOutcome r o s) := by
  unfold restoreOutcome
  (try dsimp only)
  repeat' split
  all_goals simp (maxDischargeDepth := 30) [*]

@[simp] theorem keeps_restoreGo  {a s : State} (h : Keeps a s) : Keeps a (restoreGo s) := by
  unfold restoreGo
  (try dsimp only)
  repeat' split
  all_goals simp (maxDischargeDepth := 30) [*]

@[simp] theorem keeps_segmentTaken (g : Segment) {a s : State} (h : Keeps a s) : Keeps a (segmentTaken g s) := by
  unfold segmentTaken
  (try dsimp only)
  repeat' split
  all_goals simp (maxDischargeDepth := 30) [*]

@[simp] theorem keeps_restoreLane (n : LaneId) {a s : State} (h : Keeps a s) : Keeps a (restoreLane n s) := by
  unfold restoreLane
  repeat' split
  all_goals simp (maxDischargeDepth := 30) [*]

@[simp] theorem keeps_restoreRoom  {a s : State} (h : Keeps a s) : Keeps a (restoreRoom s) := by
  unfold restoreRoom
  repeat' split
  all_goals simp (maxDischargeDepth := 30) [*]

@[simp] theorem keeps_restorePlanEnded (i : Option CartId) (lane : Option LaneId) (failure : Option PlanReason) {a s : State} (h : Keeps a s) : Keeps a (restorePlanEnded i lane failure s) := by
  unfold restorePlanEnded
  (try dsimp only)
  repeat' split
  all_goals simp (maxDischargeDepth := 30) [*]

@[simp] theorem keeps_restoreActivate  {a s : State} (h : Keeps a s) : Keeps a (restoreActivate s) := by
  unfold restoreActivate
  (try dsimp only)
  repeat' split
  all_goals simp (maxDischargeDepth := 30) [*]

@[simp] theorem keeps_readGrant  {a s : State} (h : Keeps a s) : Keeps a (readGrant s) := by
  unfold readGrant
  dsimp only
  split
  · exact h
  · next w rest _ =>
    split
    · next hr =>
      have k : Keeps a (takeRead w.pages (modPool (fun p => { p with waiting := rest }) s)) :=
        keeps_takeRead w.pages hr (keeps_modPool _ rfl rfl h)
      repeat' split
      all_goals simp (maxDischargeDepth := 30) [k]
    · exact h

@[simp] theorem keeps_expanderTake  {a s : State} (h : Keeps a s) : Keeps a (expanderTake s) := by
  unfold expanderTake
  (try dsimp only)
  repeat' split
  all_goals simp (maxDischargeDepth := 30) [*]

@[simp] theorem keeps_offerHeld (c : ReadClient) {a s : State} (h : Keeps a s) : Keeps a (offerHeld c s) := by
  unfold offerHeld
  repeat' split
  all_goals simp [*]

@[simp] theorem keeps_expansionComplete  {a s : State} (h : Keeps a s) : Keeps a (expansionComplete s) := by
  unfold expansionComplete
  (try dsimp only)
  repeat' split
  all_goals simp (maxDischargeDepth := 30) [*]

@[simp] theorem keeps_enterFault (n : LaneId) (code : FaultCode) {a s : State} (h : Keeps a s) : Keeps a (enterFault n code s) := by
  unfold enterFault
  (try dsimp only)
  repeat' split
  all_goals simp (maxDischargeDepth := 30) [*]

@[simp] theorem keeps_failCommand (n : LaneId) (code : FaultCode) {a s : State} (h : Keeps a s) : Keeps a (failCommand n code s) := by
  unfold failCommand
  all_goals simp (maxDischargeDepth := 30) [*]

@[simp] theorem keeps_laneReset (n : LaneId) {a s : State} (h : Keeps a s) : Keeps a (laneReset n s) := by
  have first : Keeps a (endPass n .laneReset (modLane n (fun l => { l with command := none }) s)) := by simp [h]
  have calm : Calm a n (endPass n .laneReset (modLane n (fun l => { l with command := none }) s)) :=
    (quiet_endPass n _ (Quiet.refl _)).stillCalm (calm_dropCommand _ fun _ => rfl)
  have told : ∀ b : Bool, Keeps a (if b = true then restoreLaneFault
        (endPass n .laneReset (modLane n (fun l => { l with command := none }) s))
      else endPass n .laneReset (modLane n (fun l => { l with command := none }) s)) ∧
      Calm a n (if b = true then restoreLaneFault
        (endPass n .laneReset (modLane n (fun l => { l with command := none }) s))
      else endPass n .laneReset (modLane n (fun l => { l with command := none }) s)) := by
    intro b
    split
    · exact ⟨keeps_restoreLaneFault first, (quiet_restoreLaneFault (Quiet.refl _)).stillCalm calm⟩
    · exact ⟨first, calm⟩
  obtain ⟨k, c⟩ := told (restoreOn n s)
  unfold laneReset
  refine keeps_modGov_of n _ (fun w => ?_) (keeps_setLaneState n _ (.inr (calm_dropCommand _ fun _ => rfl))
    (keeps_modLane n _ (by simp [Lane.reset]) (keeps_releasePlace n (by simpa using c) (keeps_setNeedsLocate n _ k))))
  refine sound_modGov n _ (fun x => ?_) w
  exact (Nat.zero_le _).trans_lt x

@[simp] theorem keeps_clearCommand (n : LaneId) {a s : State} (h : Keeps a s) : Keeps a (clearCommand n s) := by
  unfold clearCommand
  all_goals simp (maxDischargeDepth := 30) [*]

@[simp] theorem keeps_threadIfPlaced (n : LaneId) {a s : State} (hw : Calm a n s) (h : Keeps a s) :
    Keeps a (threadIfPlaced n s) := by
  unfold threadIfPlaced
  repeat' split
  all_goals simp (maxDischargeDepth := 30) [*]

end Sys2Proof.Machine
end

