-- ==== Sys2Proof/Laws/KeepsLoader.lean ====
section
/-! SUPPORT. Laws/KeepsLoader.lean: the loader keeps the link, the queue of commands and the tables. -/

namespace Sys2Proof.Machine

@[simp] theorem keeps_writeLines (mask data : BitVec 8) {a s : State} (h : Keeps a s) : Keeps a (writeLines mask data s) := by
  unfold writeLines
  (try dsimp only)
  repeat' split
  all_goals simp (maxDischargeDepth := 30) [*]

@[simp] theorem keeps_holdDoor  {a s : State} (h : Keeps a s) : Keeps a (holdDoor s) := by
  unfold holdDoor
  repeat' split
  all_goals simp (maxDischargeDepth := 30) [*]

@[simp] theorem keeps_releaseDoor  {a s : State} (h : Keeps a s) : Keeps a (releaseDoor s) := by
  unfold releaseDoor
  repeat' split
  all_goals simp (maxDischargeDepth := 30) [*]

@[simp] theorem keeps_loaderFault (code : LoaderFault) {a s : State} (h : Keeps a s) : Keeps a (loaderFault code s) := by
  unfold loaderFault
  (try dsimp only)
  repeat' split
  all_goals simp (maxDischargeDepth := 30) [*]

/-- Everything the test of the positions can do (R114). -/
theorem deviationFault_cases (s : State) :
    (deviates s = true ∧ deviationFault s = loaderFault .positionError s) ∨
      (deviates s = false ∧ deviationFault s = s) := by
  cases h : deviates s <;> simp [deviationFault, h]

@[simp] theorem keeps_deviationFault {a s : State} (h : Keeps a s) : Keeps a (deviationFault s) := by
  obtain ⟨-, e⟩ | ⟨-, e⟩ := deviationFault_cases s <;> rw [e]
  · exact keeps_loaderFault _ h
  · exact h

@[simp] theorem keeps_deviationTest {a s : State} (h : Keeps a s) : Keeps a (deviationTest s) := by
  unfold deviationTest
  split
  · exact keeps_deviationFault h
  · exact h

@[simp] theorem keeps_limitTest {a s : State} (h : Keeps a s) : Keeps a (limitTest s) := by
  unfold limitTest
  split
  · exact h
  · exact keeps_deviationFault h

@[simp] theorem keeps_tellEngines (m : MountRequest) (p : Plan) (failure : Option PlanReason) {a s : State} (h : Keeps a s) : Keeps a (tellEngines m p failure s) := by
  unfold tellEngines
  (try dsimp only)
  repeat' split
  all_goals simp (maxDischargeDepth := 30) [*]

@[simp] theorem keeps_closePlan {a s : State} (h : Keeps a s) : Keeps a (closePlan s) :=
  keeps_setMounts _ (List.length_filter_le _ _) (keeps_modLdr _ h)

@[simp] theorem keeps_afterPlan  {a s : State} (h : Keeps a s) : Keeps a (afterPlan s) := by
  unfold afterPlan
  all_goals simp (maxDischargeDepth := 30) [*]

@[simp] theorem keeps_planSucceeds  {a s : State} (h : Keeps a s) : Keeps a (planSucceeds s) := by
  unfold planSucceeds
  (try dsimp only)
  repeat' split
  all_goals simp (maxDischargeDepth := 30) [*]

@[simp] theorem keeps_planFails (r : PlanReason) {a s : State} (h : Keeps a s) : Keeps a (planFails r s) := by
  unfold planFails
  (try dsimp only)
  repeat' split
  all_goals simp (maxDischargeDepth := 30) [*]

@[simp] theorem keeps_beginTravel (l : Location) {a s : State} (h : Keeps a s) : Keeps a (beginTravel l s).2 := by
  unfold beginTravel
  (try dsimp only)
  repeat' split
  all_goals simp (maxDischargeDepth := 30) [*]

@[simp] theorem keeps_beginGrip  {a s : State} (h : Keeps a s) : Keeps a (beginGrip s) := by
  unfold beginGrip
  all_goals simp (maxDischargeDepth := 30) [*]

@[simp] theorem keeps_askEject (n : LaneId) {a s : State} (h : Keeps a s) : Keeps a (askEject n s).2 := by
  unfold askEject
  repeat' split
  all_goals simp (maxDischargeDepth := 30) [*]

@[simp] theorem keeps_startStep (st : PlanStep) {a s : State} (h : Keeps a s) : Keeps a (startStep st s).2 := by
  unfold startStep
  repeat' split
  all_goals simp (maxDischargeDepth := 30) [*]

@[simp] theorem keeps_beginStep (st : PlanStep) {a s : State} (h : Keeps a s) : Keeps a (beginStep st s).2 := by
  unfold beginStep
  repeat' split
  all_goals simp (maxDischargeDepth := 30) [*]

@[simp] theorem keeps_runSteps (k : Nat) {a s : State} (h : Keeps a s) : Keeps a (runSteps k s) := by
  induction k generalizing s with
  | zero => exact h
  | succ k ih =>
    unfold runSteps
    split
    · exact h
    · split
      · exact keeps_planSucceeds h
      · next st _ =>
        have hb := keeps_beginStep st h
        split
        · next e => rw [e] at hb; exact hb
        · next e => rw [e] at hb; exact ih (keeps_modLdr _ hb)

@[simp] theorem keeps_runPlan  {a s : State} (h : Keeps a s) : Keeps a (runPlan s) := by
  unfold runPlan
  all_goals simp (maxDischargeDepth := 30) [*]

@[simp] theorem keeps_stepEnds  {a s : State} (h : Keeps a s) : Keeps a (stepEnds s) := by
  unfold stepEnds
  repeat' split
  all_goals simp (maxDischargeDepth := 30) [*]

@[simp] theorem keeps_ejectAgain (n : LaneId) {a s : State} (h : Keeps a s) : Keeps a (ejectAgain n s) := by
  have hb := keeps_askEject n h
  unfold ejectAgain
  split
  · split
    · next e => rw [e] at hb; exact keeps_stepEnds hb
    · next e => rw [e] at hb; exact hb
  · exact h

@[simp] theorem keeps_travelOutput  {a s : State} (h : Keeps a s) : Keeps a (travelOutput s) := by
  unfold travelOutput
  (try dsimp only)
  repeat' split
  all_goals simp (maxDischargeDepth := 30) [*]

@[simp] theorem keeps_loaderStop (mode : StopMode) {a s : State} (h : Keeps a s) : Keeps a (loaderStop mode s) := by
  unfold loaderStop
  (try dsimp only)
  repeat' split
  all_goals simp (maxDischargeDepth := 30) [*]

@[simp] theorem keeps_homed  {a s : State} (h : Keeps a s) : Keeps a (homed s) := by
  unfold homed
  (try dsimp only)
  all_goals simp (maxDischargeDepth := 30) [*]

@[simp] theorem keeps_bayEmptied (l : Location) {a s : State} (h : Keeps a s) : Keeps a (bayEmptied l s) := by
  unfold bayEmptied
  split
  · next n =>
    split
    · next e =>
      have idle : Calm a n s := fun g => (h.16 g).idle n (by rcases e with e | e <;> rw [e] <;> decide)
      exact keeps_setLaneState n _ (.inr (by simpa using idle)) (keeps_modLane n _ (by simp) h)
    · exact h
  · exact h

@[simp] theorem keeps_gripped (l : Location) {a s : State} (h : Keeps a s) : Keeps a (gripped l s) := by
  have k : Keeps a (post .serveTest (modLdr (fun d => { d with heldSensor := true }) s)) := by simp [h]
  unfold gripped
  dsimp only
  split
  · exact keeps_stepEnds (keeps_bayEmptied l k)
  · next i e => exact keeps_stepEnds (keeps_bayEmptied l (keeps_moveRecord i .picker (fun g => (k.16 g).named l i e) k))

@[simp] theorem keeps_newHome (i : CartId) (l : Location) {a s : State} (h : Keeps a s) : Keeps a (newHome i l s) := by
  unfold newHome
  repeat' split
  · exact keeps_modRecord i _ (fun _ => ⟨rfl, id⟩) h
  all_goals exact h

@[simp] theorem keeps_released (l : Location) {a s : State} (h : Keeps a s) : Keeps a (released l s) := by
  have k : Keeps a (post .serveTest (modLdr (fun d => { d with heldSensor := false }) s)) := by simp [h]
  unfold released
  dsimp only
  split
  · exact keeps_stepEnds k
  · next i e =>
    exact keeps_stepEnds (keeps_askPickFor i (keeps_newHome i l (keeps_moveRecord i l (fun g => (k.16 g).named _ i e) k)))

@[simp] theorem keeps_serve (m : MountRequest) {a s : State} (h : Keeps a s) : Keeps a (serve m s) := by
  have ht : ∀ p, Keeps a (setMounts (s.mounts.replace m { m with inService := true })
      (modLdr (fun d => { d with state := .running, plan := some p }) s)) :=
    fun p => keeps_setMounts _ (by simp) (keeps_modLdr _ h)
  unfold serve
  cases hb : buildFailure m (planSteps m s) s with
  | none => simpa [hb] using keeps_runPlan (ht _)
  | some r => simpa [hb] using keeps_planFails r (ht _)

@[simp] theorem keeps_serveTest  {a s : State} (h : Keeps a s) : Keeps a (serveTest s) := by
  unfold serveTest
  repeat' split
  all_goals simp (maxDischargeDepth := 30) [*]

@[simp] theorem keeps_foundEmpty (i : CartId) (l : Location) {a s : State} (h : Keeps a s) : Keeps a (foundEmpty i l s) := by
  unfold foundEmpty
  split
  · next e =>
    refine keeps_moveRecord i _ (fun _ => ?_) h
    cases hr : recordAt i s with
    | none => rw [hr] at e; cases e
    | some _ => rfl
  · exact h

@[simp] theorem keeps_scanReading (l : Location) (occupied : Bool) {a s : State} (h : Keeps a s) : Keeps a (scanReading l occupied s) := by
  unfold scanReading
  repeat' split
  all_goals simp (maxDischargeDepth := 30) [*]

@[simp] theorem keeps_probed (l : Location) (e : Expectation) (occupied : Bool) {a s : State} (h : Keeps a s) : Keeps a (probed l e occupied s) := by
  unfold probed
  repeat' split
  all_goals simp (maxDischargeDepth := 30) [*]

theorem length_requeue (m back : MountRequest) (l : List MountRequest) (hm : m ∈ l) :
    (requeue m back l).length = l.length := by
  induction l with
  | nil => simp at hm
  | cons x l ih =>
    unfold requeue
    split
    · simp
    · next hx =>
      have hl : m ∈ l := by simpa [Ne.symm hx] using hm
      split
      · have := List.length_erase_of_mem hm
        simp only [List.length_cons, this]
        omega
      · simpa using ih hl

@[simp] theorem keeps_loaderReset {a s : State} (h : Keeps a s) : Keeps a (loaderReset s) := by
  have hl : ∀ m back, inService s = some m → Keeps a (setMounts (requeue m back s.mounts) s) := fun m back e =>
    keeps_setMounts _ (length_requeue m back _ (List.mem_of_find?_eq_some e)).le h
  unfold loaderReset
  cases e : inService s with
  | none => exact keeps_modLdr _ (keeps_releaseDoor h)
  | some m => exact keeps_modLdr _ (keeps_releaseDoor (hl m _ e))

end Sys2Proof.Machine
end

