-- ==== Sys2Proof/Laws/KeepsTriggers.lean ====
section
/-! SUPPORT. Laws/KeepsTriggers.lean: triggers, speed matching and streams keep the link, the queue of commands and the tables. -/

namespace Sys2Proof.Machine

@[simp] theorem keeps_captureInto (i : Fin 8) (w : Happening) {a s : State} (h : Keeps a s) : Keeps a (captureInto i w s) := by
  unfold captureInto
  all_goals simp (maxDischargeDepth := 30) [*]

@[simp] theorem keeps_serverSuspend (n : LaneId) {a s : State} (h : Keeps a s) : Keeps a (serverSuspend n s) := by
  unfold serverSuspend
  repeat' split
  all_goals simp (maxDischargeDepth := 30) [*]

@[simp] theorem keeps_serverResume (n : LaneId) {a s : State} (h : Keeps a s) : Keeps a (serverResume n s) := by
  unfold serverResume
  split
  · next e => exact keeps_resumePass n (calm_grants h e.2) h
  · exact h

@[simp] theorem keeps_act (i : Fin 8) (w : Happening) (x : Action) {a s : State} (h : Keeps a s) :
    Keeps a (act i w x s) := by
  cases x <;> simp (maxDischargeDepth := 30) [act, h]

@[simp] theorem keeps_actSet (i : Fin 8) (w : Happening) {a s : State} (h : Keeps a s) : Keeps a (actSet i w s) := by
  have hs := keeps_forEach s.ttu.triggers[i].actions (act i w) (fun x _ => keeps_act i w x) h
  unfold actSet
  dsimp only
  split
  · exact keeps_modTtu _ (fun _ => rfl) hs
  · exact hs

@[simp] theorem keeps_waveRounds (w : Happening) (k : Nat) (l acted : List (Fin 8)) {a s : State} (h : Keeps a s) :
    Keeps a (waveRounds w k l acted s).2 := by
  induction k generalizing l acted s with
  | zero => exact h
  | succ k ih =>
    cases l with
    | nil => exact h
    | cons i rest =>
      unfold waveRounds
      split
      · exact ih rest acted h
      · exact ih _ _ (keeps_actSet i w h)

@[simp] theorem keeps_wave (w : Happening) (start : List (Fin 8)) {a s : State} (h : Keeps a s) : Keeps a (wave w start s).2 := by
  unfold wave
  all_goals simp (maxDischargeDepth := 30) [*]

@[simp] theorem keeps_guardDisarm (k : EventKind) {a s : State} (h : Keeps a s) : Keeps a (guardDisarm k s) := by
  unfold guardDisarm
  repeat' split
  all_goals simp (maxDischargeDepth := 30) [*]

@[simp] theorem keeps_takeEvent (k : EventKind) (q : Option Nat) (mask : BitVec 8) {a s : State} (h : Keeps a s) :
    Keeps a (takeEvent k q mask s) := by
  unfold takeEvent
  refine keeps_wave _ _ (keeps_forEach _ _ (fun i t ht => ?_) (keeps_guardDisarm k h))
  split
  · exact keeps_captureInto _ _ ht
  · exact ht

@[simp] theorem keeps_compareLines (c : Fin 4) {a s : State} (h : Keeps a s) : Keeps a (compareLines c s) := by
  unfold compareLines
  all_goals simp (maxDischargeDepth := 30) [*]

@[simp] theorem keeps_compareMatch {a s : State} (h : Keeps a s) : Keeps a (compareMatch s) := by
  unfold compareMatch
  refine keeps_forEach _ _ (fun c t ht => keeps_takeEvent _ _ _ ht) (keeps_forEach _ _ (fun c t ht => ?_) ?_)
  · exact keeps_modTtu _ (fun _ => rfl) ht
  · exact keeps_modTtu _ (fun _ => rfl) (keeps_forEach _ _ (fun c _ => keeps_compareLines c) h)

/-- The open chunk of a stream that is not CLOSED is staged (R8). -/
theorem sound_stageChunk (i : StreamId) (m : Mark) {s : State} (hc : s.streams[i].state ≠ .closed)
    (hb : ∀ c, s.streams[i].openChunk = some c → c.bytes.length ≤ Config.pageBytes) (h : Sound s) :
    Sound (stageChunk i m s) := by
  unfold stageChunk
  split
  · exact h
  · next c e => exact sound_stage _ _ (fun b hx => by cases hx; exact hb c e) rfl rfl hc h

theorem keeps_stageChunk (i : StreamId) (m : Mark) {a s : State} (hc : Good a → s.streams[i].state ≠ .closed)
    (h : Keeps a s) : Keeps a (stageChunk i m s) := by
  have hs : Good a → Sound (stageChunk i m s) := fun g =>
    sound_stageChunk i m (hc g) (fun c e => (h.15 g.1 i c e).2.le) (h.16 g)
  unfold stageChunk at hs ⊢
  split
  · exact h
  · next c e =>
    rw [e] at hs
    exact ⟨h.1, h.2, h.3, h.4, h.5, h.6, h.7, h.8, h.9, h.10, h.11, h.12, h.13, h.14,
      fun b => chunks_modStream i _ (fun _ => .inr rfl) (h.15 b), hs⟩

theorem sound_stageIfFull (i : StreamId) {s : State} (hc : s.streams[i].state ≠ .closed) (h : Sound s) :
    Sound (stageIfFull i s) := by
  unfold stageIfFull
  split
  · exact h
  · next c e =>
    split
    · next hl => exact sound_stageChunk i .none hc (fun x hx => by rw [e] at hx; cases hx; exact hl.le) h
    · exact h

/-- The pool is left as it was by a chunk that is staged. -/
theorem pool_stageIfFull (i : StreamId) (s : State) : (stageIfFull i s).pool = s.pool := by
  unfold stageIfFull stageChunk
  repeat' split
  all_goals rfl

/-- A stream that takes bytes keeps its state. -/
theorem state_stageIfFull (i : StreamId) (s : State) : (stageIfFull i s).streams[i].state = s.streams[i].state := by
  unfold stageIfFull stageChunk
  repeat' split
  · rfl
  · rfl
  · exact upd_figure s.streams i i _ Stream.state rfl
  · rfl

/-- A chunk that has just taken bytes is staged when its fill has reached 4,096, so that the open chunks keep their
range (R1, R8). -/
theorem keeps_filled (i : StreamId) (ck : Chunk) (f : Stream → Stream) (g : Regions → Regions) {a s : State}
    (hf : ∀ st, (f st).openChunk = some ck) (hb : chunksOk a → 1 ≤ ck.bytes.length ∧ ck.bytes.length ≤ Config.pageBytes)
    (hk : ∀ st, (f st).lane = st.lane ∧ (f st).state = st.state ∧ (f st).staged = st.staged)
    (hc : Good a → s.streams[i].state ≠ .closed)
    (hg : Good a → ∀ t, t.pool = s.pool → Sound t → Sound (modHeld g t)) (h : Keeps a s) :
    Keeps a (stageIfFull i (modHeld g (modStream i f s))) := by
  have same : (modHeld g (modStream i f s)).streams[i].state = s.streams[i].state :=
    upd_figure s.streams i i _ Stream.state (hk _).2.1
  have chunks : chunksOk a → chunksOk (stageIfFull i (modHeld g (modStream i f s))) := by
    intro b j c hc
    have own : (modHeld g (modStream i f s)).streams[i].openChunk = some ck := by
      show (upd s.streams i f)[i].openChunk = _
      rw [upd_same, hf]
    have other : ∀ j ≠ i, (modHeld g (modStream i f s)).streams[j] = s.streams[j] := fun j hj =>
      upd_other _ _ _ _ hj
    unfold stageIfFull at hc
    rw [own] at hc
    dsimp only at hc
    split at hc
    · unfold stageChunk at hc
      rw [own] at hc
      by_cases hj : j = i
      · subst hj
        simp only [joinReady, post, modCmp, modStream, upd_same] at hc
        cases hc
      · simp only [joinReady, post, modCmp, modStream, upd_other _ _ _ _ hj] at hc
        exact h.15 b j c (by rw [← other j hj]; exact hc)
    · next hn =>
      by_cases hj : j = i
      · subst hj
        rw [own] at hc
        cases hc
        obtain ⟨x, y⟩ := hb b
        exact ⟨x, by omega⟩
      · rw [other j hj] at hc
        exact h.15 b j c hc
  have sound : Good a → Sound (stageIfFull i (modHeld g (modStream i f s))) := fun w =>
    sound_stageIfFull i (by rw [same]; exact hc w) (hg w _ rfl
      (sound_modStream i f (hk _).1 (hk _).2.2 (fun e => .inl ((hk _).2.1.symm.trans e)) (h.16 w)))
  obtain ⟨x, y, z, e⟩ : ∃ x y z, stageIfFull i (modHeld g (modStream i f s)) =
      { modHeld g (modStream i f s) with streams := x, cmp := y, due := z } := by
    unfold stageIfFull stageChunk
    repeat' split
    all_goals exact ⟨_, _, _, rfl⟩
  rw [e] at chunks sound ⊢
  exact ⟨h.1, h.2, h.3, h.4, h.5, h.6, h.7, h.8, h.9, h.10, h.11, h.12, h.13, h.14, chunks, sound⟩

/-- A new chunk on a page of the ingest region, where there is room (R8, R9). -/
theorem keeps_openStage (i : StreamId) (bytes : List Byte) (h1 : 1 ≤ bytes.length) (h2 : bytes.length ≤ Config.pageBytes)
    {a s : State} (hc : Good a → s.streams[i].state ≠ .closed) (hr : s.pool.held.ingest < s.pool.quotas.ingest)
    (h : Keeps a s) : Keeps a (stageIfFull i (openChunk i bytes s)) := by
  let w : Chunk := { seq := s.streams[i].nextSeq, bytes := bytes }
  have e : openChunk i bytes s = modHeld (fun x => { x with ingest := x.ingest + 1 }) (modStream i (fun st =>
      { st with openChunk := some w, nextSeq := st.nextSeq + 1 }) s) := by
    simp only [openChunk, takeIngest, modStream, upd, w]
  rw [e]
  refine keeps_filled i w _ _ (fun _ => rfl) (fun _ => ⟨h1, h2⟩) (fun _ => ⟨rfl, rfl, rfl⟩) hc (fun _ t ht k => ?_) h
  rw [← ht] at hr
  exact sound_modHeld _ hr (fun _ => Nat.le_refl _) k.2.1.2.2 k

/-- A segment of 1 to 4,096 bytes, with a page for it where it needs one (R6, R8, R9). -/
theorem keeps_placeBytes (i : StreamId) (data : List Byte) (h1 : 1 ≤ data.length) (h2 : data.length ≤ Config.pageBytes)
    {a s : State} (hc : Good a → s.streams[i].state ≠ .closed)
    (hr : needsPage s.streams[i] data.length = true → s.pool.held.ingest < s.pool.quotas.ingest) (h : Keeps a s) :
    Keeps a (placeBytes i data s) := by
  unfold placeBytes
  dsimp only
  refine keeps_modStream _ _ (fun _ => .inl rfl) (fun _ => ⟨rfl, rfl, id⟩) ?_
  split
  · next e => exact keeps_openStage i data h1 h2 hc (hr (by unfold needsPage; rw [e])) h
  · next c e =>
    have first : Keeps a (stageIfFull i (modStream i (fun st =>
        { st with openChunk := some { c with bytes := c.bytes ++ data.take (Config.pageBytes - c.bytes.length) } }) s)) := by
      refine keeps_filled i _ _ id (fun _ => rfl) (fun b => ?_) (fun _ => ⟨rfl, rfl, rfl⟩) hc (fun _ _ _ k => k) h
      obtain ⟨x, y⟩ := h.15 b i c e
      simp only [List.length_append, List.length_take]
      omega
    split
    · next hl =>
      refine keeps_openStage i _ ?_ ?_ (fun g => ?_) ?_ first
      · rw [List.length_drop]; omega
      · rw [List.length_drop]; omega
      · rw [state_stageIfFull]
        show (upd s.streams i _)[i].state ≠ _
        rw [upd_same]; exact hc g
      · rw [pool_stageIfFull]
        refine hr ?_
        unfold needsPage
        rw [e]
        exact decide_eq_true (by omega)
    · exact first

@[simp] theorem keeps_streamResume (i : StreamId) {a s : State} (h : Keeps a s) : Keeps a (streamResume i s) := by
  unfold streamResume
  (try dsimp only)
  repeat' split
  all_goals simp (maxDischargeDepth := 30) [*]

@[simp] theorem keeps_streamFlushed (i : StreamId) {a s : State} (h : Keeps a s) : Keeps a (streamFlushed i s) := by
  unfold streamFlushed
  (try dsimp only)
  repeat' split
  all_goals simp (maxDischargeDepth := 30) [*]

@[simp] theorem keeps_offerSpan (i : StreamId) (sp : Span) {a s : State} (h : Keeps a s) : Keeps a (offerSpan i sp s).2 := by
  unfold offerSpan
  split
  · exact h
  · split
    · exact h
    · refine keeps_post _ ⟨h.1, h.2, h.3, h.4, h.5, h.6, h.7, h.8, h.9, h.10, h.11, h.12, fun _ => ?_, h.14, h.15, h.16⟩
      simp only [modVfy, List.length_append, List.length_cons, List.length_nil]
      omega

@[simp] theorem keeps_offerSpans (i : StreamId) (l : List Span) {a s : State} (h : Keeps a s) :
    Keeps a (offerSpans i l s).2 := by
  induction l generalizing s with
  | nil => exact h
  | cons sp l ih => exact ih (keeps_offerSpan i sp h)

@[simp] theorem quiet_offerSpans (i : StreamId) (l : List Span) {a s : State} (h : Quiet a s) :
    Quiet a (offerSpans i l s).2 := by
  induction l generalizing s with
  | nil => exact h
  | cons sp l ih =>
    refine ih ?_
    unfold offerSpan
    repeat' split
    all_goals simp [h]

/-- A stream whose staged count is 0 becomes CLOSED. -/
theorem keeps_closed (i : StreamId) {a s t : State} (hq : Quiet s t) (hd : s.streams[i].drained = true) (h : Keeps a t) :
    Keeps a (modStream i (fun st => { st with state := .closed }) t) := by
  refine keeps_modStream_of i _ (fun _ => .inl rfl) (fun _ => sound_modStream i _ rfl rfl fun _ => .inr ?_) h
  unfold Stream.drained at hd
  rw [(hq.streams i).2.2]
  simpa using ((Bool.and_eq_true _ _).mp hd).1

@[simp] theorem keeps_closeComplete (i : StreamId) {a s : State} (h : Keeps a s) : Keeps a (closeComplete i s) := by
  unfold closeComplete
  dsimp only
  split
  · next e =>
    refine keeps_closed i (s := s) (quiet_offerNotice _ ?_) e.2 (keeps_offerNotice _ ?_)
    · split
      · exact quiet_offerSpans i _ (Quiet.refl s)
      · exact Quiet.refl s
    · split
      · exact keeps_offerSpans i _ h
      · exact h
  · exact h

@[simp] theorem keeps_abortComplete (i : StreamId) {a s : State} (h : Keeps a s) : Keeps a (abortComplete i s) := by
  unfold abortComplete
  dsimp only
  split
  · next e => exact keeps_closed i (s := s) (quiet_offerNotice _ (Quiet.refl s)) e.2 (keeps_offerNotice _ h)
  · exact h

/-- The target and the step decided on are steps of the table (R79, R80). -/
theorem stepDecision_lt (rates : List Nat) (w sup limit repositions stable c : Nat) (hc : c < rates.length) :
    (stepDecision limit repositions (target rates w sup) c stable).1 < rates.length := by
  have ht : target rates w sup < rates.length := by
    have := (List.takeWhile_sublist (fun r => decide (r * 2 ^ w ≤ sup)) (l := rates)).length_le
    unfold target
    omega
  unfold stepDecision
  repeat' split
  all_goals dsimp only; omega

@[simp] theorem keeps_windowEnd (n : LaneId) {a s : State} (h : Keeps a s) : Keeps a (windowEnd n s) := by
  unfold windowEnd
  split
  · exact h
  · exact keeps_startWindow n (keeps_modGov_of n _ (sound_modGov n _ (stepDecision_lt _ _ _ _ _ _ _)) h)

@[simp] theorem keeps_countReposition (n : LaneId) {a s : State} (h : Keeps a s) : Keeps a (countReposition n s) := by
  unfold countReposition
  all_goals simp (maxDischargeDepth := 30) [*]

@[simp] theorem keeps_countStarve (n : LaneId) {a s : State} (h : Keeps a s) : Keeps a (countStarve n s) := by
  unfold countStarve
  repeat' split
  all_goals simp (maxDischargeDepth := 30) [*]

end Sys2Proof.Machine
end

