-- ==== Sys2Proof/Laws/KeepsSteps.lean ====
section
/-! SUPPORT. Laws/KeepsSteps.lean: the steps of the part keep the link, the queue of commands and the tables. -/

namespace Sys2Proof.Machine

@[simp] theorem keeps_readAgain (n : LaneId) {a s : State} (h : Keeps a s) : Keeps a (runDue.readAgain n s) := by
  unfold runDue.readAgain
  repeat' split
  all_goals simp (maxDischargeDepth := 30) [h]

@[simp] theorem keeps_runDue (d : Due) {a s : State} (h : Keeps a s) : Keeps a (runDue d s) := by
  cases d <;> simp (maxDischargeDepth := 30) [runDue, h]

@[simp] theorem keeps_refuseSegment (i : StreamId) (r : RefusedReason) (expected : Nat) {a s : State} (h : Keeps a s) : Keeps a (refuseSegment i r expected s) := by
  unfold refuseSegment
  all_goals simp (maxDischargeDepth := 30) [*]

theorem keeps_takeSegment (i : StreamId) (offset : Nat) (data : List Byte) (h1 : 1 ≤ data.length)
    (h2 : data.length ≤ Config.pageBytes) {a s : State} (h : Keeps a s) : Keeps a (takeSegment i offset data s) := by
  unfold takeSegment
  dsimp only
  split
  · exact keeps_refuseSegment _ _ _ h
  · next ho =>
    split
    · exact keeps_refuseSegment _ _ _ h
    · split
      · exact keeps_refuseSegment _ _ _ h
      · split
        · exact keeps_refuseSegment _ _ _ (keeps_modStream i _ (fun _ => .inl rfl) (fun _ => ⟨rfl, rfl, id⟩) h)
        · next hp =>
          refine keeps_placeBytes i data h1 h2 (fun _ e => ho (by rw [e]; decide)) (fun hn => ?_) h
          have hr : pageRoom s.streams[i] s = true := by simpa [hn, -Fin.getElem_fin] using hp
          exact of_decide_eq_true ((Bool.and_eq_true _ _).mp hr).2

theorem markLast_kept (i : StreamId) (m : Mark) (l : List Entry) :
    (markLast i m l).map (fun e => (e.stream, e.raw)) = l.map fun e => (e.stream, e.raw) := by
  induction l with
  | nil => rfl
  | cons e l ih =>
    unfold markLast
    split
    · rfl
    · rw [List.map_cons, List.map_cons, ih]

@[simp] theorem keeps_flushMark (i : StreamId) {a s : State} (h : Keeps a s) : Keeps a (flushMark i s) := by
  unfold flushMark
  split
  · refine keeps_modCmp _ (sound_marks _ ?_ rfl) h
    simp only [Compressor.entries, List.map_append, markLast_kept]
  · refine keeps_modCmp _ (sound_marks _ ?_ ?_) h
    · cases e : s.cmp.engine with
      | none => simp only [Compressor.entries, e, Option.map_none]
      | some t =>
        simp only [Compressor.entries, e, Option.map_some]
        split <;> simp
    · cases s.cmp.engine with
      | none => rfl
      | some t =>
        simp only [Option.map_some]
        split <;> rfl

/-- The end entry of a stream that is not CLOSED (R15). -/
theorem keeps_addEnd (i : StreamId) {a s : State} (hc : Good a → s.streams[i].state ≠ .closed) (h : Keeps a s) :
    Keeps a (addEnd i s) :=
  ⟨h.1, h.2, h.3, h.4, h.5, h.6, h.7, h.8, h.9, h.10, h.11, h.12, h.13, h.14,
    fun b => chunks_modStream i _ (fun _ => .inl rfl) (h.15 b),
    fun g => sound_stage _ _ (fun b e => by cases e) rfl rfl (hc g) (h.16 g)⟩

/-- The chunks of a stream leave the ready list, and its staged count falls with them (R16). -/
theorem sound_dropped (i : StreamId) {s : State} (h : Sound s) :
    Sound (modStream i (fun st => { st with
        openChunk := none, staged := st.staged - (s.cmp.ready.filter fun e => decide (e.stream = i)).length })
      (modCmp (fun c => { c with ready := c.ready.filter fun e => decide (e.stream ≠ i) }) s)) := by
  obtain ⟨q, p, ⟨e1, e2, e3⟩, r, rest⟩ := h
  have count : ∀ j : StreamId, ((s.cmp.ready.filter fun e => decide (e.stream ≠ i)).countP fun e => decide (e.stream = j)) =
      if j = i then 0 else s.cmp.ready.countP fun e => decide (e.stream = j) := fun j => by
    rw [List.countP_filter]
    split
    · next e => subst e; simp
    · next e =>
      refine congrArg (List.countP · s.cmp.ready) (funext fun x => ?_)
      by_cases hx : x.stream = j
      · simp [hx, e]
      · simp [hx]
  have staged : ∀ j : StreamId, (upd s.streams i fun st => { st with
      openChunk := none, staged := st.staged - (s.cmp.ready.filter fun e => decide (e.stream = i)).length })[j].staged =
      ((s.cmp.ready.filter fun e => decide (e.stream ≠ i)) ++ (s.cmp.engine.map Taken.entry).toList).countP fun e =>
        decide (e.stream = j) := fun j => by
    have ej := e2 j
    simp only [Compressor.entries, List.countP_append] at ej ⊢
    rw [count]
    by_cases hj : j = i
    · subst hj
      rw [upd_same, if_pos rfl]
      show s.streams[j].staged - _ = _
      rw [ej, List.countP_eq_length_filter (l := s.cmp.ready)]
      omega
    · rw [upd_other _ _ _ _ hj, if_neg hj, ej]
  refine ⟨q, p, ⟨fun x hx => e1 x ?_, staged, fun j hj => ?_⟩, fun t ht => ?_, rest⟩
  · rcases List.mem_append.mp hx with hx | hx
    · exact List.mem_append_left _ (List.mem_of_mem_filter hx)
    · exact List.mem_append_right _ hx
  · have hj : (upd s.streams i fun st => { st with
        openChunk := none, staged := st.staged - (s.cmp.ready.filter fun e => decide (e.stream = i)).length })[j].state =
        .closed := hj
    rw [upd_figure _ _ _ _ Stream.state rfl] at hj
    have zero := e3 j hj
    show (upd s.streams i _)[j].staged = 0
    rw [upd_get]
    split
    · next e => subst e; show s.streams[j].staged - _ = 0; omega
    · exact zero
  · exact (stands_lane (s := s) _ _ (upd_figure _ _ _ _ Stream.lane rfl)).2 (r t ht)

@[simp] theorem keeps_dropChunks (i : StreamId) {a s : State} (h : Keeps a s) : Keeps a (dropChunks i s) :=
  keeps_freeIngest _ ⟨h.1, h.2, h.3, h.4, h.5, h.6, h.7, h.8, h.9, h.10, h.11, h.12, h.13, h.14,
    fun b => chunks_modStream i _ (fun _ => .inr rfl) (h.15 b), fun g => sound_dropped i (h.16 g)⟩

@[simp] theorem keeps_sealAge (n : LaneId) {a s : State} (h : Keeps a s) : Keeps a (sealAge n s) := by
  unfold sealAge
  repeat' split
  all_goals simp (maxDischargeDepth := 30) [*]

@[simp] theorem keeps_drivePresent (n : LaneId) (cartridge : Bool) {a s : State} (h : Keeps a s) : Keeps a (drivePresent n cartridge s) := by
  unfold drivePresent
  split
  · exact h
  · next e =>
    have idle : Calm a n s := fun g => (h.16 g).idle n (by rw [Decidable.not_not.mp e]; decide)
    split
    · exact keeps_threadIfPlaced n idle h
    · exact keeps_setLaneState n _ (.inr idle) h

@[simp] theorem keeps_driveAbsent (n : LaneId) {a s : State} (h : Keeps a s) : Keeps a (driveAbsent n s) := by
  unfold driveAbsent
  repeat' split
  all_goals simp (maxDischargeDepth := 30) [*]

@[simp] theorem keeps_threadDone (n : LaneId) {a s : State} (h : Keeps a s) : Keeps a (threadDone n s) := by
  unfold threadDone
  (try dsimp only)
  repeat' split
  all_goals simp (maxDischargeDepth := 30) [*]

@[simp] theorem keeps_threadFail (n : LaneId) (r : FailReason) {a s : State} (h : Keeps a s) : Keeps a (threadFail n r s) := by
  unfold threadFail
  repeat' split
  all_goals simp (maxDischargeDepth := 30) [*]

@[simp] theorem keeps_locatedRead (n : LaneId) (b : Nat) {a s : State} (hw : Calm a n s) (h : Keeps a s) :
    Keeps a (locatedRead n b s) := by
  unfold locatedRead
  (try dsimp only)
  repeat' split
  all_goals simp (maxDischargeDepth := 30) [*]

@[simp] theorem keeps_locatedWrite (n : LaneId) {a s : State} (hw : Calm a n s) (h : Keeps a s) :
    Keeps a (locatedWrite n s) := by
  unfold locatedWrite
  (try dsimp only)
  repeat' split
  all_goals simp (maxDischargeDepth := 30) [*]

@[simp] theorem keeps_locateDone (n : LaneId) {a s : State} (h : Keeps a s) : Keeps a (locateDone n s) := by
  unfold locateDone
  (try dsimp only)
  repeat' split
  all_goals simp (maxDischargeDepth := 30) [*]

@[simp] theorem keeps_locateFail (n : LaneId) (r : FailReason) {a s : State} (h : Keeps a s) : Keeps a (locateFail n r s) := by
  unfold locateFail
  repeat' split
  all_goals simp (maxDischargeDepth := 30) [*]

/-- WRITE and STEP are in flight on a WRITING lane only, and WRITE with a catalog place held. -/
theorem Sound.inFlight {s : State} (h : Sound s) {n : LaneId} {c : DriveCommand} (hc : inFlight n s = some c) :
    (c.ofWriting = true → s.lanes[n].state = .writing) ∧ (c.isWrite = true → s.cat.places[n] = true) := by
  have l := h.lane n
  unfold Machine.inFlight at hc
  cases e : s.lanes[n].command with
  | none => rw [e] at hc; cases hc
  | some f =>
    rw [e] at hc
    cases hc
    exact ⟨fun x => l.1 (by rw [e]; exact x), fun x => l.2.1 (by rw [e]; exact x)⟩

theorem state_clearCommand (n : LaneId) (s : State) : (clearCommand n s).lanes[n].state = s.lanes[n].state :=
  upd_figure s.lanes n n _ Lane.state rfl

/-- A commit leaves the lane's state. -/
theorem state_commitHead (n : LaneId) (b : Nat) (s : State) : (commitHead n b s).lanes[n].state = s.lanes[n].state := by
  have runs : ∀ (i : CartId) (l : List Run) (t : State), (forEach l (commitRun i b) t).lanes = t.lanes := by
    intro i l
    unfold forEach
    induction l with
    | nil => exact fun _ => rfl
    | cons r l ih =>
      intro t
      refine (ih _).trans ?_
      show (commitRun i b r t).lanes = t.lanes
      unfold commitRun checkComplete
      repeat' split
      all_goals rfl
  have entry : ∀ i l rs, (insertEntry n i l b rs (commitRecord i s)).lanes = s.lanes := by
    intro i l rs
    unfold insertEntry offerNotice commitRecord
    dsimp only
    repeat' split
    all_goals rfl
  have locate : ∀ t, (setNeedsLocate n false t).lanes = t.lanes := fun t => by
    unfold setNeedsLocate
    split <;> rfl
  have empty : ∀ t, (reportEmpty n t).lanes = t.lanes := fun t => by
    unfold reportEmpty
    split <;> rfl
  unfold commitHead
  split
  · show (countDelivered n (reportEmpty n _)).lanes[n].state = _
    unfold countDelivered
    show (reportEmpty n _).lanes[n].state = _
    rw [empty]
    show (forEach _ _ (setNeedsLocate n false _)).lanes[n].state = _
    rw [runs, locate]
    refine (upd_figure (insertEntry n _ _ b _ (commitRecord _ s)).lanes n n _ Lane.state rfl).trans ?_
    rw [entry]
  · rfl

theorem state_earlyWarning (n : LaneId) (flag : Bool) (s : State) :
    (earlyWarning n flag s).lanes[n].state = s.lanes[n].state := by
  unfold earlyWarning
  repeat' split
  · exact upd_figure s.lanes n n _ Lane.state rfl
  · exact upd_figure s.lanes n n _ Lane.state rfl
  · rfl

@[simp] theorem keeps_writeDone (n : LaneId) (early : Bool) {a s : State} (h : Keeps a s) : Keeps a (writeDone n early s) := by
  unfold writeDone
  split
  · next b e =>
    refine keeps_continueWriting n (fun g => ?_) ?_ (keeps_earlyWarning n early (keeps_commitHead n b (fun g => ?_)
      calm_clearCommand (keeps_clearCommand n h)))
    · rw [state_earlyWarning, state_commitHead, state_clearCommand]
      exact ((h.16 g).inFlight e).1 rfl
    · exact (quiet_earlyWarning n early (quiet_commitHead n b (Quiet.refl _))).stillCalm calm_clearCommand
    · exact ((h.16 g).inFlight e).2 rfl
  · exact h

@[simp] theorem keeps_writeMediaEnd (n : LaneId) {a s : State} (h : Keeps a s) : Keeps a (writeMediaEnd n s) := by
  unfold writeMediaEnd
  split
  · refine keeps_endCartridge n ((quiet_releasePlace n (Quiet.refl _)).stillCalm calm_clearCommand) ?_
    exact keeps_releasePlace n calm_clearCommand (keeps_clearCommand n (keeps_modLane n _ (by simp) h))
  · exact h

@[simp] theorem keeps_writeFail (n : LaneId) {a s : State} (h : Keeps a s) : Keeps a (writeFail n s) := by
  unfold writeFail
  (try dsimp only)
  repeat' split
  all_goals simp (maxDischargeDepth := 30) [*]

@[simp] theorem keeps_tellReader (n : LaneId) (read : Option (List Byte)) {a s : State} (h : Keeps a s) : Keeps a (tellReader n read s) := by
  unfold tellReader
  repeat' split
  all_goals simp (maxDischargeDepth := 30) [*]

@[simp] theorem quiet_tellReader (n : LaneId) (read : Option (List Byte)) {a s : State} (h : Quiet a s) :
    Quiet a (tellReader n read s) := by
  unfold tellReader
  repeat' split
  all_goals simp (maxDischargeDepth := 30) [*]

@[simp] theorem keeps_readAnswered (n : LaneId) (position : Option Nat) (read : Option (List Byte)) {a s : State} (h : Keeps a s) : Keeps a (readAnswered n position read s) := by
  unfold readAnswered
  refine keeps_post _ (keeps_finishRelease n ?_ (keeps_tellReader n read (keeps_clearCommand n
    (keeps_modLane n _ (by simp) h))))
  exact (quiet_tellReader n read (Quiet.refl _)).stillCalm calm_clearCommand

@[simp] theorem keeps_readDone (n : LaneId) (block : List Byte) {a s : State} (h : Keeps a s) : Keeps a (readDone n block s) := by
  unfold readDone
  repeat' split
  all_goals simp (maxDischargeDepth := 30) [*]

@[simp] theorem keeps_readFail (n : LaneId) (r : FailReason) {a s : State} (h : Keeps a s) : Keeps a (readFail n r s) := by
  unfold readFail
  repeat' split
  all_goals simp (maxDischargeDepth := 30) [*]

@[simp] theorem keeps_stepDone (n : LaneId) {a s : State} (h : Keeps a s) : Keeps a (stepDone n s) := by
  unfold stepDone
  split
  · next k e =>
    refine keeps_sendHead n (fun g => ?_) calm_clearCommand (keeps_clearCommand n (keeps_modLane n _ (by simp) h))
    rw [state_clearCommand]
    refine (upd_figure s.lanes n n _ Lane.state rfl).trans (((h.16 g).inFlight e).1 rfl)
  · exact h

@[simp] theorem keeps_stepFail (n : LaneId) {a s : State} (h : Keeps a s) : Keeps a (stepFail n s) := by
  unfold stepFail
  repeat' split
  all_goals simp (maxDischargeDepth := 30) [*]

@[simp] theorem keeps_fillTest (n : LaneId) {a s : State} (h : Keeps a s) : Keeps a (fillTest n s) := by
  unfold fillTest
  repeat' split
  all_goals simp (maxDischargeDepth := 30) [*]

@[simp] theorem keeps_ejectDone (n : LaneId) {a s : State} (h : Keeps a s) : Keeps a (ejectDone n s) := by
  unfold ejectDone
  (try dsimp only)
  repeat' split
  all_goals simp (maxDischargeDepth := 30) [*]

@[simp] theorem keeps_ejectFail (n : LaneId) (r : FailReason) {a s : State} (h : Keeps a s) : Keeps a (ejectFail n r s) := by
  unfold ejectFail
  repeat' split
  all_goals simp (maxDischargeDepth := 30) [*]

@[simp] theorem keeps_commandTimeout (n : LaneId) {a s : State} (h : Keeps a s) : Keeps a (commandTimeout n s) := by
  unfold commandTimeout
  repeat' split
  all_goals simp (maxDischargeDepth := 30) [*]

@[simp] theorem keeps_windowExpiry (n : LaneId) {a s : State} (h : Keeps a s) : Keeps a (windowExpiry n s) := by
  unfold windowExpiry
  repeat' split
  all_goals simp (maxDischargeDepth := 30) [*]

@[simp] theorem keeps_setRole (r : Vector Role 4) (n : LaneId) {a s : State} (h : Keeps a s) : Keeps a (setRole r n s) := by
  unfold setRole
  repeat' split
  all_goals simp (maxDischargeDepth := 30) [*]

@[simp] theorem keeps_afterWrite (i : CartId) (old : Option Cart) (c : Cart) {a s : State} (h : Keeps a s) : Keeps a (afterWrite i old c s) := by
  unfold afterWrite
  (try dsimp only)
  repeat' split
  all_goals simp (maxDischargeDepth := 30) [*]

@[simp] theorem keeps_settingTests (n : SettingName) {a s : State} (h : Keeps a s) : Keeps a (settingTests n s) := by
  cases n
  case streamChunks => exact keeps_checkAllResumes h
  case sealAge => exact keeps_forEach _ _ (fun n _ => keeps_sealAge n) h
  case resumeMark => exact keeps_forEach _ _ (fun n _ => keeps_post _) h
  case devLimit => exact keeps_limitTest h
  all_goals exact h

@[simp] theorem keeps_travelStep  {a s : State} (h : Keeps a s) : Keeps a (travelStep s) := by
  unfold travelStep
  repeat' split
  all_goals simp (maxDischargeDepth := 30) [*]

@[simp] theorem keeps_homingStep (homeActive : Bool) {a s : State} (h : Keeps a s) : Keeps a (homingStep homeActive s) := by
  unfold homingStep
  (try dsimp only)
  repeat' split
  all_goals simp (maxDischargeDepth := 30) [*]

@[simp] theorem keeps_countedPosition (x : Nat) {a s : State} (h : Keeps a s) : Keeps a (countedPosition x s).2 := by
  have hd : Keeps a (countedPosition.draw s).2 :=
    ⟨h.1, h.2, h.3, h.4, h.5, h.6, h.7, h.8, h.9, h.10, h.11, h.12, h.13, h.14, h.15,
      h.16⟩
  unfold countedPosition
  repeat' split
  all_goals first | exact h | exact hd

@[simp] theorem keeps_encoderCount  {a s : State} (h : Keeps a s) : Keeps a (encoderCount s) := by
  unfold encoderCount
  (try dsimp only)
  repeat' split
  all_goals simp (maxDischargeDepth := 30) [*]

@[simp] theorem keeps_probeDone (occupied : Bool) {a s : State} (h : Keeps a s) : Keeps a (probeDone occupied s) := by
  unfold probeDone
  repeat' split
  all_goals simp (maxDischargeDepth := 30) [*]

@[simp] theorem keeps_getDone  {a s : State} (h : Keeps a s) : Keeps a (getDone s) := by
  unfold getDone
  repeat' split
  all_goals simp (maxDischargeDepth := 30) [*]

@[simp] theorem keeps_putDone  {a s : State} (h : Keeps a s) : Keeps a (putDone s) := by
  unfold putDone
  repeat' split
  all_goals simp (maxDischargeDepth := 30) [*]

@[simp] theorem keeps_gripTimeout {a s : State} (h : Keeps a s) : Keeps a (gripTimeout s) := by
  have he : Keeps a (gripTimeout.expire s) := by
    unfold gripTimeout.expire
    split
    · exact keeps_loaderFault _ h
    · exact h
  unfold gripTimeout
  repeat' split
  all_goals first | exact h | exact he

@[simp] theorem keeps_heldSensorChange (held : Bool) {a s : State} (h : Keeps a s) : Keeps a (heldSensorChange held s) := by
  unfold heldSensorChange
  repeat' split
  all_goals simp (maxDischargeDepth := 30) [*]

@[simp] theorem keeps_doorSensorChange (isOpen : Bool) {a s : State} (h : Keeps a s) : Keeps a (doorSensorChange isOpen s) := by
  unfold doorSensorChange
  repeat' split
  all_goals simp (maxDischargeDepth := 30) [*]

@[simp] theorem keeps_mailSlotSensorChange (m : Fin 2) (present : Bool) {a s : State} (h : Keeps a s) : Keeps a (mailSlotSensorChange m present s) := by
  have k := keeps_modLdr (fun d => { d with mailSensors := upd d.mailSensors m fun _ => present }) h
  unfold mailSlotSensorChange
  split
  · exact h
  · dsimp only
    split
    · split
      · exact k
      · next i e => exact keeps_moveRecord i _ (fun g => (k.16 g).named _ i e) k
    · exact k

@[simp] theorem keeps_cancelPass (n : LaneId) {a s : State} (h : Keeps a s) : Keeps a (cancelPass n s) := by
  unfold cancelPass
  repeat' split
  all_goals simp (maxDischargeDepth := 30) [*]

@[simp] theorem keeps_setArmed (mask : BitVec 8) (b : Bool) {a s : State} (h : Keeps a s) :
    Keeps a (setArmed mask b s) := by
  refine keeps_forEach _ _ (fun i t ht => ?_) h
  split
  · exact keeps_modTtu _ (fun _ => rfl) ht
  · exact ht

@[simp] theorem keeps_emptySlotOf (i : Fin 8) {a s : State} (h : Keeps a s) : Keeps a (emptySlotOf i s) := by
  unfold emptySlotOf
  all_goals simp (maxDischargeDepth := 30) [*]

end Sys2Proof.Machine
end

