-- ==== Sys2Proof/Laws/Frames.lean ====
section
/-! SUPPORT. Laws/Frames.lean: what a frame can do when it is taken: at most one reply, and no other change of the link. -/

namespace Sys2Proof.Machine

/-- State `s` follows from state `a` by what a frame does when it is taken, with `k` replies formed so far. -/
structure Framed (k : Nat) (a s : State) : Prop where
  pending : s.pending = a.pending
  replies : ∃ l, l.length ≤ k ∧ s.link.replies = a.link.replies ++ l ∧
    (s.link.resetReply ≠ a.link.resetReply → l ≠ [])
  sending : s.link.sending = a.link.sending
  credit : s.link.credit = a.link.credit
  waiting : s.link.waiting = a.link.waiting
  settings : a.settings.ok = true → s.settings.ok = true
  speed : speedOk a.tables.speed = true → speedOk s.tables.speed = true
  ramp : rampOk a.tables.ramp = true → rampOk s.tables.ramp = true
  time : s.ttu.time = a.ttu.time
  notices : a.link.notices.length ≤ Config.noticeRoom → s.link.notices.length ≤ Config.noticeRoom
  mounts : a.mounts.length ≤ Config.mountRoom → s.mounts.length ≤ Config.mountRoom
  verifies : a.vfy.queue.length ≤ Config.mountRoom → s.vfy.queue.length ≤ Config.mountRoom
  restores : a.rse.queue.length ≤ Config.restoreRoom → s.rse.queue.length ≤ Config.restoreRoom
  chunks : chunksOk a → chunksOk s
  sound : Good a → Sound s

variable {k : Nat} {a s t : State}

/-- Internal work before any reply. -/
theorem Keeps.framed (h : Keeps a s) : Framed 0 a s :=
  ⟨h.1, ⟨[], Nat.le_refl 0, by simp [h.2], fun e => absurd h.6 e⟩, h.4, h.5, h.7, by rw [h.8]; exact id,
    by rw [h.9]; exact id, by rw [h.9]; exact id, h.10, h.11, h.12, h.13, h.14, h.15, h.16⟩

/-- Internal work goes on. -/
theorem Framed.andThen (h : Framed k a s) (w : Keeps s t) : Framed k a t := by
  obtain ⟨l, hl, hr, hx⟩ := h.2
  exact ⟨w.1.trans h.1, ⟨l, hl, w.2.trans hr, by rw [w.6]; exact hx⟩, w.4.trans h.3, w.5.trans h.4, w.7.trans h.5,
    by rw [w.8]; exact h.6, by rw [w.9]; exact h.7, by rw [w.9]; exact h.8, w.10.trans h.9, w.11 ∘ h.10, w.12 ∘ h.11,
    w.13 ∘ h.12, w.14 ∘ h.13, w.15 ∘ h.14, fun g => w.16 ⟨h.14 g.1, h.15 g⟩⟩

theorem Framed.mono {j : Nat} (h : Framed k a s) (hk : k ≤ j) : Framed j a s := by
  obtain ⟨l, hl, hr, hx⟩ := h.2
  exact ⟨h.1, ⟨l, hl.trans hk, hr, hx⟩, h.3, h.4, h.5, h.6, h.7, h.8, h.9, h.10, h.11, h.12, h.13, h.14, h.15⟩

/-- A reply is formed. -/
theorem Framed.answer (h : Framed k a s) (hd : Hdr) (code : Nat) (st : Status) (body : ReplyBody) :
    Framed (k + 1) a (answer hd code st body s) := by
  obtain ⟨l, hl, hr, hx⟩ := h.2
  refine ⟨h.1, ⟨l ++ [Reply.mk hd.tag hd.subject code st body], ?_, ?_, ?_⟩, h.3, h.4, h.5, h.6, h.7, h.8, h.9,
    h.10, h.11, h.12, h.13, h.14, h.15⟩
  · simpa using hl
  · simp [Machine.answer, hr]
  · simp

@[simp] theorem framed_answer (hd : Hdr) (code : Nat) (st : Status) (body : ReplyBody) (h : Keeps a s) :
    Framed 1 a (answer hd code st body s) := h.framed.answer hd code st body

@[simp] theorem framed_refuse (hd : Hdr) (code : Nat) (st : Status) (h : Keeps a s) :
    Framed 1 a (refuse hd code st s) := framed_answer hd code st .none h

@[simp] theorem framed_post (d : Due) (h : Framed k a s) : Framed k a (post d s) :=
  h.andThen (keeps_post d (Keeps.refl s))

@[simp] theorem framed_offerNotice (b : NoticeBody) (h : Framed k a s) : Framed k a (offerNotice b s) :=
  h.andThen (keeps_offerNotice b (Keeps.refl s))

@[simp] theorem framed_abortComplete (i : StreamId) (h : Framed k a s) : Framed k a (abortComplete i s) :=
  h.andThen (keeps_abortComplete i (Keeps.refl s))

@[simp] theorem framed_sendEject (n : LaneId) (h : Framed k a s) : Framed k a (sendEject n s) :=
  h.andThen (keeps_sendEject n (Keeps.refl s))

@[simp] theorem framed_laneReset (n : LaneId) (h : Framed k a s) : Framed k a (laneReset n s) :=
  h.andThen (keeps_laneReset n (Keeps.refl s))

@[simp] theorem framed_modLane (n : LaneId) (f : Lane → Lane) (hf : ∀ l p, l.ok p → (f l).ok p) (h : Framed k a s) :
    Framed k a (modLane n f s) := h.andThen (keeps_modLane n f hf (Keeps.refl s))

@[simp] theorem framed_modGov (n : LaneId) (f : Governor → Governor) (hf : ∀ g, (f g).step ≤ g.step)
    (h : Framed k a s) : Framed k a (modGov n f s) := h.andThen (keeps_modGov n f hf (Keeps.refl s))

@[simp] theorem framed_checkAllResumes (h : Framed k a s) : Framed k a (checkAllResumes s) :=
  h.andThen (keeps_checkAllResumes (Keeps.refl s))

@[simp] theorem framed_homed (h : Framed k a s) : Framed k a (homed s) :=
  h.andThen (keeps_homed (Keeps.refl s))

@[simp] theorem framed_loaderStop (m : StopMode) (h : Framed k a s) : Framed k a (loaderStop m s) :=
  h.andThen (keeps_loaderStop m (Keeps.refl s))

@[simp] theorem framed_modLdr (f : Loader → Loader) (h : Framed k a s) : Framed k a (modLdr f s) :=
  h.andThen (keeps_modLdr f (Keeps.refl s))

@[simp] theorem framed_loaderReset (h : Framed k a s) : Framed k a (loaderReset s) :=
  h.andThen (keeps_loaderReset (Keeps.refl s))

@[simp] theorem framed_afterWrite (i : CartId) (old : Option Cart) (c : Cart) (h : Framed k a s) : Framed k a (afterWrite i old c s) :=
  h.andThen (keeps_afterWrite i old c (Keeps.refl s))

@[simp] theorem framed_writeTestFor (i : CartId) (h : Framed k a s) : Framed k a (writeTestFor i s) :=
  h.andThen (keeps_writeTestFor i (Keeps.refl s))

@[simp] theorem framed_askPickFor (i : CartId) (h : Framed k a s) : Framed k a (askPickFor i s) :=
  h.andThen (keeps_askPickFor i (Keeps.refl s))

@[simp] theorem framed_modRecord (i : CartId) (f : Cart → Cart) (hf : ∀ c, (f c).location = c.location ∧ (c.ok → (f c).ok))
    (h : Framed k a s) : Framed k a (modRecord i f s) := h.andThen (keeps_modRecord i f hf (Keeps.refl s))

@[simp] theorem framed_dropRecord (i : CartId) (h : Framed k a s) : Framed k a (dropRecord i s) :=
  h.andThen (keeps_dropRecord i (Keeps.refl s))

/-- A request that joins the mount queue after its reply. -/
@[simp] theorem framed_enqueueMount (m : MountRequest) (hr : s.mounts.length < Config.mountRoom) (h : Framed k a s) :
    Framed k a (enqueueMount m s) := h.andThen (keeps_enqueueMount m hr (Keeps.refl s))

theorem framed_forEach {α : Type} (l : List α) (f : α → State → State) (hf : ∀ x t, Keeps t (f x t)) (h : Framed k a s) :
    Framed k a (forEach l f s) :=
  h.andThen (keeps_forEach l f (fun x t w => w.trans (hf x t)) (Keeps.refl s))

@[simp] theorem keeps_joinVerify (r : VerifyRequest) (hr : s.vfy.queue.length < Config.mountRoom) (h : Keeps a s) :
    Keeps a (joinVerify r s) := by
  refine keeps_post _ ⟨h.1, h.2, h.3, h.4, h.5, h.6, h.7, h.8, h.9, h.10, h.11, h.12, fun _ => ?_, h.14, h.15,
    h.16⟩
  simp only [modVfy, List.length_append, List.length_cons, List.length_nil]
  omega

/-! ## The frames -/

theorem framed_segment (h : Hdr) (offset : Nat) (data : List Byte) (s : State) :
    Framed 1 s (segment h offset data s) := by
  have w := Keeps.refl s
  have hc : Framed 1 s (segment.countSeg s) :=
    ⟨rfl, ⟨[], by simp, by simp [segment.countSeg, modLink], fun e => absurd rfl e⟩, rfl, rfl, rfl, id, id, id, rfl, id, id,
      id, id, id, And.right⟩
  unfold segment
  repeat' split
  all_goals first | exact hc | exact (keeps_takeSegment _ _ _ (by omega) (by omega) w).framed.mono (by omega)

/-- A CLOSED stream is opened on a lane: it has nothing staged, so no reservation is of it. -/
theorem sound_openedStream (i : StreamId) (p : Fin 8) (n : LaneId) (c : StreamClass) (v : Bool)
    (hs : s.streams[i].state = .closed) (h : Sound s) : Sound (modStream i (openedStream p n c v) s) := by
  obtain ⟨q, pl, ⟨e1, e2, e3⟩, r, rest⟩ := h
  have zero := e3 i hs
  have staged : ∀ j : StreamId, (upd s.streams i (openedStream p n c v))[j].staged = s.streams[j].staged := fun j => by
    rw [upd_get]
    split
    · next e => subst e; exact zero.symm
    · rfl
  refine ⟨q, pl, ⟨e1, fun j => (staged j).trans (e2 j), fun j hj => ?_⟩, fun t ht => ?_, rest⟩
  · by_cases e : j = i
    · subst e; exact (staged j).trans zero
    · have hj : (upd s.streams i (openedStream p n c v))[j].state = .closed := hj
      rw [upd_other _ _ _ _ e] at hj
      exact (staged j).trans (e3 j hj)
  · have ht : s.cmp.engine = some t := ht
    have ne : t.entry.stream ≠ i := fun e => by
      have count := e2 i
      rw [zero, Compressor.entries, ht] at count
      simp [e] at count
    exact (stands_lane (s := s) _ _ (congrArg Stream.lane (upd_other _ _ _ _ ne))).2 (r t ht)

theorem framed_openStream (h : Hdr) (pool cls verify : Nat) (s : State) : Framed 1 s (openStream h pool cls verify s) := by
  have w := Keeps.refl s
  unfold openStream
  repeat' (first | split | dsimp only)
  all_goals first
    | exact framed_refuse _ _ _ w
    | exact framed_answer _ _ _ _ (keeps_modStream_of _ _ (fun _ => .inr rfl)
        (fun _ => sound_openedStream _ _ _ _ _ (Decidable.not_not.mp ‹_›)) w)

/-- A stream whose state has just been set is in that state. -/
theorem state_modStream (i : StreamId) (f : Stream → Stream) (st : StreamState) (s : State)
    (hf : ∀ x, (f x).state = st) : (modStream i f s).streams[i].state = st := by
  show (upd s.streams i f)[i].state = st
  rw [upd_same, hf]

theorem framed_flushStream (h : Hdr) (s : State) : Framed 1 s (flushStream h s) := by
  have w := Keeps.refl s
  have go : ∀ i, Keeps s (modStream i (fun st => { st with state := .flushing }) s) := fun i =>
    keeps_modStream i _ (fun _ => .inl rfl) (fun _ => ⟨rfl, rfl, fun e => by cases e⟩) w
  have staged : ∀ i, Keeps s (stageChunk i .flush (modStream i (fun st => { st with state := .flushing }) s)) := fun i =>
    keeps_stageChunk i .flush (fun _ e => by rw [state_modStream i _ .flushing _ fun _ => rfl] at e; cases e) (go i)
  unfold flushStream
  repeat' (first | split | dsimp only)
  all_goals simp (maxDischargeDepth := 30) [*]

theorem framed_closeStream (h : Hdr) (s : State) : Framed 1 s (closeStream h s) := by
  unfold closeStream
  split
  · exact framed_refuse _ _ _ (Keeps.refl s)
  · next i _ =>
    dsimp only
    split
    · have go := keeps_modStream i (fun st => { st with state := .closing, paused := false }) (fun _ => .inl rfl)
        (fun _ => ⟨rfl, rfl, fun e => by cases e⟩) (Keeps.refl s)
      have open' : Good s → (modStream i (fun st => { st with state := .closing, paused := false }) s).streams[i].state ≠
          .closed := fun _ e => by rw [state_modStream i _ .closing _ fun _ => rfl] at e; cases e
      split
      · exact framed_answer _ _ _ _ (keeps_stageChunk i .close open' go)
      · exact framed_answer _ _ _ _ (keeps_addEnd i open' go)
    · exact framed_refuse _ _ _ (Keeps.refl s)

theorem framed_abortStream (h : Hdr) (s : State) : Framed 1 s (abortStream h s) := by
  have w := Keeps.refl s
  unfold abortStream
  repeat' (first | split | dsimp only)
  all_goals simp (maxDischargeDepth := 30) [*]

theorem framed_streamQuery (h : Hdr) (s : State) : Framed 1 s (streamQuery h s) := by
  have w := Keeps.refl s
  unfold streamQuery
  repeat' (first | split | dsimp only)
  all_goals simp (maxDischargeDepth := 30) [*]

theorem framed_laneQuery (h : Hdr) (s : State) : Framed 1 s (laneQuery h s) := by
  have w := Keeps.refl s
  unfold laneQuery
  repeat' (first | split | dsimp only)
  all_goals simp (maxDischargeDepth := 30) [*]

theorem framed_laneQueryClear (h : Hdr) (s : State) : Framed 1 s (laneQueryClear h s) := by
  have w := Keeps.refl s
  unfold laneQueryClear
  repeat' (first | split | dsimp only)
  all_goals simp (maxDischargeDepth := 30) [*]

theorem framed_laneEject (h : Hdr) (s : State) : Framed 1 s (laneEject h s) := by
  have w := Keeps.refl s
  unfold laneEject
  repeat' (first | split | dsimp only)
  all_goals simp (maxDischargeDepth := 30) [*]

theorem framed_laneResetRequest (h : Hdr) (s : State) : Framed 1 s (laneResetRequest h s) := by
  have w := Keeps.refl s
  unfold laneResetRequest
  repeat' (first | split | dsimp only)
  all_goals simp (maxDischargeDepth := 30) [*]

/-- New quotas, written while no region holds a page (R39). -/
theorem sound_quotas (a : QuotaArg) (q : Regions) (hq : quotasOf a = some q) (hu : ¬ poolInUse s = true) (h : Sound s) :
    Sound (modPool (fun p => { p with quotas := q }) s) := by
  obtain ⟨-, -, e, r, rest⟩ := h
  have ok : q.quotasOk ∧ ∀ n : LaneId, 16 ≤ q.assembly[n] := by
    unfold quotasOf at hq
    split at hq
    · next c =>
      cases hq
      obtain ⟨c1, c2, c3, c4, c5, c6, c7⟩ := c
      have lanes : ∀ n : LaneId, 16 ≤ (#v[a.lane0, a.lane1, a.lane2, a.lane3] : Vector Nat 4)[n] := fun n =>
        match n with
        | 0 => c2
        | 1 => c3
        | 2 => c4
        | 3 => c5
      refine ⟨⟨c1, lanes, c6, ?_⟩, lanes⟩
      show a.ingest + (a.lane0 + (a.lane1 + (a.lane2 + (a.lane3 + 0)))) + a.read ≤ _
      omega
    · cases hq
  have none : s.pool.held.ingest + s.pool.held.assembly.toList.sum + s.pool.held.read = 0 := by
    unfold poolInUse freePages at hu
    simp only [decide_eq_true_eq, not_not] at hu
    have : Config.poolPages = 2048 := rfl
    omega
  have held : ∀ n : LaneId, s.pool.held.assembly[n] = 0 := fun n => by
    have : s.pool.held.assembly[n] ∈ s.pool.held.assembly.toList := by
      simp [Vector.getElem_mem]
    have := List.le_sum_of_mem this
    omega
  refine ⟨ok.1, ⟨?_, fun n => ?_, ?_⟩, e, fun t ht => ?_, rest⟩
  · show s.pool.held.ingest ≤ _
    omega
  · show s.pool.held.assembly[n] ≤ _
    rw [held]; exact Nat.zero_le _
  · show s.pool.held.read ≤ _
    omega
  · have := r t ht
    unfold roomStands at this ⊢
    split
    · next e => rw [e] at this; exact this
    · refine decide_eq_true ?_
      show s.pool.held.assembly[s.streams[t.entry.stream].lane] + 16 ≤ q.assembly[s.streams[t.entry.stream].lane]
      rw [held]
      exact (Nat.zero_add _).le.trans (ok.2 _)

theorem framed_writePoolSplit (h : Hdr) (quotas : QuotaArg) (s : State) : Framed 1 s (writePoolSplit h quotas s) := by
  unfold writePoolSplit
  split
  · exact framed_refuse _ _ _ (Keeps.refl s)
  · next q hq =>
    split
    · exact framed_refuse _ _ _ (Keeps.refl s)
    · next hu =>
      exact framed_post _ (framed_post _ (framed_checkAllResumes (framed_answer _ _ _ _
        (keeps_modPool_of _ (fun _ => sound_quotas quotas q hq hu) (Keeps.refl s)))))

theorem framed_writeLaneRole (h : Hdr) (r0 r1 r2 r3 : RoleArg) (s : State) :
    Framed 1 s (writeLaneRole h r0 r1 r2 r3 s) := by
  unfold writeLaneRole
  repeat' (first | split | dsimp only)
  all_goals try exact framed_refuse _ _ _ (Keeps.refl s)
  exact framed_post _ (framed_forEach _ _ (fun n t => keeps_setRole _ n (Keeps.refl t))
    (framed_answer _ _ _ _ (Keeps.refl s)))

/-- The record body of a directory write keeps its ranges (R90, R95). -/
theorem ok_recordOf (b : RecordArg) (c : Cart) (h : recordOf b = some c) : c.ok := by
  unfold recordOf at h
  simp only [Option.bind_eq_bind, Option.bind_eq_some_iff] at h
  obtain ⟨_, _, _, _, _, _, _, _, e, he, _, _, h⟩ := h
  split at h
  · next hc =>
    cases h
    refine ⟨hc.2.2.1, hc.2.2.2, ?_⟩
    unfold word32Of at he
    split at he
    · cases he; assumption
    · cases he
  · cases h

theorem framed_writeRecord (h : Hdr) (index : Nat) (body : RecordArg) (s : State) : Framed 1 s (writeRecord h index body s) := by
  have w := Keeps.refl s
  unfold writeRecord
  split
  · next i c _ hc =>
    split
    · exact framed_refuse _ _ _ w
    · next free =>
      split
      · exact framed_refuse _ _ _ w
      · refine framed_afterWrite _ _ _ (framed_answer _ _ _ _ (keeps_putRecord i _ (ok_recordOf body c hc) (fun g j hj => ?_) w))
        obtain ⟨x, hx⟩ := Option.isSome_iff_exists.mp (g.2.named _ _ hj)
        by_contra ne
        refine free ?_
        unfold recordConflicts
        refine List.any_eq_true.mpr ⟨j, List.mem_finRange j, ?_⟩
        have hj : namedAt c.location s = some j := hj
        simp [ne, hx, hj]
  · exact framed_refuse _ _ _ w

theorem framed_removeRecord (h : Hdr) (index : Nat) (s : State) : Framed 1 s (removeRecord h index s) := by
  have w := Keeps.refl s
  unfold removeRecord
  repeat' (first | split | dsimp only)
  all_goals simp (maxDischargeDepth := 30) [*]

theorem framed_readDirectory (h : Hdr) (first count : Nat) (s : State) : Framed 1 s (readDirectory h first count s) := by
  have w := Keeps.refl s
  unfold readDirectory
  repeat' (first | split | dsimp only)
  all_goals simp (maxDischargeDepth := 30) [*]

theorem framed_writeTriggers (h : Hdr) (sets : List TriggerArg) (s : State) : Framed 1 s (writeTriggers h sets s) := by
  unfold writeTriggers
  repeat' (first | split | dsimp only)
  all_goals try exact framed_refuse _ _ _ (Keeps.refl s)
  exact framed_answer _ _ _ _ (keeps_forEach _ _ (fun _ _ w => keeps_modTtu _ (fun _ => rfl) w) (Keeps.refl s))

theorem framed_writeCaptures (h : Hdr) (pairs : List (Nat × SourceArg)) (s : State) : Framed 1 s (writeCaptures h pairs s) := by
  unfold writeCaptures
  repeat' (first | split | dsimp only)
  all_goals try exact framed_refuse _ _ _ (Keeps.refl s)
  exact framed_answer _ _ _ _ (keeps_forEach _ _ (fun _ _ w => keeps_modTtu _ (fun _ => rfl) w) (Keeps.refl s))

theorem framed_writeCompares (h : Hdr) (slots : List CompareArg) (s : State) : Framed 1 s (writeCompares h slots s) := by
  unfold writeCompares
  repeat' (first | split | dsimp only)
  all_goals try exact framed_refuse _ _ _ (Keeps.refl s)
  exact framed_answer _ _ _ _ (keeps_forEach _ _ (fun _ _ w => keeps_modTtu _ (fun _ => rfl) w) (Keeps.refl s))

theorem framed_readSpeed (h : Hdr) (s : State) : Framed 1 s (readSpeed h s) := by
  have w := Keeps.refl s
  unfold readSpeed
  all_goals simp (maxDischargeDepth := 30) [*]

theorem framed_readRamp (h : Hdr) (s : State) : Framed 1 s (readRamp h s) := by
  have w := Keeps.refl s
  unfold readRamp
  all_goals simp (maxDischargeDepth := 30) [*]

theorem framed_readPositions (h : Hdr) (s : State) : Framed 1 s (readPositions h s) := by
  have w := Keeps.refl s
  unfold readPositions
  all_goals simp (maxDischargeDepth := 30) [*]

theorem framed_readPoolSplit (h : Hdr) (s : State) : Framed 1 s (readPoolSplit h s) := by
  have w := Keeps.refl s
  unfold readPoolSplit
  all_goals simp (maxDischargeDepth := 30) [*]

theorem framed_readLaneRole (h : Hdr) (s : State) : Framed 1 s (readLaneRole h s) := by
  have w := Keeps.refl s
  unfold readLaneRole
  all_goals simp (maxDischargeDepth := 30) [*]

theorem framed_readTriggers (h : Hdr) (s : State) : Framed 1 s (readTriggers h s) := by
  have w := Keeps.refl s
  unfold readTriggers
  all_goals simp (maxDischargeDepth := 30) [*]

theorem framed_readCaptures (h : Hdr) (s : State) : Framed 1 s (readCaptures h s) := by
  have w := Keeps.refl s
  unfold readCaptures
  all_goals simp (maxDischargeDepth := 30) [*]

theorem framed_readCompares (h : Hdr) (s : State) : Framed 1 s (readCompares h s) := by
  have w := Keeps.refl s
  unfold readCompares
  all_goals simp (maxDischargeDepth := 30) [*]

theorem framed_readSettings (h : Hdr) (s : State) : Framed 1 s (readSettings h s) := by
  have w := Keeps.refl s
  unfold readSettings
  all_goals simp (maxDischargeDepth := 30) [*]

/-- A directory request that answers by its own checks. -/
theorem framed_withRecord (h : Hdr) (code index : Nat) (f : CartId → Cart → State → State) (s : State)
    (hf : ∀ i c, recordAt i s = some c → Framed 1 s (f i c s)) : Framed 1 s (withRecord h code index f s) := by
  unfold withRecord
  repeat' split
  all_goals first | exact framed_refuse _ _ _ (Keeps.refl s) | exact hf _ _ ‹_›

theorem framed_protect (h : Hdr) (index floor : Nat) (s : State) : Framed 1 s (protect h index floor s) := by
  have w := Keeps.refl s
  unfold protect
  split
  · exact framed_refuse _ _ _ w
  · refine framed_withRecord _ _ _ _ s fun i c hc => framed_answer _ _ _ _ (keeps_modRecord_of i _ (fun x hx => ?_) w)
    rw [hc] at hx; cases hx
    refine ⟨rfl, fun k => ⟨?_, k.2⟩⟩
    exact max_le k.1 (Nat.min_le_right _ _)

theorem framed_setWorm (h : Hdr) (index : Nat) (s : State) : Framed 1 s (setWorm h index s) := by
  have w := Keeps.refl s
  unfold setWorm
  refine framed_withRecord _ _ _ _ s fun i c _ => ?_
  all_goals simp (maxDischargeDepth := 30) [w]

theorem framed_eraseFrom (h : Hdr) (index block : Nat) (s : State) : Framed 1 s (eraseFrom h index block s) := by
  have w := Keeps.refl s
  unfold eraseFrom
  split
  · exact framed_refuse _ _ _ w
  · next hb =>
    refine framed_withRecord _ _ _ _ s fun i c hc => ?_
    dsimp only
    split
    · exact framed_refuse _ _ _ w
    · next hr =>
      refine framed_writeTestFor _ (framed_answer _ _ _ _ (keeps_removeEntries _ _ (keeps_modRecord_of i _ (fun x hx => ?_) w)))
      rw [hc] at hx; cases hx
      refine ⟨rfl, fun _ => ⟨?_, Nat.min_le_right _ _, Nat.le_of_not_lt hb⟩⟩
      unfold eraseRefusal at hr
      split at hr
      · cases hr
      · split at hr
        · cases hr
        · next hp => exact Nat.le_of_not_lt fun e => hp (.inr e)

theorem framed_recycle (h : Hdr) (index : Nat) (s : State) : Framed 1 s (recycle h index s) := by
  have w := Keeps.refl s
  unfold recycle
  refine framed_withRecord _ _ _ _ s fun i c hc => ?_
  dsimp only
  split
  · exact framed_refuse _ _ _ w
  · next hr =>
    refine framed_askPickFor _ (framed_writeTestFor _ (framed_answer _ _ _ _ (keeps_removeEntries _ _
      (keeps_modRecord_of i _ (fun x hx => ?_) w))))
    rw [hc] at hx; cases hx
    refine ⟨rfl, fun _ => ⟨?_, Nat.le_refl _, Nat.zero_le _⟩⟩
    unfold recycleRefusal at hr
    split at hr
    · cases hr
    · next hp => exact Nat.le_of_not_lt fun e => hp (.inl e)

theorem framed_forget (h : Hdr) (index : Nat) (s : State) : Framed 1 s (forget h index s) := by
  have w := Keeps.refl s
  unfold forget
  refine framed_withRecord _ _ _ _ s fun i c _ => ?_
  repeat' (first | split | dsimp only)
  all_goals simp (maxDischargeDepth := 30) [w]

theorem framed_catQuery (h : Hdr) (s : State) : Framed 1 s (catQuery h s) := by
  have w := Keeps.refl s
  unfold catQuery
  all_goals simp (maxDischargeDepth := 30) [*]

theorem framed_catRead (h : Hdr) (start count : Nat) (s : State) : Framed 1 s (catRead h start count s) := by
  have w := Keeps.refl s
  unfold catRead
  repeat' (first | split | dsimp only)
  all_goals simp (maxDischargeDepth := 30) [*]

theorem framed_catRelease (h : Hdr) (count : Nat) (expected : Option Nat) (s : State) : Framed 1 s (catRelease h count expected s) := by
  have w := Keeps.refl s
  unfold catRelease
  repeat' (first | split | dsimp only)
  · exact framed_refuse _ _ _ w
  · exact framed_refuse _ _ _ w
  · exact framed_answer _ _ _ _ (keeps_keepEntries _ (fun l => by rw [List.length_drop]; exact Nat.sub_le _ _) w)

theorem framed_home (h : Hdr) (homeActive : Bool) (s : State) : Framed 1 s (home h homeActive s) := by
  have w := Keeps.refl s
  unfold home
  repeat' (first | split | dsimp only)
  all_goals simp (maxDischargeDepth := 30) [*]

theorem framed_stop (h : Hdr) (mode : Nat) (s : State) : Framed 1 s (stop h mode s) := by
  have w := Keeps.refl s
  unfold stop
  repeat' (first | split | dsimp only)
  all_goals simp (maxDischargeDepth := 30) [*]

theorem framed_requestMove (h : Hdr) (code : Nat) (i : CartId) (dest : Location) (req : Cart → MountRequest) (s : State) : Framed 1 s (requestMove h code i dest req s) := by
  have w := Keeps.refl s
  unfold requestMove
  repeat' (first | split | dsimp only)
  all_goals first
    | exact framed_refuse _ _ _ w
    | exact framed_enqueueMount _ (by show s.mounts.length < _; omega) (framed_answer _ _ _ _ w)

theorem framed_move (h : Hdr) (index destination : Nat) (s : State) : Framed 1 s (move h index destination s) := by
  unfold move
  repeat' split
  all_goals first
    | exact framed_refuse _ _ _ (Keeps.refl s)
    | exact framed_requestMove _ _ _ _ _ s

theorem framed_exportCart (h : Hdr) (index mailSlot : Nat) (s : State) : Framed 1 s (exportCart h index mailSlot s) := by
  unfold exportCart
  repeat' split
  all_goals first
    | exact framed_refuse _ _ _ (Keeps.refl s)
    | exact framed_requestMove _ _ _ _ _ s

theorem mounts_setPlace (l : Location) (r : Option CartId) (s : State) : (setPlace l r s).mounts = s.mounts := by
  unfold setPlace
  split <;> rfl

theorem mounts_clearPlace (i : CartId) (s : State) : (clearPlace i s).mounts = s.mounts := by
  unfold clearPlace
  split
  · rfl
  · split
    · exact mounts_setPlace _ _ s
    · rfl

theorem mounts_putRecord (i : CartId) (c : Cart) (s : State) : (putRecord i c s).mounts = s.mounts :=
  (mounts_setPlace _ _ _).trans (mounts_clearPlace i s)

theorem framed_importCart (h : Hdr) (mailSlot : Nat) (label : List Byte) (pool slot : Nat) (s : State) :
    Framed 1 s (importCart h mailSlot label pool slot s) := by
  have w := Keeps.refl s
  unfold importCart
  split
  · next m p k _ _ _ =>
    split
    · exact framed_refuse _ _ _ w
    · split
      · exact framed_refuse _ _ _ w
      · next free =>
        have empty : namedAt (.mail m) s = none := by
          cases e : namedAt (.mail m) s with
          | none => rfl
          | some j => rw [e] at free; exact absurd (.inl rfl) free
        split
        · exact framed_refuse _ _ _ w
        · split
          · exact framed_refuse _ _ _ w
          · exact framed_enqueueMount _ (by show (putRecord _ _ s).mounts.length < _; rw [mounts_putRecord]; omega)
              (framed_answer _ _ _ _ (keeps_putRecord _ _ ⟨Nat.le_refl _, Nat.le_refl _, Nat.zero_le _⟩
                (fun _ j hj => by rw [show namedAt (importedRecord label p m k).location s = none from empty] at hj; cases hj) w))
  · exact framed_refuse _ _ _ w

theorem framed_scan (h : Hdr) (s : State) : Framed 1 s (scan h s) := by
  have w := Keeps.refl s
  unfold scan
  repeat' (first | split | dsimp only)
  all_goals first
    | exact framed_refuse _ _ _ w
    | exact framed_enqueueMount _ (by show s.mounts.length < _; omega) (framed_answer _ _ _ _ w)

theorem framed_loaderQuery (h : Hdr) (s : State) : Framed 1 s (loaderQuery h s) := by
  have w := Keeps.refl s
  unfold loaderQuery
  all_goals simp (maxDischargeDepth := 30) [*]

theorem framed_loaderResetRequest (h : Hdr) (s : State) : Framed 1 s (loaderResetRequest h s) := by
  have w := Keeps.refl s
  unfold loaderResetRequest
  all_goals simp (maxDischargeDepth := 30) [*]

theorem framed_verify (h : Hdr) (index first last : Nat) (s : State) : Framed 1 s (verify h index first last s) := by
  have w := Keeps.refl s
  unfold verify
  repeat' (first | split | dsimp only)
  all_goals first
    | exact framed_refuse _ _ _ w
    | exact framed_answer _ _ _ _ (keeps_joinVerify _ (by omega) w)

theorem framed_verifySuspend (h : Hdr) (s : State) : Framed 1 s (verifySuspend h s) := by
  have w := Keeps.refl s
  unfold verifySuspend
  repeat' (first | split | dsimp only)
  all_goals simp (maxDischargeDepth := 30) [*]

theorem framed_verifyResume (h : Hdr) (s : State) : Framed 1 s (verifyResume h s) := by
  have w := Keeps.refl s
  unfold verifyResume
  repeat' (first | split | dsimp only)
  all_goals simp (maxDischargeDepth := 30) [*]

theorem framed_verifyCancel (h : Hdr) (scope value : Nat) (s : State) :
    Framed 1 s (verifyCancel h scope value s) := by
  unfold verifyCancel
  split
  · exact framed_refuse _ _ _ (Keeps.refl s)
  · refine framed_post _ (framed_forEach _ _ (fun n t => keeps_cancelPass n (Keeps.refl t))
      (framed_forEach _ _ (fun r t => keeps_requestNotice r _ (Keeps.refl t)) ?_))
    exact (framed_answer _ _ _ _ (Keeps.refl s)).andThen
      (keeps_modVfy _ (by simpa using List.length_filter_le _ _) (Keeps.refl _))

theorem framed_triggerArm (h : Hdr) (mask : Nat) (s : State) : Framed 1 s (triggerArm h mask s) := by
  have w := Keeps.refl s
  unfold triggerArm
  repeat' (first | split | dsimp only)
  all_goals simp (maxDischargeDepth := 30) [*]

theorem framed_triggerDisarm (h : Hdr) (mask : Nat) (s : State) : Framed 1 s (triggerDisarm h mask s) := by
  have w := Keeps.refl s
  unfold triggerDisarm
  repeat' (first | split | dsimp only)
  all_goals simp (maxDischargeDepth := 30) [*]

theorem framed_triggerFire (h : Hdr) (mask : Nat) (s : State) : Framed 1 s (triggerFire h mask s) := by
  have w := Keeps.refl s
  unfold triggerFire
  repeat' (first | split | dsimp only)
  all_goals simp (maxDischargeDepth := 30) [*]

theorem framed_captureRead (h : Hdr) (mask : Nat) (clear : Bool) (s : State) :
    Framed 1 s (captureRead h mask clear s) := by
  unfold captureRead
  split
  · exact framed_refuse _ _ _ (Keeps.refl s)
  · dsimp only
    split
    · exact framed_forEach _ _ (fun i t => keeps_emptySlotOf i (Keeps.refl t)) (framed_answer _ _ _ _ (Keeps.refl s))
    · exact framed_answer _ _ _ _ (Keeps.refl s)

theorem framed_linesSet (h : Hdr) (mask data : Nat) (s : State) : Framed 1 s (linesSet h mask data s) := by
  have w := Keeps.refl s
  unfold linesSet
  repeat' (first | split | dsimp only)
  all_goals simp (maxDischargeDepth := 30) [*]

theorem framed_compareForce (h : Hdr) (slot : Nat) (s : State) : Framed 1 s (compareForce h slot s) := by
  have w := Keeps.refl s
  unfold compareForce
  repeat' (first | split | dsimp only)
  all_goals simp (maxDischargeDepth := 30) [*]

/-- A change of every governor. -/
theorem each_modGov (f : Governor → Governor) (s : State) :
    ∃ v : Vector Governor 4, forEach allLanes (fun n => modGov n f) s = { s with gov := v } ∧
      ∀ n : LaneId, v[n] = f s.gov[n] := by
  refine ⟨_, rfl, fun n => ?_⟩
  show (upd (upd (upd (upd s.gov 0 f) 1 f) 2 f) 3 f)[n] = _
  match n with
  | 0 => rw [upd_other _ _ _ _ (by decide), upd_other _ _ _ _ (by decide), upd_other _ _ _ _ (by decide), upd_same]
  | 1 => rw [upd_other _ _ _ _ (by decide), upd_other _ _ _ _ (by decide), upd_same, upd_other _ _ _ _ (by decide)]
  | 2 => rw [upd_other _ _ _ _ (by decide), upd_same, upd_other _ _ _ _ (by decide), upd_other _ _ _ _ (by decide)]
  | 3 => rw [upd_same, upd_other _ _ _ _ (by decide), upd_other _ _ _ _ (by decide), upd_other _ _ _ _ (by decide)]

theorem framed_writeSpeed (h : Hdr) (rates : List Nat) (s : State) : Framed 1 s (writeSpeed h rates s) := by
  unfold writeSpeed
  split
  · next hr =>
    have len : 1 ≤ rates.length := by
      unfold speedOk at hr
      simp only [Bool.and_eq_true, decide_eq_true_eq] at hr
      exact hr.1.1.1
    obtain ⟨v, hv, hs⟩ := each_modGov (clampStep (rates.length - 1)) (modTables (fun t => { t with speed := rates }) s)
    rw [hv]
    have step : ∀ n : LaneId, v[n].step < rates.length := fun n => by
      rw [hs]
      unfold clampStep
      split
      · show rates.length - 1 < rates.length
        omega
      · omega
    have w : Framed 0 s { modTables (fun t => { t with speed := rates }) s with gov := v } :=
      ⟨rfl, ⟨[], Nat.le_refl 0, by simp [modTables], fun e => absurd rfl e⟩, rfl, rfl, rfl, id, fun _ => hr, id, rfl, id, id,
        id, id, id, fun g => ⟨g.2.1, g.2.2.1, g.2.2.2.1, g.2.2.2.2.1, g.2.2.2.2.2.1, g.2.2.2.2.2.2.1, g.2.2.2.2.2.2.2.1,
          g.2.2.2.2.2.2.2.2.1, step⟩⟩
    exact w.answer _ _ _ _
  · exact framed_refuse _ _ _ (Keeps.refl s)

theorem framed_writeRamp (h : Hdr) (intervals : List Nat) (s : State) : Framed 1 s (writeRamp h intervals s) := by
  unfold writeRamp
  repeat' split
  all_goals try exact framed_refuse _ _ _ (Keeps.refl s)
  next hr _ =>
    have w : Framed 0 s (modTables (fun t => { t with ramp := intervals }) s) :=
      ⟨rfl, ⟨[], Nat.le_refl 0, by simp [modTables], fun e => absurd rfl e⟩, rfl, rfl, rfl, id, id,
        fun _ => by simpa using hr, rfl, id, id, id, id, id, And.right⟩
    exact w.answer _ _ _ _

theorem framed_setPosition (p : Fin 54 × Option Nat) {k : Nat} {a s : State} (h : Framed k a s) :
    Framed k a (setPosition p s) :=
  ⟨h.1, h.2, h.3, h.4, h.5, h.6, h.7, h.8, h.9, h.10, h.11, h.12, h.13, h.14, h.15⟩

theorem framed_each {α : Type} (l : List α) (f : α → State → State) {k : Nat} {a s : State}
    (hf : ∀ x t, x ∈ l → Framed k a t → Framed k a (f x t)) (h : Framed k a s) : Framed k a (forEach l f s) := by
  unfold forEach
  induction l generalizing s with
  | nil => exact h
  | cons x l ih =>
    exact ih (fun y t hy => hf y t (List.mem_cons_of_mem x hy)) (hf x s List.mem_cons_self h)

theorem framed_writePositions (h : Hdr) (pairs : List (Nat × Option Nat)) (s : State) :
    Framed 1 s (writePositions h pairs s) := by
  unfold writePositions
  repeat' split
  all_goals try exact framed_refuse _ _ _ (Keeps.refl s)
  exact (framed_each _ setPosition (fun p t _ => framed_setPosition p) (Keeps.refl s).framed).answer _ _ _ _

/-- A clamped value lies in its setting's range (R186). -/
theorem inRange_clamp (n : SettingName) (v : Nat) : inRange n (n.clamp v) = true := by
  cases n <;> simp only [inRange, SettingName.clamp, SettingName.range] <;> simp

theorem ok_setSetting (n : SettingName) (v : Nat) (t : Settings) (hv : inRange n v = true) (h : t.ok = true) :
    (setSetting n v t).ok = true := by
  simp only [Settings.ok, Bool.and_eq_true] at h
  cases n <;> simp only [setSetting, Settings.ok, Bool.and_eq_true] <;> simp_all

/-- A settings write that names a known setting clamps its value (R186). -/
theorem inRange_pair {p : Nat × Nat} {q : SettingName × Nat} (h : settingPair p = some q) : inRange q.1 q.2 = true := by
  unfold settingPair at h
  cases e : settingOf p.1 with
  | none => simp [e] at h
  | some n =>
    simp only [e, Option.map_some, Option.some.injEq] at h
    subst h
    exact inRange_clamp n p.2

theorem mapM_inRange (l : List (Nat × Nat)) (ps : List (SettingName × Nat)) (h : l.mapM settingPair = some ps) :
    ∀ q ∈ ps, inRange q.1 q.2 = true := by
  induction l generalizing ps with
  | nil => simp at h; subst h; simp
  | cons p l ih =>
    simp only [List.mapM_cons, Option.bind_eq_bind, Option.bind_eq_some_iff] at h
    obtain ⟨q, hq, qs, hqs, e⟩ := h
    simp only [Option.pure_def, Option.some.injEq] at e
    subst e
    intro x hx
    rcases List.mem_cons.mp hx with rfl | hx
    · exact inRange_pair hq
    · exact ih qs hqs x hx

theorem framed_applySetting (p : SettingName × Nat) (hp : inRange p.1 p.2 = true) {k : Nat} {a s : State}
    (h : Framed k a s) : Framed k a (applySetting p s) := by
  have w : Framed k a (modSettings (setSetting p.1 p.2) s) :=
    ⟨h.1, h.2, h.3, h.4, h.5, fun x => ok_setSetting _ _ _ hp (h.6 x), h.7, h.8, h.9, h.10, h.11, h.12, h.13, h.14,
      h.15⟩
  exact w.andThen (keeps_settingTests p.1 (Keeps.refl _))

theorem framed_writeSettings (h : Hdr) (pairs : List (Nat × Nat)) (s : State) : Framed 1 s (writeSettings h pairs s) := by
  unfold writeSettings
  split
  · exact framed_refuse _ _ _ (Keeps.refl s)
  · next ps hps =>
    have hr : ∀ q ∈ ps, inRange q.1 q.2 = true := by
      unfold readAll at hps
      split at hps
      · cases hps
      · exact mapM_inRange pairs ps hps
    exact framed_each ps applySetting (fun p t hp => framed_applySetting p (hr p hp))
      (framed_answer _ _ _ _ (Keeps.refl s))

theorem framed_restore (h : Hdr) (first last : Nat) (start : Option (Nat × Nat)) (s : State) :
    Framed 1 s (restore h first last start s) := by
  have w := Keeps.refl s
  unfold restore
  repeat' (first | split | dsimp only)
  all_goals try exact framed_refuse _ _ _ w
  next hq =>
    refine framed_answer _ _ _ _ (keeps_post _ ⟨w.1, w.2, w.3, w.4, w.5, w.6, w.7, w.8, w.9, w.10, w.11,
      w.12, w.13, fun _ => ?_, w.15, w.16⟩)
    simp only [modRse, List.length_append, List.length_cons, List.length_nil]
    omega

theorem framed_restoreCancel (h : Hdr) (scope tag : Nat) (s : State) : Framed 1 s (restoreCancel h scope tag s) := by
  have w : ∀ k n, Framed 1 s (forEach (s.rse.queue.filter fun r => inScope k r.tag) queuedRestoreNotice
      (modRse (fun x => { x with queue := x.queue.filter fun r => !inScope k r.tag })
        (answer h 32 .ok (.count n) s))) := fun k n =>
    framed_forEach _ _ (fun r t => keeps_queuedRestoreNotice r (Keeps.refl t))
      ((framed_answer _ _ _ _ (Keeps.refl s)).andThen
        (keeps_modRse _ (by simpa using List.length_filter_le _ _) (Keeps.refl _)))
  unfold restoreCancel
  split
  · exact framed_refuse _ _ _ (Keeps.refl s)
  · next k _ =>
    refine framed_post _ ?_
    by_cases ha : activeInScope k s = true
    · simp only [ha, if_true]
      exact (w k _).andThen (keeps_finishRestore _ (keeps_giveUp true (Keeps.refl _)))
    · simp only [ha]
      exact w k _

theorem framed_statusRequest (h : Hdr) (clear : Bool) (s : State) : Framed 1 s (statusRequest h clear s) :=
  ⟨rfl, ⟨[_], Nat.le_refl 1, rfl, fun e => absurd rfl e⟩, rfl, rfl, rfl, id, id, id, rfl, id, id, id, id, id, And.right⟩

theorem framed_partResetRequest (h : Hdr) (s : State) : Framed 1 s (partResetRequest h s) :=
  ⟨rfl, ⟨[_], Nat.le_refl 1, rfl, fun _ => by simp⟩, rfl, rfl, rfl, id, id, id, rfl, id, id, id, id, id, And.right⟩

theorem framed_unknownReply (h : Hdr) (payload : List Byte) (s : State) : Framed 1 s (unknownReply h payload s) := by
  unfold unknownReply
  split
  · exact framed_refuse _ _ _ (Keeps.refl s)
  · exact framed_refuse _ _ _ (keeps_drawCount (Keeps.refl s))

/-! ## Any frame -/

theorem framed_none (s : State) : Framed 1 s s := (Keeps.refl s).framed.mono (by omega)

theorem framed_frameEffect (c : Instr) (s : State) : Framed 1 s (frameEffect c s) := by
  cases c <;> first
    | exact framed_none s
    | exact framed_segment _ _ _ s
    | exact framed_openStream _ _ _ _ s
    | exact framed_flushStream _ s
    | exact framed_closeStream _ s
    | exact framed_abortStream _ s
    | exact framed_streamQuery _ s
    | exact framed_writeSpeed _ _ s
    | exact framed_writeRamp _ _ s
    | exact framed_writePositions _ _ s
    | exact framed_writePoolSplit _ _ s
    | exact framed_writeLaneRole _ _ _ _ _ s
    | exact framed_writeRecord _ _ _ s
    | exact framed_removeRecord _ _ s
    | exact framed_writeTriggers _ _ s
    | exact framed_writeCaptures _ _ s
    | exact framed_writeCompares _ _ s
    | exact framed_writeSettings _ _ s
    | exact framed_readSpeed _ s
    | exact framed_readRamp _ s
    | exact framed_readPositions _ s
    | exact framed_readPoolSplit _ s
    | exact framed_readLaneRole _ s
    | exact framed_readDirectory _ _ _ s
    | exact framed_readTriggers _ s
    | exact framed_readCaptures _ s
    | exact framed_readCompares _ s
    | exact framed_readSettings _ s
    | exact framed_laneQuery _ s
    | exact framed_laneQueryClear _ s
    | exact framed_laneEject _ s
    | exact framed_laneResetRequest _ s
    | exact framed_home _ _ s
    | exact framed_stop _ _ s
    | exact framed_move _ _ _ s
    | exact framed_exportCart _ _ _ s
    | exact framed_importCart _ _ _ _ _ s
    | exact framed_scan _ s
    | exact framed_loaderQuery _ s
    | exact framed_loaderResetRequest _ s
    | exact framed_protect _ _ _ s
    | exact framed_setWorm _ _ s
    | exact framed_eraseFrom _ _ _ s
    | exact framed_recycle _ _ s
    | exact framed_forget _ _ s
    | exact framed_catQuery _ s
    | exact framed_catRead _ _ _ s
    | exact framed_catRelease _ _ _ s
    | exact framed_verify _ _ _ _ s
    | exact framed_verifySuspend _ s
    | exact framed_verifyResume _ s
    | exact framed_verifyCancel _ _ _ s
    | exact framed_restore _ _ _ _ s
    | exact framed_restoreCancel _ _ _ s
    | exact framed_triggerArm _ _ s
    | exact framed_triggerDisarm _ _ s
    | exact framed_triggerFire _ _ s
    | exact framed_captureRead _ _ _ s
    | exact framed_linesSet _ _ _ s
    | exact framed_compareForce _ _ s
    | exact framed_statusRequest _ _ s
    | exact framed_partResetRequest _ s

theorem framed_takeRequest (h : Hdr) (payload : List Byte) (s : State) : Framed 1 s (takeRequest h payload s) := by
  unfold takeRequest
  split
  · exact framed_frameEffect _ s
  · exact framed_unknownReply h payload s

theorem framed_takeFrameBytes (bytes : List Byte) (s : State) : Framed 1 s (takeFrameBytes bytes s) := by
  unfold takeFrameBytes
  split
  · exact ⟨rfl, ⟨[], by simp, by simp [modLink], fun e => absurd rfl e⟩, rfl, rfl, rfl, id, id, id, rfl, id, id, id, id, id,
      And.right⟩
  · split
    · exact framed_frameEffect _ s
    · exact framed_takeRequest _ _ s

theorem framed_heldEffect (c : Instr) (s : State) : Framed 1 s (heldEffect c s) := by
  unfold heldEffect
  split
  · exact framed_takeFrameBytes _ s
  · exact framed_takeRequest _ _ s
  · exact framed_frameEffect _ s

end Sys2Proof.Machine
end

