-- ==== Sys2Proof/Laws/Link.lean ====
section
/-! SUPPORT. Laws/Link.lean: the arbiter, the owed tests, the credits and the tick: what each can do, and that each keeps the invariant. -/

namespace Sys2Proof.Machine

/-! ## The arbiter (R187, R190) -/

variable {a s : State}

theorem choose_busy {f : TxFrame} (h : s.link.sending = some f) : choose s = s := by
  unfold choose; simp [h]

/-- What the arbiter does with the transmit side free: a reply, nothing while a PART_RESET reply waits, a notice, a
segment, or nothing. -/
theorem choose_free (h : s.link.sending = none) :
    (∃ r rest, s.link.replies = r :: rest ∧ choose s = modLink (fun l => { l with replies := rest, sending := some (.reply r) }) s) ∨
    (s.link.replies = [] ∧ s.link.resetReply = true ∧ choose s = s) ∨
    (s.link.replies = [] ∧ s.link.resetReply = false ∧ ∃ n rest, s.link.notices = n :: rest ∧
      choose s = modLink (fun l => { l with notices := rest, sending := some (.notice n) }) s) ∨
    (s.link.replies = [] ∧ s.link.resetReply = false ∧ s.link.notices = [] ∧
      s.rse.active.bind RestoreContext.segment = none ∧ choose s = s) ∨
    (s.link.replies = [] ∧ s.link.resetReply = false ∧ s.link.notices = [] ∧
      ∃ g, s.rse.active.bind RestoreContext.segment = some g ∧
        choose s = segmentTaken g (modLink (fun l => { l with sending := some (.segment g) }) s)) := by
  unfold choose
  simp only [h]
  cases hr : s.link.replies with
  | cons r rest => exact .inl ⟨r, rest, rfl, rfl⟩
  | nil =>
    by_cases hx : s.link.resetReply = true
    · exact .inr (.inl ⟨rfl, hx, by simp [hx]⟩)
    · have hx' : s.link.resetReply = false := by simpa using hx
      cases hn : s.link.notices with
      | cons n rest => exact .inr (.inr (.inl ⟨rfl, hx', n, rest, rfl, by simp [hx']⟩))
      | nil =>
        cases hg : s.rse.active.bind RestoreContext.segment with
        | none => exact .inr (.inr (.inr (.inl ⟨rfl, hx', rfl, rfl, by simp [hx']⟩)))
        | some g => exact .inr (.inr (.inr (.inr ⟨rfl, hx', rfl, g, rfl, by simp [hx']⟩)))

/-- What the transmit side's choice and the tests that fall due leave as they were. -/
structure Still (a s : State) : Prop where
  pending : s.pending = a.pending
  counters : s.link.counters = a.link.counters
  credit : s.link.credit = a.link.credit
  resetReply : s.link.resetReply = a.link.resetReply
  waiting : s.link.waiting = a.link.waiting
  settings : s.settings = a.settings
  tables : s.tables = a.tables
  time : s.ttu.time = a.ttu.time

theorem Still.refl (s : State) : Still s s := ⟨rfl, rfl, rfl, rfl, rfl, rfl, rfl, rfl⟩

theorem Still.trans {b : State} (h : Still a b) (k : Still b s) : Still a s :=
  ⟨k.1.trans h.1, k.2.trans h.2, k.3.trans h.3, k.4.trans h.4, k.5.trans h.5, k.6.trans h.6, k.7.trans h.7,
    k.8.trans h.8⟩

theorem Keeps.still (k : Keeps a s) : Still a s := ⟨k.1, k.3, k.5, k.6, k.7, k.8, k.9, k.10⟩

/-- The transmit side begins to send. -/
theorem still_send (f : TxFrame) (rs : List Reply) (ns : List Notice) (s : State) :
    Still s (modLink (fun l => { l with replies := rs, notices := ns, sending := some f }) s) :=
  ⟨rfl, rfl, rfl, rfl, rfl, rfl, rfl, rfl⟩

theorem still_choose (s : State) : Still s (choose s) := by
  cases hs : s.link.sending with
  | some f => rw [choose_busy hs]; exact Still.refl s
  | none =>
    obtain ⟨r, rest, -, e⟩ | ⟨-, -, e⟩ | ⟨-, -, n, rest, -, e⟩ | ⟨-, -, -, -, e⟩ | ⟨-, -, -, g, -, e⟩ := choose_free hs <;>
      rw [e]
    · exact still_send _ rest s.link.notices s
    · exact Still.refl s
    · exact still_send _ s.link.replies rest s
    · exact Still.refl s
    · exact (still_send _ s.link.replies s.link.notices s).trans
        (Keeps.still (keeps_segmentTaken g (Keeps.refl (modLink _ s))))

/-- With a reply waiting or being sent before the choice, one waits or is being sent after it. -/
theorem choose_replies (h : s.link.replies ≠ [] ∨ replyInTransit s.link) :
    (choose s).link.replies ≠ [] ∨ replyInTransit (choose s).link := by
  cases hs : s.link.sending with
  | some f => rw [choose_busy hs]; exact h
  | none =>
    have hr : s.link.replies ≠ [] := h.resolve_right (by simp [replyInTransit, hs])
    obtain ⟨r, rest, -, e⟩ | ⟨w, -⟩ | ⟨w, -⟩ | ⟨w, -⟩ | ⟨w, -⟩ := choose_free hs
    · rw [e]; exact .inr ⟨r, rfl⟩
    all_goals exact absurd w hr

/-- After the choice the transmit side is free only with nothing to send. -/
theorem choose_idle (s : State) (hf : (choose s).link.sending = none) :
    (choose s).link.replies = [] ∧ ((choose s).link.resetReply = false → (choose s).link.notices = []) := by
  cases hs : s.link.sending with
  | some f => rw [choose_busy hs, hs] at hf; cases hf
  | none =>
    obtain ⟨r, rest, -, e⟩ | ⟨w, x, e⟩ | ⟨-, -, n, rest, -, e⟩ | ⟨w, x, y, -, e⟩ | ⟨-, -, -, g, -, e⟩ := choose_free hs <;>
      rw [e] at hf ⊢
    · cases hf
    · exact ⟨w, fun z => by simp [x] at z⟩
    · cases hf
    · exact ⟨w, fun _ => y⟩
    · rw [(keeps_segmentTaken g (Keeps.refl (modLink _ s))).4] at hf; cases hf

/-! ## The rooms and ranges -/

/-- The queues keep within their rooms, and the settings and tables within their ranges. -/
structure Rooms (s : State) : Prop where
  notices : s.link.notices.length ≤ Config.noticeRoom
  replies : s.link.replies.length ≤ Config.replyRoom
  mounts : s.mounts.length ≤ Config.mountRoom
  verifies : s.vfy.queue.length ≤ Config.mountRoom
  restores : s.rse.queue.length ≤ Config.restoreRoom
  settings : s.settings.ok = true
  speed : speedOk s.tables.speed = true
  ramp : rampOk s.tables.ramp = true
  chunks : chunksOk s
  sound : Sound s

theorem Inv.rooms (h : Inv s) : Rooms s :=
  ⟨h.link.notices, h.link.replies, h.mounts, h.verifies, h.restores, h.settings, h.speed, h.ramp, h.chunks,
    h.quotas, h.pages, h.entries, h.reservation, h.lanes, h.catalog, h.map, h.carts, h.steps⟩

/-- The rooms and the link make the invariant. -/
theorem Rooms.inv (h : Rooms s) (l : s.link.Ok) : Inv s :=
  ⟨l, h.3, h.4, h.5, h.6, h.7, h.8, h.9, h.10.1, h.10.2.1, h.10.2.2.1, h.10.2.2.2.1, h.10.2.2.2.2.1, h.10.2.2.2.2.2.1,
    h.10.2.2.2.2.2.2.1, h.10.2.2.2.2.2.2.2.1, h.10.2.2.2.2.2.2.2.2⟩

theorem Keeps.rooms (k : Keeps a s) (h : Rooms a) : Rooms s := by
  refine ⟨k.11 h.1, ?_, k.12 h.3, k.13 h.4, k.14 h.5, ?_, ?_, ?_, k.15 h.9, k.16 ⟨h.9, h.10⟩⟩
  · rw [k.2]; exact h.2
  · rw [k.8]; exact h.6
  · rw [k.9]; exact h.7
  · rw [k.9]; exact h.8

theorem Rooms.send {rs : List Reply} {ns : List Notice} (f : TxFrame) (h : Rooms s) (hr : rs.length ≤ s.link.replies.length)
    (hn : ns.length ≤ s.link.notices.length) :
    Rooms (modLink (fun l => { l with replies := rs, notices := ns, sending := some f }) s) :=
  ⟨hn.trans h.1, hr.trans h.2, h.3, h.4, h.5, h.6, h.7, h.8, h.9, h.10⟩

theorem choose_rooms (h : Rooms s) : Rooms (choose s) ∧ (choose s).link.replies.length ≤ s.link.replies.length := by
  cases hs : s.link.sending with
  | some f => rw [choose_busy hs]; exact ⟨h, Nat.le_refl _⟩
  | none =>
    obtain ⟨r, rest, q, e⟩ | ⟨-, -, e⟩ | ⟨-, -, n, rest, q, e⟩ | ⟨-, -, -, -, e⟩ | ⟨-, -, -, g, -, e⟩ := choose_free hs <;>
      rw [e]
    · have : rest.length ≤ s.link.replies.length := by rw [q]; simp
      exact ⟨h.send (rs := rest) (ns := s.link.notices) _ this (Nat.le_refl _), this⟩
    · exact ⟨h, Nat.le_refl _⟩
    · exact ⟨h.send (rs := s.link.replies) (ns := rest) _ (Nat.le_refl _) (by rw [q]; simp), Nat.le_refl _⟩
    · exact ⟨h, Nat.le_refl _⟩
    · have k := keeps_segmentTaken g (Keeps.refl (modLink (fun l => { l with sending := some (.segment g) }) s))
      exact ⟨k.rooms (h.send (rs := s.link.replies) (ns := s.link.notices) _ (Nat.le_refl _) (Nat.le_refl _)),
        by rw [k.2]; exact Nat.le_refl _⟩

/-! ## In the middle of a command -/

/-- The invariant but for the transmit side's choice. -/
structure Mid (s : State) : Prop where
  rooms : Rooms s
  credit : s.link.credit = true → s.link.replies.length < Config.replyRoom ∧ s.link.resetReply = false
  resumes : s.link.credit = false → s.link.replies ≠ [] ∨ replyInTransit s.link

theorem Inv.mid (h : Inv s) : Mid s :=
  ⟨h.rooms, fun c => ⟨(h.link.credit c).1, (h.link.credit c).2.1⟩, h.link.resumes⟩

theorem Keeps.mid (k : Keeps a s) (h : Mid a) : Mid s := by
  refine ⟨k.rooms h.1, ?_, ?_⟩
  · rw [k.2, k.5, k.6]; exact h.2
  · unfold replyInTransit; rw [k.2, k.4, k.5]; exact h.3

theorem choose_mid (h : Mid s) : Mid (choose s) := by
  obtain ⟨r, n⟩ := choose_rooms h.1
  have st := still_choose s
  refine ⟨r, fun c => ?_, fun c => choose_replies (h.3 (st.credit.symm.trans c))⟩
  obtain ⟨x, y⟩ := h.2 (st.credit.symm.trans c)
  exact ⟨by omega, st.resetReply.trans y⟩

/-- After the choice the invariant holds whole. -/
theorem choose_inv (h : Mid s) (w : s.link.credit = true → s.link.waiting = []) : Inv (choose s) := by
  have m := choose_mid h
  have st := still_choose s
  exact m.1.inv ⟨m.1.1, m.1.2, fun c => ⟨(m.2 c).1, (m.2 c).2, st.waiting.trans (w (st.credit.symm.trans c))⟩,
    choose_idle s, m.3⟩

/-! ## The tests that have fallen due -/

theorem keeps_dueRest (rest : List Due) (s : State) : Keeps s { s with due := rest } :=
  ⟨rfl, rfl, rfl, rfl, rfl, rfl, rfl, rfl, rfl, rfl, id, id, id, id, id, And.right⟩

theorem still_settleRounds (k : Nat) (s : State) : Still s (settleRounds k s) := by
  induction k generalizing s with
  | zero => exact Still.refl s
  | succ k ih =>
    unfold settleRounds
    split
    · exact Still.refl s
    · exact ((keeps_runDue _ (keeps_dueRest _ s)).still.trans (still_choose _)).trans (ih _)

theorem still_settle (s : State) : Still s (settle s) := still_settleRounds settleLimit s

theorem mid_settleRounds (k : Nat) (h : Mid s) : Mid (settleRounds k s) := by
  induction k generalizing s with
  | zero => exact h
  | succ k ih =>
    unfold settleRounds
    split
    · exact h
    · exact ih (choose_mid ((keeps_runDue _ (keeps_dueRest _ s)).mid h))

theorem mid_settle (h : Mid s) : Mid (settle s) := mid_settleRounds settleLimit h

/-! ## Steps inside the part, and commanded tests -/

theorem inv_outside {f : State → State} (hf : ∀ t, Keeps t (f t)) (h : Inv s) : Inv (outside f s) := by
  have k := (still_settle s).trans (hf _).still
  exact choose_inv ((hf _).mid (mid_settle h.mid)) fun c => by
    rw [k.waiting]; exact (h.link.credit (k.credit.symm.trans c)).2.2

theorem inv_commanded (d : Due) (h : Inv s) : Inv (commanded d s) := by
  have k : Keeps s (runDue d (takeDue d s)) := keeps_runDue d (keeps_dueRest (s.due.erase d) s)
  exact choose_inv (k.mid h.mid) fun c => by
    rw [k.waiting]; exact (h.link.credit (k.credit.symm.trans c)).2.2

/-! ## Frames -/

theorem Framed.rooms {f : State} (k : Framed 1 a f) (h : Rooms a) (room : a.link.replies.length < Config.replyRoom) :
    Rooms f := by
  obtain ⟨l, hl, hr, -⟩ := k.replies
  exact ⟨k.notices h.1, by rw [hr, List.length_append]; omega, k.mounts h.3, k.verifies h.4, k.restores h.5,
    k.settings h.6, k.speed h.7, k.ramp h.8, k.chunks h.9, k.sound ⟨h.9, h.10⟩⟩

/-- A credit is renewed after the arbiter's choice. -/
theorem inv_renew (h : Rooms s) (p : s.link.resetReply = true → s.link.replies ≠ []) (l : List Instr) (hl : l = []) :
    Inv (modLink (fun x => { x with waiting := l }) (renewCredit (choose s))) := by
  obtain ⟨r, -⟩ := choose_rooms h
  have ch := still_choose s
  refine Rooms.inv ⟨r.1, r.2, r.3, r.4, r.5, r.6, r.7, r.8, r.9, r.10⟩
    ⟨r.1, r.2, fun c => ?_, choose_idle _, fun c => ?_⟩
  · change (decide _ && !_) = true at c
    simp only [Bool.and_eq_true, decide_eq_true_eq, Bool.not_eq_true'] at c
    exact ⟨c.1, c.2, hl⟩
  · change (decide _ && !_) = false at c
    change (choose s).link.replies ≠ [] ∨ replyInTransit (choose s).link
    rcases Bool.and_eq_false_iff.1 c with c | c
    · left
      intro e
      rw [e] at c
      simp [Config.replyRoom] at c
    · exact choose_replies (.inl (p (by simpa [ch.resetReply] using c)))

/-- A frame taken with a credit out keeps the invariant: what it does, then the arbiter's choice, then the credit. -/
theorem inv_takeFrame {f : State → State} (hf : ∀ t, Framed 1 t (f t)) (h : Inv s) (hc : s.link.credit = true) :
    Inv (takeFrame f s) := by
  have m := mid_settle h.mid
  have st := still_settle s
  have fr := hf (settle s)
  obtain ⟨room, quiet⟩ := m.credit (st.credit.trans hc)
  have pend : (f (settle s)).link.resetReply = true → (f (settle s)).link.replies ≠ [] := by
    obtain ⟨l, -, hr, hx⟩ := fr.replies
    intro e
    have : l ≠ [] := hx (by rw [e, quiet]; simp)
    rw [hr]; simp [this]
  have wait : (choose (f (settle s))).link.waiting = [] :=
    (still_choose _).waiting.trans (fr.waiting.trans (st.waiting.trans (h.link.credit hc).2.2))
  exact inv_renew (fr.rooms m.rooms room) pend (choose (f (settle s))).link.waiting wait

theorem inv_receive (c : Instr) {f : State → State} (hf : ∀ t, Framed 1 t (f t)) (h : Inv s) : Inv (receive c f s) := by
  unfold receive
  split
  · exact inv_takeFrame hf h ‹_›
  · next hc =>
    have r := h.rooms
    exact Rooms.inv ⟨r.1, r.2, r.3, r.4, r.5, r.6, r.7, r.8, r.9, r.10⟩
      ⟨h.link.notices, h.link.replies, fun x => absurd x hc, h.link.free, h.link.resumes⟩

/-! ## The frames held at the server -/

theorem inv_waiting (l : List Instr) (h : Inv s) (hc : s.link.credit = true → l = []) :
    Inv (modLink (fun x => { x with waiting := l }) s) :=
  have r := h.rooms
  Rooms.inv ⟨r.1, r.2, r.3, r.4, r.5, r.6, r.7, r.8, r.9, r.10⟩
    ⟨h.link.notices, h.link.replies, fun x => ⟨(h.link.credit x).1, (h.link.credit x).2.1, hc x⟩, h.link.free,
      h.link.resumes⟩

theorem inv_takeHeld (l : List Instr) (h : Inv s) : Inv (takeHeld l s) := by
  induction l generalizing s with
  | nil => exact h
  | cons c rest ih =>
    unfold takeHeld
    split
    · exact ih (inv_takeFrame (framed_heldEffect c) h ‹_›)
    · next hc => exact inv_waiting _ h fun x => absurd x hc

/-- The invariant but for the frames held at the server. -/
theorem inv_resumeReception (h : Inv (modLink (fun x => { x with waiting := [] }) s)) : Inv (resumeReception s) :=
  inv_takeHeld _ h

theorem chunksOk_afterReset (cause : ResetCause) (s : State) : chunksOk (State.afterReset cause s) := by
  intro i c hc
  simp [State.afterReset, Stream.reset] at hc

theorem sound_afterReset (cause : ResetCause) (s : State) : Sound (State.afterReset cause s) := by
  have quotas : Pool.reset.quotas.quotasOk := by unfold Regions.quotasOk; decide
  have pages : Pool.reset.withinQuotas := by unfold Pool.withinQuotas; decide
  refine ⟨quotas, pages, ⟨fun e he => ?_, fun i => ?_, fun i _ => ?_⟩,
    fun t ht => ?_, fun n => ?_, Nat.zero_le _, fun p i => ?_, fun i c hc => ?_, fun n => ?_⟩
  · cases he
  · simp [State.afterReset, Stream.reset, Compressor.entries]
  · simp [State.afterReset, Stream.reset]
  · cases ht
  · simp [State.afterReset, Lane.reset]
  · simp [State.afterReset, Directory.reset]
  · simp [State.afterReset, Directory.reset] at hc
  · simp [State.afterReset, Governor.reset, Tables.default]

theorem rooms_afterReset (cause : ResetCause) (s : State) : Rooms (State.afterReset cause s) :=
  ⟨Nat.zero_le _, Nat.zero_le _, Nat.zero_le _, Nat.zero_le _, Nat.zero_le _,
    show Settings.ok Settings.default = true by decide, show speedOk Tables.default.speed = true by decide,
    show rampOk Tables.default.ramp = true by decide, chunksOk_afterReset cause s, sound_afterReset cause s⟩

theorem inv_afterReset (cause : ResetCause) (s : State) :
    Inv (modLink (fun x => { x with waiting := [] }) (State.afterReset cause s)) := by
  have r := rooms_afterReset cause s
  refine Rooms.inv ⟨r.1, r.2, r.3, r.4, r.5, r.6, r.7, r.8, r.9, r.10⟩
    ⟨r.1, r.2, fun _ => ⟨?_, rfl, rfl⟩, fun x => ?_, fun x => ?_⟩
  · exact Nat.zero_lt_succ 7
  · simp [State.afterReset, Link.afterReset] at x
  · simp [State.afterReset, Link.afterReset] at x

theorem inv_resetDevice (cause : ResetCause) (s : State) : Inv (resetDevice cause s) :=
  inv_resumeReception (inv_afterReset cause s)

/-- The end of a frame sent (R187). -/
theorem inv_frameSent (h : Mid s) (w : s.link.credit = true → s.link.waiting = []) :
    Inv (modLink (fun x => { x with waiting := [] }) (frameSent s)) := by
  unfold frameSent
  split
  · exact inv_waiting _ (choose_inv h w) fun _ => rfl
  · next f hs =>
    have r : Rooms (modLink (fun l => { l with sending := none }) s) :=
      ⟨h.1.1, h.1.2, h.1.3, h.1.4, h.1.5, h.1.6, h.1.7, h.1.8, h.1.9, h.1.10⟩
    dsimp only
    split
    · split
      · exact inv_afterReset _ _
      · next hn => exact inv_renew r (fun x y => hn ⟨x, y⟩) [] rfl
    · next hf =>
      have m : Mid (modLink (fun l => { l with sending := none }) s) :=
        ⟨r, h.2, fun c => .inl ((h.3 c).resolve_right fun ⟨x, hx⟩ => hf x (by rw [hs] at hx; exact Option.some.inj hx))⟩
      exact inv_waiting _ (choose_inv m w) fun _ => rfl

/-! ## The tick -/

theorem keeps_sweep {l : List (State → State)} (hl : ∀ f ∈ l, ∀ t, Keeps t (f t)) (h : Mid s) :
    Mid (forEach l expire s) ∧ Still s (forEach l expire s) := by
  unfold forEach
  induction l generalizing s with
  | nil => exact ⟨h, Still.refl s⟩
  | cons f rest ih =>
    have k := hl f (by simp) s
    have m := mid_settle (choose_mid (k.mid h))
    obtain ⟨x, y⟩ := ih (fun g hg => hl g (by simp [hg])) m
    exact ⟨x, ((k.still.trans (still_choose _)).trans (still_settle _)).trans y⟩

theorem keeps_expiries : ∀ f ∈ expiries, ∀ t, Keeps t (f t) := by
  intro f hf t
  simp only [expiries, List.cons_append, List.mem_cons, List.mem_append, List.mem_flatMap, List.not_mem_nil,
    or_false] at hf
  obtain rfl | ⟨n, -, rfl | rfl | rfl⟩ | rfl | rfl | rfl := hf
  · exact keeps_compareMatch (Keeps.refl t)
  · exact keeps_commandTimeout n (Keeps.refl t)
  · exact keeps_sealAge n (Keeps.refl t)
  · exact keeps_windowExpiry n (Keeps.refl t)
  · exact keeps_travelStep (Keeps.refl t)
  · exact keeps_homingStep t.ldr.homeSensor (Keeps.refl t)
  · exact keeps_gripTimeout (Keeps.refl t)

/-- The advance itself touches the time, the owed compare test and the starve timers only (R83, R170, R175). -/
theorem advance_frame (s : State) : ∃ g : Vector Governor 4, advance s = { s with gov := g, ttu := s.ttu.advance } ∧
    ∀ n : LaneId, g[n].step = s.gov[n].step := by
  have w : ∀ (l : List LaneId) (t : State), ∃ g : Vector Governor 4, forEach l countStarve t = { t with gov := g } ∧
      ∀ n : LaneId, g[n].step = t.gov[n].step := by
    intro l
    unfold forEach
    induction l with
    | nil => exact fun t => ⟨t.gov, rfl, fun _ => rfl⟩
    | cons m rest ih =>
      intro t
      obtain ⟨g, e, hg⟩ := ih (countStarve m t)
      refine ⟨g, e.trans ?_, fun n => (hg n).trans ?_⟩ <;> unfold countStarve <;> split
      · rfl
      · rfl
      · exact upd_figure t.gov m n _ Governor.step rfl
      · rfl
  exact w allLanes { s with ttu := s.ttu.advance }

theorem tick_time (s : State) (h : Mid s) : Mid (tick s) ∧ (tick s).pending = s.pending ∧
    (tick s).ttu.time = s.ttu.time + 1 ∧ (tick s).link.credit = s.link.credit ∧
    (tick s).link.waiting = s.link.waiting := by
  obtain ⟨m, st⟩ := keeps_sweep keeps_expiries h
  unfold tick
  generalize forEach expiries expire s = u at m st
  obtain ⟨g, e, hg⟩ := advance_frame u
  rw [e]
  have sound : Sound { u with gov := g, ttu := u.ttu.advance } := by
    obtain ⟨q, p, i, r, l, c, x, y, steps⟩ := m.1.10
    exact ⟨q, p, i, r, l, c, x, y, fun n => by
      show g[n].step < _
      rw [hg]; exact steps n⟩
  exact ⟨⟨⟨m.1.1, m.1.2, m.1.3, m.1.4, m.1.5, m.1.6, m.1.7, m.1.8, m.1.9, sound⟩, m.2, m.3⟩, st.pending,
    congrArg (· + 1) st.time, st.credit, st.waiting⟩

theorem inv_tick (h : Inv s) : Inv (outside tick s) := by
  have st := still_settle s
  have m := mid_settle h.mid
  show Inv (choose (tick (settle s)))
  generalize settle s = u at st m
  obtain ⟨m, -, -, c, w⟩ := tick_time u m
  refine choose_inv m fun x => ?_
  rw [w, st.waiting]
  exact (h.link.credit (st.credit.symm.trans (c.symm.trans x))).2.2

end Sys2Proof.Machine
end

