-- ==== Sys2Proof/Laws/Exec.lean ====
section
/-! SUPPORT. Laws/Exec.lean: every command is a frame received, a step taken from outside, a test commanded, or one of the four others. -/

namespace Sys2Proof.Machine

theorem receive_congr {c : Instr} {f g : State → State} {s : State} (h : ∀ t, f t = g t) :
    (Host.Outcome.next (receive c f s) : Out) = .next (receive c g s) := by
  rw [show f = g from funext h]

/-- Every frame of the link is received the same way (R184). -/
theorem exec_frame (c : Instr) (s : State) (hc : isFrame c = true) : exec c s = .next (receive c (heldEffect c) s) := by
  cases c with
  | frameDiscarded bytes => exact receive_congr fun t => rfl
  | unknownRequest h payload => exact receive_congr fun t => rfl
  | segment h offset data => exact receive_congr fun t => rfl
  | openStream h pool cls verify => exact receive_congr fun t => rfl
  | flushStream h => exact receive_congr fun t => rfl
  | closeStream h => exact receive_congr fun t => rfl
  | abortStream h => exact receive_congr fun t => rfl
  | streamQuery h => exact receive_congr fun t => rfl
  | tableWriteSpeed h rates => exact receive_congr fun t => rfl
  | tableWriteRamp h intervals => exact receive_congr fun t => rfl
  | tableWritePositions h pairs => exact receive_congr fun t => rfl
  | tableWritePoolSplit h quotas => exact receive_congr fun t => rfl
  | tableWriteLaneRole h r0 r1 r2 r3 => exact receive_congr fun t => rfl
  | tableWriteDirectoryRecord h index body => exact receive_congr fun t => rfl
  | tableWriteDirectoryRemove h index => exact receive_congr fun t => rfl
  | tableWriteTriggers h sets => exact receive_congr fun t => rfl
  | tableWriteCaptures h pairs => exact receive_congr fun t => rfl
  | tableWriteCompares h slots => exact receive_congr fun t => rfl
  | tableWriteSettings h pairs => exact receive_congr fun t => rfl
  | tableReadSpeed h => exact receive_congr fun t => rfl
  | tableReadRamp h => exact receive_congr fun t => rfl
  | tableReadPositions h => exact receive_congr fun t => rfl
  | tableReadPoolSplit h => exact receive_congr fun t => rfl
  | tableReadLaneRole h => exact receive_congr fun t => rfl
  | tableReadDirectory h first count => exact receive_congr fun t => rfl
  | tableReadTriggers h => exact receive_congr fun t => rfl
  | tableReadCaptures h => exact receive_congr fun t => rfl
  | tableReadCompares h => exact receive_congr fun t => rfl
  | tableReadSettings h => exact receive_congr fun t => rfl
  | laneQuery h => exact receive_congr fun t => rfl
  | laneQueryClear h => exact receive_congr fun t => rfl
  | laneEject h => exact receive_congr fun t => rfl
  | laneReset h => exact receive_congr fun t => rfl
  | home h homeActive => exact receive_congr fun t => rfl
  | stop h mode => exact receive_congr fun t => rfl
  | move h index destination => exact receive_congr fun t => rfl
  | exportCart h index mailSlot => exact receive_congr fun t => rfl
  | importCart h mailSlot label pool slot => exact receive_congr fun t => rfl
  | scan h => exact receive_congr fun t => rfl
  | loaderQuery h => exact receive_congr fun t => rfl
  | loaderReset h => exact receive_congr fun t => rfl
  | protect h index floor => exact receive_congr fun t => rfl
  | setWorm h index => exact receive_congr fun t => rfl
  | eraseFrom h index block => exact receive_congr fun t => rfl
  | recycle h index => exact receive_congr fun t => rfl
  | forget h index => exact receive_congr fun t => rfl
  | catQuery h => exact receive_congr fun t => rfl
  | catRead h start count => exact receive_congr fun t => rfl
  | catRelease h count expected => exact receive_congr fun t => rfl
  | verify h index first last => exact receive_congr fun t => rfl
  | verifySuspend h => exact receive_congr fun t => rfl
  | verifyResume h => exact receive_congr fun t => rfl
  | verifyCancel h scope value => exact receive_congr fun t => rfl
  | restore h first last start => exact receive_congr fun t => rfl
  | restoreCancel h scope tag => exact receive_congr fun t => rfl
  | triggerArm h mask => exact receive_congr fun t => rfl
  | triggerDisarm h mask => exact receive_congr fun t => rfl
  | triggerFire h mask => exact receive_congr fun t => rfl
  | captureRead h mask clear => exact receive_congr fun t => rfl
  | linesSet h mask data => exact receive_congr fun t => rfl
  | compareForce h slot => exact receive_congr fun t => rfl
  | status h clear => exact receive_congr fun t => rfl
  | partReset h => exact receive_congr fun t => rfl
  | powerOn => cases hc
  | resetInput => cases hc
  | frameSent => cases hc
  | drivePresent _ _ => cases hc
  | driveAbsent _ => cases hc
  | reposition _ => cases hc
  | threadDone _ => cases hc
  | threadFail _ _ => cases hc
  | locateDone _ => cases hc
  | locateFail _ _ => cases hc
  | writeDone _ _ => cases hc
  | writeMediaEnd _ => cases hc
  | writeFail _ _ => cases hc
  | readDone _ _ => cases hc
  | readFail _ _ => cases hc
  | stepDone _ => cases hc
  | stepFail _ _ => cases hc
  | ejectDone _ => cases hc
  | ejectFail _ _ => cases hc
  | commandTimeout _ => cases hc
  | writeStartTest _ => cases hc
  | holdResume _ => cases hc
  | catalogHoldResume _ => cases hc
  | compressorTake => cases hc
  | compressionComplete => cases hc
  | sealAgeExpiry _ => cases hc
  | expanderTake => cases hc
  | expansionComplete => cases hc
  | windowEnd _ => cases hc
  | timeBaseTick => cases hc
  | compareMatch => cases hc
  | ttuEvent _ => cases hc
  | readGrant => cases hc
  | streamResume _ => cases hc
  | streamFlushed _ => cases hc
  | closeComplete _ => cases hc
  | abortComplete _ => cases hc
  | scratchPick _ => cases hc
  | serveTest => cases hc
  | travelStep => cases hc
  | homingStep _ => cases hc
  | encoderCount => cases hc
  | probeDone _ => cases hc
  | getDone => cases hc
  | putDone => cases hc
  | gripTimeout => cases hc
  | heldSensorChange _ => cases hc
  | doorSensorChange _ => cases hc
  | mailSlotSensorChange _ _ => cases hc
  | verifyStartTest => cases hc
  | verifyAutoResume _ => cases hc
  | restoreActivate => cases hc

/-- The other commands: a step taken from outside, a test of the table, the tick, the end of a frame, and the resets. -/
theorem exec_inner (c : Instr) (hc : isFrame c = false) :
    (∃ f, (∀ t, Keeps t (f t)) ∧ ∀ s, exec c s = .next (outside f s)) ∨ (∃ d, ∀ s, exec c s = .next (commanded d s)) ∨
    c = .timeBaseTick ∨ c = .frameSent ∨ c = .powerOn ∨ c = .resetInput := by
  cases c with
  | frameDiscarded _ => cases hc
  | unknownRequest _ _ => cases hc
  | segment _ _ _ => cases hc
  | openStream _ _ _ _ => cases hc
  | flushStream _ => cases hc
  | closeStream _ => cases hc
  | abortStream _ => cases hc
  | streamQuery _ => cases hc
  | tableWriteSpeed _ _ => cases hc
  | tableWriteRamp _ _ => cases hc
  | tableWritePositions _ _ => cases hc
  | tableWritePoolSplit _ _ => cases hc
  | tableWriteLaneRole _ _ _ _ _ => cases hc
  | tableWriteDirectoryRecord _ _ _ => cases hc
  | tableWriteDirectoryRemove _ _ => cases hc
  | tableWriteTriggers _ _ => cases hc
  | tableWriteCaptures _ _ => cases hc
  | tableWriteCompares _ _ => cases hc
  | tableWriteSettings _ _ => cases hc
  | tableReadSpeed _ => cases hc
  | tableReadRamp _ => cases hc
  | tableReadPositions _ => cases hc
  | tableReadPoolSplit _ => cases hc
  | tableReadLaneRole _ => cases hc
  | tableReadDirectory _ _ _ => cases hc
  | tableReadTriggers _ => cases hc
  | tableReadCaptures _ => cases hc
  | tableReadCompares _ => cases hc
  | tableReadSettings _ => cases hc
  | laneQuery _ => cases hc
  | laneQueryClear _ => cases hc
  | laneEject _ => cases hc
  | laneReset _ => cases hc
  | home _ _ => cases hc
  | stop _ _ => cases hc
  | move _ _ _ => cases hc
  | exportCart _ _ _ => cases hc
  | importCart _ _ _ _ _ => cases hc
  | scan _ => cases hc
  | loaderQuery _ => cases hc
  | loaderReset _ => cases hc
  | protect _ _ _ => cases hc
  | setWorm _ _ => cases hc
  | eraseFrom _ _ _ => cases hc
  | recycle _ _ => cases hc
  | forget _ _ => cases hc
  | catQuery _ => cases hc
  | catRead _ _ _ => cases hc
  | catRelease _ _ _ => cases hc
  | verify _ _ _ _ => cases hc
  | verifySuspend _ => cases hc
  | verifyResume _ => cases hc
  | verifyCancel _ _ _ => cases hc
  | restore _ _ _ _ => cases hc
  | restoreCancel _ _ _ => cases hc
  | triggerArm _ _ => cases hc
  | triggerDisarm _ _ => cases hc
  | triggerFire _ _ => cases hc
  | captureRead _ _ _ => cases hc
  | linesSet _ _ _ => cases hc
  | compareForce _ _ => cases hc
  | status _ _ => cases hc
  | partReset _ => cases hc
  | powerOn => exact .inr (.inr (.inr (.inr (.inl rfl))))
  | resetInput => exact .inr (.inr (.inr (.inr (.inr rfl))))
  | frameSent => exact .inr (.inr (.inr (.inl rfl)))
  | drivePresent lane cartridge => exact .inl ⟨_, fun t => keeps_drivePresent lane cartridge (Keeps.refl t), fun _ => rfl⟩
  | driveAbsent lane => exact .inl ⟨_, fun t => keeps_driveAbsent lane (Keeps.refl t), fun _ => rfl⟩
  | reposition lane => exact .inl ⟨_, fun t => keeps_countReposition lane (Keeps.refl t), fun _ => rfl⟩
  | threadDone lane => exact .inl ⟨_, fun t => keeps_threadDone lane (Keeps.refl t), fun _ => rfl⟩
  | threadFail lane reason => exact .inl ⟨_, fun t => keeps_threadFail lane reason (Keeps.refl t), fun _ => rfl⟩
  | locateDone lane => exact .inl ⟨_, fun t => keeps_locateDone lane (Keeps.refl t), fun _ => rfl⟩
  | locateFail lane reason => exact .inl ⟨_, fun t => keeps_locateFail lane reason (Keeps.refl t), fun _ => rfl⟩
  | writeDone lane earlyWarning => exact .inl ⟨_, fun t => keeps_writeDone lane earlyWarning (Keeps.refl t), fun _ => rfl⟩
  | writeMediaEnd lane => exact .inl ⟨_, fun t => keeps_writeMediaEnd lane (Keeps.refl t), fun _ => rfl⟩
  | writeFail lane reason => exact .inl ⟨_, fun t => by
      split
      · exact keeps_writeMediaEnd lane (Keeps.refl t)
      · exact keeps_writeFail lane (Keeps.refl t), fun _ => rfl⟩
  | readDone lane block => exact .inl ⟨_, fun t => keeps_readDone lane block (Keeps.refl t), fun _ => rfl⟩
  | readFail lane reason => exact .inl ⟨_, fun t => keeps_readFail lane reason (Keeps.refl t), fun _ => rfl⟩
  | stepDone lane => exact .inl ⟨_, fun t => keeps_stepDone lane (Keeps.refl t), fun _ => rfl⟩
  | stepFail lane reason => exact .inl ⟨_, fun t => keeps_stepFail lane (Keeps.refl t), fun _ => rfl⟩
  | ejectDone lane => exact .inl ⟨_, fun t => keeps_ejectDone lane (Keeps.refl t), fun _ => rfl⟩
  | ejectFail lane reason => exact .inl ⟨_, fun t => keeps_ejectFail lane reason (Keeps.refl t), fun _ => rfl⟩
  | commandTimeout lane => exact .inl ⟨_, fun t => keeps_commandTimeout lane (Keeps.refl t), fun _ => rfl⟩
  | writeStartTest lane => exact .inr (.inl ⟨_, fun _ => rfl⟩)
  | holdResume lane => exact .inr (.inl ⟨_, fun _ => rfl⟩)
  | catalogHoldResume lane => exact .inr (.inl ⟨_, fun _ => rfl⟩)
  | compressorTake => exact .inr (.inl ⟨_, fun _ => rfl⟩)
  | compressionComplete => exact .inl ⟨_, fun t => keeps_compressionComplete (Keeps.refl t), fun _ => rfl⟩
  | sealAgeExpiry lane => exact .inl ⟨_, fun t => keeps_sealAge lane (Keeps.refl t), fun _ => rfl⟩
  | expanderTake => exact .inr (.inl ⟨_, fun _ => rfl⟩)
  | expansionComplete => exact .inl ⟨_, fun t => keeps_expansionComplete (Keeps.refl t), fun _ => rfl⟩
  | windowEnd lane => exact .inl ⟨_, fun t => keeps_windowExpiry lane (Keeps.refl t), fun _ => rfl⟩
  | timeBaseTick => exact .inr (.inr (.inl rfl))
  | compareMatch => exact .inl ⟨_, fun t => keeps_compareMatch (Keeps.refl t), fun _ => rfl⟩
  | ttuEvent e => exact .inr (.inl ⟨_, fun _ => rfl⟩)
  | readGrant => exact .inr (.inl ⟨_, fun _ => rfl⟩)
  | streamResume stream => exact .inr (.inl ⟨_, fun _ => rfl⟩)
  | streamFlushed stream => exact .inr (.inl ⟨_, fun _ => rfl⟩)
  | closeComplete stream => exact .inr (.inl ⟨_, fun _ => rfl⟩)
  | abortComplete stream => exact .inr (.inl ⟨_, fun _ => rfl⟩)
  | scratchPick lane => exact .inr (.inl ⟨_, fun _ => rfl⟩)
  | serveTest => exact .inr (.inl ⟨_, fun _ => rfl⟩)
  | travelStep => exact .inl ⟨_, fun t => keeps_travelStep (Keeps.refl t), fun _ => rfl⟩
  | homingStep homeActive => exact .inl ⟨_, fun t => keeps_homingStep homeActive (Keeps.refl t), fun _ => rfl⟩
  | encoderCount => exact .inl ⟨_, fun t => keeps_encoderCount (Keeps.refl t), fun _ => rfl⟩
  | probeDone occupied => exact .inl ⟨_, fun t => keeps_probeDone occupied (Keeps.refl t), fun _ => rfl⟩
  | getDone => exact .inl ⟨_, fun t => keeps_getDone (Keeps.refl t), fun _ => rfl⟩
  | putDone => exact .inl ⟨_, fun t => keeps_putDone (Keeps.refl t), fun _ => rfl⟩
  | gripTimeout => exact .inl ⟨_, fun t => keeps_gripTimeout (Keeps.refl t), fun _ => rfl⟩
  | heldSensorChange held => exact .inl ⟨_, fun t => keeps_heldSensorChange held (Keeps.refl t), fun _ => rfl⟩
  | doorSensorChange isOpen => exact .inl ⟨_, fun t => keeps_doorSensorChange isOpen (Keeps.refl t), fun _ => rfl⟩
  | mailSlotSensorChange slot present => exact .inl ⟨_, fun t => keeps_mailSlotSensorChange slot present (Keeps.refl t), fun _ => rfl⟩
  | verifyStartTest => exact .inr (.inl ⟨_, fun _ => rfl⟩)
  | verifyAutoResume lane => exact .inr (.inl ⟨_, fun _ => rfl⟩)
  | restoreActivate => exact .inr (.inl ⟨_, fun _ => rfl⟩)

end Sys2Proof.Machine
end

