-- ==== Sys2Proof/Tests/Slice0.lean ====
section
/-! SUPPORT. Tests/Slice0.lean: tests of single commands on small states, and for each statement with hypotheses a
state and operands that meet them. Expected values come from the rules named in each comment. -/

namespace Sys2Proof.Tests

open Sys2Proof Sys2Proof.Machine

-- One theorem at a time: many kernel evaluations at once ask for too many threads.
set_option Elab.async false

/-! ## Helpers -/

/-- The state after a command. -/
def after (c : Instr) (s : State) : State :=
  match exec c s with
  | .next t => t
  | _ => s

/-- A frame's tag and subject. -/
def hdr (subject : Nat) : Hdr := { tag := 7, subject := subject }

/-- After power-on, with RESET_DONE sent: a credit out, the transmit side free, no test owed. -/
def quiet : State := after .frameSent State.reset

/-- The status of the reply that a request on a quiet link sends. -/
def answerOf (c : Instr) (s : State) : Option Status :=
  match (after c s).link.sending with
  | some (.reply r) => some r.status
  | _ => none

/-- The fields of the reply that a request on a quiet link sends. -/
def bodyOf (c : Instr) (s : State) : Option ReplyBody :=
  match (after c s).link.sending with
  | some (.reply r) => some r.body
  | _ => none

/-- The notice that a command on a quiet link sends. -/
def noticeOf (c : Instr) (s : State) : Option NoticeBody :=
  match (after c s).link.sending with
  | some (.notice n) => some n.body
  | _ => none

def label (k : Nat) : List Byte := List.replicate 7 65#8 ++ [BitVec.ofNat 8 (65 + k)]

def cart (k : Nat) (st : CartState) (l : Location) : Cart :=
  { label := label k, pool := 0, state := st, location := l, home := 0, endOfData := 10, floor := 3, worm := false,
    verifiedTo := 0, needsLocate := false }

/-- A library: cartridge 5 FILLING at bay D0, 6 SCRATCH at S3, 7 WORM at S4, 8 OUTSIDE; every position set; lane 0
WRITE for pool 0. -/
def library : State :=
  let s := putRecord 5 (cart 0 .filling (.bay 0)) quiet
  let s := putRecord 6 { cart 1 .scratch (.slot 2) with floor := 0 } s
  let s := putRecord 7 { cart 2 .full (.slot 3) with worm := true } s
  let s := putRecord 8 (cart 3 .full .outside) s
  { modLane 0 (fun l => { l with role := .write 0 }) s with
    tables := { s.tables with positions := Vector.replicate 54 (some 100) } }

/-- Lane 0 in a state, with cartridge 5 mounted. -/
def laneIn (st : LaneState) : State :=
  modLane 0 (fun l => { l with state := st, mounted := some 5, tapePosition := some 10, driveStep := some 0 }) library

/-- A command in flight on lane 0. -/
def flying (c : DriveCommand) (s : State) : State :=
  modLane 0 (fun l => { l with command := some { command := c, sentAt := 0, limit := 100 } }) s

def chunk : Record :=
  { stream := 2, method := .stored, rawLength := 1, seq := 9, digest := crc32 [1#8], mark := .none, payload := [1#8] }

def block (c : SealCause) : SealedBlock :=
  { records := [chunk], runs := [{ stream := 2, first := 9, last := 9, count := 1 }], cause := c }

def withQueue (l : List SealedBlock) (s : State) : State := modAsm 0 (fun a => { a with sealedQueue := l }) s

/-- Stream 2, open for lane 0. -/
def opened (s : State) : State := modStream 2 (fun st => { st with state := .opened, uncommitted := 1 }) s

/-- A lane is writing block 10 of cartridge 5. -/
def writing : State := opened (withQueue [block .full] (flying (.write 10) (laneIn .writing)))

/-- Time `t`. -/
def atTime (t : Nat) (s : State) : State := modTtu (fun x => { x with time := BitVec.ofNat 32 t }) s

/-- The loader at position 100, carrying out a plan of the given steps for a MOVE of cartridge 6. -/
def moving (steps : List PlanStep) : State :=
  let p : Plan := { kind := .move, cart := some 6, target := .slot 9, steps := steps, current := 0, missing := [],
                    unknown := [], skipped := [] }
  let m : MountRequest := { kind := .move, cart := some 6, target := .slot 9, cls := .normal, requesters := [(.server, 7)],
                            tag := 7, fillLane := none, inService := true, rebuilt := none }
  setMounts [m] (modLdr (fun d => { d with state := .running, plan := some p, logical := some 100, real := some 100,
                                           direction := .away, gripLimit := 50 }) library)

/-- The loader idle at position 100. -/
def idle : State := modLdr (fun d => { d with state := .idle, logical := some 100, real := some 100 }) library

/-- Lane 1 reads block 3 of cartridge 5 for a verify pass. -/
def verifying : State :=
  let s := modLane 1 (fun l => { l with state := .reading, mounted := some 5, activity := .verify,
                                        command := some { command := .read 3, sentAt := 0, limit := 100 } }) library
  modCtx 1 (fun c => { c with state := .running, cart := 5, label := label 0, last := 9, next := 3, stage := .read,
                              inHand := some 3, pages := true }) (takeRead 16 s)

/-- A restore of stream 2, sequences 4 to 6, not begun. -/
def restoration : RestoreContext :=
  { tag := 7, stream := 2, first := 4, last := 6, start := none, state := .finding, next := 4, cart := none, block := none,
    runEnd := none, lane := none, mountAsked := false, good := 0, damaged := 0, notFound := 0, laneFaults := 0,
    stage := .start, todo := [], damage := none, pages := false, outputPage := false, segment := none, sentAny := false,
    missedAny := false }

/-- The restore is active. -/
def restoring : State := modRse (fun x => { x with active := some restoration }) library

/-! ## The states meet the hypotheses of the statements about frames -/

theorem test_states_take_frames :
    ([quiet, library, idle, writing, verifying, restoring, laneIn .ready, moving [.travel (.slot 2)]].all fun s =>
      s.link.credit && s.due.isEmpty && s.link.sending.isNone) = true := by decide +kernel

/-! ## Well-formed operands: an ill-formed term for each check -/

/-- Every one of the commands is ill formed. -/
def illFormed (l : List Instr) : Bool := l.all fun c => !c.wellFormed

/-- Byte strings longer than a frame can hold (R192). -/
theorem test_ill_formed_lengths :
    (Instr.frameDiscarded (List.replicate 65546 0#8)).wellFormed = false ∧
    (Instr.unknownRequest (hdr 0) (List.replicate 4161 0#8)).wellFormed = false ∧
    (Instr.segment (hdr 0) 0 (List.replicate 4155 0#8)).wellFormed = false ∧
    (Instr.readDone 0 [0#8]).wellFormed = false := by
  simp only [Instr.wellFormed, List.length_replicate]
  decide

/-- Every field has its width: one term too wide, or of a wrong length, for each field of R192. -/
theorem test_ill_formed_frames :
    illFormed
     [.unknownRequest { tag := 65536, subject := 0 } [], .unknownRequest { tag := 0, subject := 256 } [],
      .segment (hdr 0) (256 ^ 6) [0#8],
      .openStream (hdr 0) 256 0 0, .openStream (hdr 0) 0 256 0, .openStream (hdr 0) 0 0 256, .flushStream (hdr 256),
      .closeStream (hdr 256), .abortStream (hdr 256), .streamQuery (hdr 256), .tableWriteSpeed (hdr 0) [65536],
      .tableWriteSpeed (hdr 0) (List.replicate 256 1), .tableWriteRamp (hdr 0) [65536],
      .tableWritePositions (hdr 0) [(256, none)], .tableWritePositions (hdr 0) [(1, some 65536)],
      .tableWritePoolSplit (hdr 0) { ingest := 65536, lane0 := 0, lane1 := 0, lane2 := 0, lane3 := 0, read := 0 },
      .tableWritePoolSplit (hdr 0) { ingest := 0, lane0 := 65536, lane1 := 0, lane2 := 0, lane3 := 0, read := 0 },
      .tableWritePoolSplit (hdr 0) { ingest := 0, lane0 := 0, lane1 := 65536, lane2 := 0, lane3 := 0, read := 0 },
      .tableWritePoolSplit (hdr 0) { ingest := 0, lane0 := 0, lane1 := 0, lane2 := 65536, lane3 := 0, read := 0 },
      .tableWritePoolSplit (hdr 0) { ingest := 0, lane0 := 0, lane1 := 0, lane2 := 0, lane3 := 65536, read := 0 },
      .tableWritePoolSplit (hdr 0) { ingest := 0, lane0 := 0, lane1 := 0, lane2 := 0, lane3 := 0, read := 65536 },
      .tableWriteLaneRole (hdr 0) ⟨256, 0⟩ ⟨1, 0⟩ ⟨1, 0⟩ ⟨1, 0⟩, .tableWriteLaneRole (hdr 0) ⟨1, 0⟩ ⟨0, 256⟩ ⟨1, 0⟩ ⟨1, 0⟩,
      .tableWriteDirectoryRemove (hdr 0) 256] = true := by decide +kernel

/-- The record body of a directory write, field by field (R95). -/
theorem test_ill_formed_records :
    (let r : RecordArg := { label := label 0, pool := 0, state := 0, location := 1, home := 1, endOfData := 0, floor := 0,
                            worm := 0, verifiedTo := 0 }
     (Instr.tableWriteDirectoryRecord (hdr 0) 255 r).wellFormed = true ∧
     ([{ r with label := [] }, { r with pool := 256 }, { r with state := 256 }, { r with location := 256 },
       { r with home := 256 }, { r with endOfData := 256 ^ 4 }, { r with floor := 256 ^ 4 }, { r with worm := 256 },
       { r with verifiedTo := 256 ^ 4 }].all fun r => !(Instr.tableWriteDirectoryRecord (hdr 0) 0 r).wellFormed) = true ∧
     (Instr.tableWriteDirectoryRecord (hdr 0) 256 r).wellFormed = false) := by decide +kernel

/-- Triggers, captures, compares and settings (R173, R174, R177, R186). -/
theorem test_ill_formed_trigger_tables :
    (let t : TriggerArg := { number := 0, factor := ⟨12, 255⟩, actions := [], chain := 0, mode := 0, faultGuard := false }
     let c : CompareArg := { slot := 0, enabled := false, value := 0, lineMask := 0, lineData := 0, triggerMask := 0 }
     ([{ t with number := 256 }, { t with factor := ⟨256, 0⟩ }, { t with factor := ⟨0, 256⟩ },
       { t with actions := [⟨8, 0, 0⟩] }, { t with actions := [⟨0, 256, 0⟩] }, { t with actions := [⟨1, 0, 256⟩] },
       { t with actions := [⟨6, 65536, 0⟩] }, { t with actions := [⟨7, 0, 256 ^ 4⟩] }, { t with chain := 256 },
       { t with mode := 256 }].all fun t => !(Instr.tableWriteTriggers (hdr 0) [t]).wellFormed) = true ∧
     ([{ c with slot := 256 }, { c with value := 256 ^ 4 }, { c with lineMask := 256 }, { c with lineData := 256 },
       { c with triggerMask := 256 }].all fun c => !(Instr.tableWriteCompares (hdr 0) [c]).wellFormed) = true ∧
     illFormed [.tableWriteCaptures (hdr 0) [(256, ⟨0, 0⟩)], .tableWriteCaptures (hdr 0) [(0, ⟨256, 0⟩)],
       .tableWriteSettings (hdr 0) [(256, 0)], .tableWriteSettings (hdr 0) [(1, 256 ^ 4)]] = true) := by decide +kernel

/-- The other requests, the read block and the events. -/
theorem test_ill_formed_requests :
    illFormed
     [.tableReadSpeed (hdr 256), .tableReadDirectory (hdr 0) 256 1, .tableReadDirectory (hdr 0) 0 65536,
      .tableReadTriggers (hdr 256), .laneQuery (hdr 256), .home (hdr 256) true, .stop (hdr 0) 256, .move (hdr 0) 256 0,
      .move (hdr 0) 0 256, .exportCart (hdr 0) 256 0, .exportCart (hdr 0) 0 256, .importCart (hdr 0) 256 (label 0) 0 1,
      .importCart (hdr 0) 49 [] 0 1, .importCart (hdr 0) 49 (label 0) 256 1, .importCart (hdr 0) 49 (label 0) 0 256,
      .protect (hdr 0) 256 0, .protect (hdr 0) 0 (256 ^ 4), .eraseFrom (hdr 0) 256 0, .eraseFrom (hdr 0) 0 (256 ^ 4),
      .setWorm (hdr 0) 256, .recycle (hdr 0) 256, .forget (hdr 0) 256, .catQuery (hdr 256), .catRead (hdr 0) 65536 1,
      .catRead (hdr 0) 0 65536, .catRelease (hdr 0) 65536 none, .catRelease (hdr 0) 0 (some (256 ^ 4)),
      .verify (hdr 0) 256 0 0, .verify (hdr 0) 0 (256 ^ 4) 0, .verify (hdr 0) 0 0 (256 ^ 4), .verifySuspend (hdr 256),
      .verifyCancel (hdr 0) 256 0, .verifyCancel (hdr 0) 0 256, .restore (hdr 0) (256 ^ 4) 0 none,
      .restore (hdr 0) 0 (256 ^ 4) none, .restore (hdr 0) 0 0 (some (256, 0)), .restore (hdr 0) 0 0 (some (0, 256 ^ 4)),
      .restoreCancel (hdr 0) 256 0, .restoreCancel (hdr 0) 0 65536, .triggerArm (hdr 0) 256, .linesSet (hdr 0) 256 0,
      .linesSet (hdr 0) 0 256, .compareForce (hdr 0) 256, .status (hdr 256) true,
      .ttuEvent { kind := .moveDone, qual := some 0 }, .ttuEvent { kind := .laneHold, qual := none },
      .ttuEvent { kind := .compare, qual := some 4 }, .ttuEvent { kind := .segRefused, qual := some 32 }] = true := by decide +kernel

/-! ## Frames, credits, replies, notices, resets -/

/-- Without a credit a frame waits (R184); with one it is taken. -/
theorem witness_FramesTakenByCredit :
    (let held : State := { quiet with link := { quiet.link with credit := false } }
     (after (.catQuery (hdr 0)) held).link.waiting = [.catQuery (hdr 0)] ∧
     answerOf (.catQuery (hdr 0)) held = none ∧ answerOf (.catQuery (hdr 0)) quiet = some .ok) := by decide +kernel

/-- Owed tests go oldest first; replies go before notices, and a PART_RESET reply holds notices back (R187, R190). -/
theorem witness_OwedTestsAndArbiter :
    (let n : Notice := { body := .homeDone, placed := 0 }
     let busy : State := { quiet with link := { quiet.link with notices := [n] } }
     (choose busy).link.sending = some (.notice n) ∧
     (choose { busy with link := { busy.link with resetReply := true } }).link.sending = none ∧
     (∃ r, (choose (answer (hdr 0) 24 .ok .none busy)).link.sending = some (.reply r)) ∧
     (settle { quiet with due := [.serveTest, .verifyStart] }).due = []) := by
  refine ⟨by decide +kernel, by decide +kernel, ⟨_, rfl⟩, by decide +kernel⟩

/-- The 64th notice is placed and the 65th is dropped (R188). -/
theorem witness_RepliesAndNotices :
    (let full := fun k : Nat => { quiet with link := { quiet.link with
        notices := List.replicate k { body := .homeDone, placed := 0 } } }
     (offerNotice .homeDone (full 63)).link.overflow = false ∧
     (offerNotice .homeDone (full 63)).link.notices.length = 64 ∧
     (offerNotice .homeDone (full 64)).link.overflow = true ∧
     (offerNotice .homeDone (full 64)).link.notices.length = 64) := by decide +kernel

/-- The check value of R191. -/
theorem test_crc_check_value :
    crc32 [0x31#8, 0x32#8, 0x33#8, 0x34#8, 0x35#8, 0x36#8, 0x37#8, 0x38#8, 0x39#8] = 0xCBF43926#32 := by decide +kernel

/-- A frame of a class with tag 7, subject 0 and a payload. -/
def frame (cls : Nat) (payload : List Byte) : List Byte :=
  let body := be 1 cls ++ be 2 7 ++ be 1 0 ++ be 2 payload.length ++ payload
  body ++ be 4 (crc32 body).toNat

/-- Frames of class 0, 2, 3, 5 and 6, and bytes that are no frame (R183). -/
theorem witness_FrameTestsInOrder :
    frameFault [0#8] = some .check ∧ frameFault (frame 0 [24#8]) = some .cls ∧ frameFault (frame 3 [24#8]) = some .direction ∧
    frameFault (frame 6 [24#8]) = some .cls ∧ frameFault (frame 2 [24#8]) = none ∧
    frameFault (frame 5 [24#8]) = some .direction := by decide +kernel

/-- A damaged frame is counted; a good one that spells CAT_QUERY is answered; codes 0 and 41 are unknown (R183, R184). -/
theorem witness_BadFramesAndRequests :
    (after (.frameDiscarded [0#8]) quiet).link.counters.check = 1 ∧
    (after (.frameDiscarded (frame 0 [])) quiet).link.counters.cls = 1 ∧
    (after (.frameDiscarded (frame 4 [])) quiet).link.counters.direction = 1 ∧
    answerOf (.frameDiscarded (frame 2 [24#8])) quiet = some .ok ∧
    [0#8, 41#8].map (fun c => answerOf (.unknownRequest (hdr 0) [c]) quiet) = [some .badArgument, some .badArgument] ∧
    answerOf (.unknownRequest (hdr 0) [40#8, 1#8]) quiet = some .ok ∧
    requestOf (hdr 0) quiet.ldr.homeSensor [24#8] = some (.catQuery (hdr 0)) ∧
    after (.unknownRequest (hdr 0) [24#8]) quiet = after (.catQuery (hdr 0)) quiet ∧
    answerOf (.unknownRequest (hdr 0) []) quiet = some .badArgument ∧
    (after (.unknownRequest (hdr 0) []) quiet).freeCount = 1 := by decide +kernel

/-- After a PART_RESET reply the part resets (R190); after another reply it goes on. -/
theorem witness_FrameSentFreesTheSide :
    (after .frameSent (after (.partReset (hdr 0)) (atTime 5 quiet))).ttu.time = 0 ∧
    (after .frameSent (after (.catQuery (hdr 0)) (atTime 5 quiet))).ttu.time = 5 ∧
    (after .frameSent (after (.partReset (hdr 0)) quiet)).link.sending =
      some (.notice { body := .resetDone .partReset, placed := 0 }) ∧ after .frameSent quiet = quiet := by decide +kernel

/-- Well-formed requests with lists, options and flags, their bytes written out by R192, whole, with bytes after them and
cut short; a segment; a frame of Table 21. -/
theorem witness_RequestBytes :
    (let read := requestOf (hdr 1) false
     let open2 : List Byte := [1#8, 7#8, 1#8, 0#8]
     let places : List Byte := [6#8, 3#8, 2#8, 49#8, 1#8, 1#8, 2#8, 55#8, 0#8, 0#8, 0#8]
     let sets : List Byte := [6#8, 7#8, 1#8, 3#8, 8#8, 255#8, 2#8, 7#8, 1#8, 0#8, 0#8, 1#8, 0#8, 2#8, 4#8, 0#8, 1#8]
     let start : List Byte := [31#8, 0#8, 0#8, 0#8, 1#8, 0#8, 0#8, 0#8, 2#8, 1#8, 5#8, 0#8, 0#8, 0#8, 9#8]
     let c1 : Instr := .openStream (hdr 1) 7 1 0
     let c2 : Instr := .tableWritePositions (hdr 1) [(49, some 258), (55, none)]
     let c3 : Instr := .tableWriteTriggers (hdr 1) [{ number := 3, factor := ⟨8, 255⟩, actions := [⟨7, 1, 256⟩, ⟨2, 0, 0⟩],
                                                      chain := 4, mode := 0, faultGuard := true }]
     let c4 : Instr := .restore (hdr 1) 1 2 (some (5, 9))
     [c1, c2, c3, c4].map Instr.wellFormed = [true, true, true, true] ∧
     [open2, places, sets, start].map read = [some c1, some c2, some c3, some c4] ∧
     read (places ++ [9#8]) = some c2 ∧ [open2, places, sets, start].map (fun bs => read bs.dropLast) = [none, none, none, none] ∧
     read [8#8, 2#8] = none ∧ read [8#8, 1#8] = some (.laneQueryClear (hdr 1)) ∧ read [] = none ∧
     segmentOf (hdr 1) [0#8, 0#8, 0#8, 0#8, 1#8, 2#8, 88#8] = .segment (hdr 1) 258 [88#8] ∧
     frameHdr ([2#8, 0#8, 7#8, 1#8, 0#8, 1#8, 24#8] ++ be 4 5) = hdr 1 ∧
     framePayload ([2#8, 0#8, 7#8, 1#8, 0#8, 1#8, 24#8] ++ be 4 5) = [24#8]) := by decide +kernel

/-- The bytes of RESET_DONE after power-on, of a refusal and of a DAMAGED segment, up to the check; a catalog entry of one
run; the largest four-byte number (R192 Tables 21 to 23). -/
theorem witness_SentBytes :
    (let e : CatEntry := { serial := 3, cart := 5, label := label 0, block := 9, lane := 0, commitTime := 1,
                           runs := [{ stream := 2, first := 4, last := 6 }], status := .verified }
     (txBytes (.notice { body := .resetDone .powerOn, placed := 0 })).take 12 =
       [5#8, 0#8, 0#8, 0#8, 0#8, 6#8, 1#8, 0#8, 0#8, 0#8, 0#8, 0#8] ∧
     (txBytes (.reply { tag := 258, subject := 3, code := 8, status := .badArgument, body := .none })).take 8 =
       [3#8, 1#8, 2#8, 3#8, 0#8, 2#8, 8#8, 2#8] ∧
     (txBytes (.segment { tag := 7, stream := 2, seq := 4, cause := .block, bytes := [] })).take 14 =
       [4#8, 0#8, 7#8, 2#8, 0#8, 8#8, 0#8, 0#8, 0#8, 4#8, 1#8, 2#8, 0#8, 0#8] ∧
     e.runs.length ≤ 8 ∧ (entryBytes e).length = 96 ∧ (entryBytes e).drop 22 = [1#8, 1#8, 2#8, 0#8, 0#8, 0#8, 4#8, 0#8, 0#8,
       0#8, 6#8] ++ List.replicate 63 0#8 ∧ be4 4294967295 = [255#8, 255#8, 255#8, 255#8]) := by decide +kernel

/-- STATUS clears the overflow flag after reporting it, and the counters with clear (R189). -/
theorem witness_StatusReportsThenClears :
    (let s : State := { quiet with link := { quiet.link with overflow := true, counters := { Counters.zero with seg := 3 } } }
     (after (.status (hdr 0) false) s).link.overflow = false ∧ (after (.status (hdr 0) false) s).link.counters.seg = 3 ∧
     (after (.status (hdr 0) true) s).link.counters.seg = 0) := by decide +kernel

theorem witness_ResetsOfThePart :
    after .powerOn library = State.reset ∧ (after .resetInput (atTime 9 library)).ttu.time = 0 ∧
    (after (.partReset (hdr 0)) quiet).link.credit = false ∧ quiet.link.credit = true := by decide +kernel

/-! ## Streams -/

/-- Streams 31 and 32, lengths 0, 1, 4,096 and 4,097 (R6); a refused segment pauses the stream under FULL (R9). -/
theorem witness_SegmentTests :
    (let s := modStream 31 (fun st => { st with state := .opened }) library
     (after (.segment (hdr 32) 0 [1#8]) s).link.counters.seg = 1 ∧ (after (.segment (hdr 31) 0 []) s).link.counters.seg = 1 ∧
     (after (.segment (hdr 31) 0 (List.replicate 4097 1#8)) s).link.counters.seg = 1 ∧
     (after (.segment (hdr 31) 0 [1#8]) s).streams[(31 : StreamId)].nextOffset = 1 ∧
     noticeOf (.segment (hdr 30) 0 [1#8]) s = some (.segRefused 30 .notOpen 0) ∧
     noticeOf (.segment (hdr 31) 1 [1#8]) s = some (.segRefused 31 .order 0) ∧
     noticeOf (.segment (hdr 31) 0 [1#8]) (modStream 31 (fun st => { st with nextSeq := 4294967295 }) s) =
       some (.segRefused 31 .limit 0) ∧
     (after (.segment (hdr 31) 0 [1#8]) (modStream 31 (fun st => { st with staged := 4 }) s)).streams[(31 : StreamId)].paused =
       true) := by decide +kernel

/-- A segment of 1 byte opens a chunk, one of 4,096 is staged at once; 4,095 open bytes and 1, 2 or 4,096 more (R8). -/
theorem witness_SegmentAccepted :
    (let s := modStream 2 (fun st => { st with state := .opened }) library
     let t := modStream 2 (fun st => { st with openChunk := some { seq := 0, bytes := List.replicate 4095 0#8 }, nextSeq := 1 }) s
     let fill := fun v : State => v.streams[(2 : StreamId)].openChunk.map fun c => c.bytes.length
     fill (after (.segment (hdr 2) 0 [1#8]) s) = some 1 ∧
     fill (after (.segment (hdr 2) 0 (List.replicate 4095 1#8)) s) = some 4095 ∧
     (after (.segment (hdr 2) 0 (List.replicate 4096 1#8)) s).streams[(2 : StreamId)].staged = 1 ∧
     fill (after (.segment (hdr 2) 0 [1#8]) t) = none ∧ fill (after (.segment (hdr 2) 0 [1#8, 1#8]) t) = some 1 ∧
     fill (after (.segment (hdr 2) 0 (List.replicate 4096 1#8)) t) = some 4095 ∧
     fill (after (.segment (hdr 2) 0 [1#8])
       (modStream 2 (fun st => { st with openChunk := some { seq := 0, bytes := [1#8] } }) s)) = some 2) := by
  decide +kernel

/-- Subjects 31 and 32, pools 7 and 8, class and verify 1 and 2 (R3, R4). -/
theorem test_open_stream :
    (let s := modLane 1 (fun l => { l with role := .write 7 }) library
     [(32, 0, 0, 0), (31, 8, 0, 0), (31, 7, 2, 0), (31, 7, 0, 2), (31, 1, 0, 0), (31, 7, 1, 1), (0, 0, 0, 0)].map
       (fun x => answerOf (.openStream (hdr x.1) x.2.1 x.2.2.1 x.2.2.2) s) =
     [some .badArgument, some .badArgument, some .badArgument, some .badArgument, some .notFound, some .ok, some .ok] ∧
     answerOf (.openStream (hdr 2) 0 0 0) (opened library) = some .badState) := by decide +kernel

/-- A stream with an open chunk, with a staged one, with records uncommitted only, and with nothing (R14). -/
theorem witness_OpenAndFlushStream :
    (let s := opened library
     let t := modStream 2 (fun st => { st with uncommitted := 0 }) s
     answerOf (.flushStream (hdr 32)) s = some .badArgument ∧ answerOf (.flushStream (hdr 31)) s = some .badState ∧
     (after (.flushStream (hdr 2)) (modStream 2 (fun st => { st with openChunk := some { seq := 0, bytes := [1#8] } }) s)).cmp.ready.length = 1 ∧
     (after (.flushStream (hdr 2)) (modStream 2 (fun st => { st with staged := 1 }) s)).streams[(2 : StreamId)].state = .flushing ∧
     (after (.flushStream (hdr 2)) s).streams[(2 : StreamId)].state = .flushing ∧
     (after (.flushStream (hdr 2)) t).streams[(2 : StreamId)].state = .opened ∧
     (after (.flushStream (hdr 2)) t).link.notices.length = 1 ∧
     (let e : Entry := { stream := 2, seq := 0, raw := some [1#8], mark := .none }
      let staged := modStream 2 (fun st => { st with staged := 2 }) s
      (after (.flushStream (hdr 2)) (modCmp (fun c => { c with ready := [e, e, { e with stream := 3 }] }) staged)).cmp.ready.map Entry.mark =
        [.none, .flush, .none] ∧
      (after (.flushStream (hdr 2)) (modCmp (fun c => { c with engine := some { entry := e, reservation := .newRoom } }) staged)).cmp.engine.map
        (fun x => x.entry.mark) = some .flush)) := by decide +kernel

/-- CLOSE_STREAM at sequence 4,294,967,295, and ABORT_STREAM of a stream with a staged chunk (R15, R16). -/
theorem witness_CloseAndAbortStream :
    (let s := opened library
     answerOf (.closeStream (hdr 31)) s = some .badState ∧ answerOf (.abortStream (hdr 31)) s = some .badState ∧
     answerOf (.closeStream (hdr 32)) s = some .badArgument ∧ answerOf (.abortStream (hdr 32)) s = some .badArgument ∧
     (after (.closeStream (hdr 2)) (modStream 2 (fun st => { st with nextSeq := 4294967295 }) s)).streams[(2 : StreamId)].nextSeq =
       4294967295 ∧
     (after (.closeStream (hdr 2)) (modStream 2 (fun st => { st with openChunk := some { seq := 0, bytes := [1#8] } }) s)).streams[(2 : StreamId)].staged = 1 ∧
     (after (.closeStream (hdr 2)) s).streams[(2 : StreamId)].nextSeq = 1 ∧
     (after (.abortStream (hdr 2)) s).streams[(2 : StreamId)].state = .aborted) := by decide +kernel

/-- A paused stream with room; a closing stream drained with two spans, of which one names an empty index (R10, R15). -/
theorem witness_StreamChecksAndSpans :
    (let s := modStream 2 (fun st => { st with paused := true }) (opened library)
     let two : List Span := [{ cart := 5, first := 0, last := 9 }, { cart := 9, first := 0, last := 0 }]
     let t := modStream 2 (fun st => { st with state := .closing, uncommitted := 0, verifyOnClose := true, spans := two }) s
     (after (.streamResume 2) s).streams[(2 : StreamId)].paused = false ∧
     (after (.streamFlushed 2) (modStream 2 (fun st => { st with state := .flushing, uncommitted := 0 }) s)).streams[(2 : StreamId)].state = .opened ∧
     (after (.closeComplete 2) t).vfy.queue.length = 1 ∧ (after (.closeComplete 2) t).streams[(2 : StreamId)].state = .closed ∧
     (after (.closeComplete 2) s).streams[(2 : StreamId)].state = .opened ∧
     (after (.abortComplete 2) (modStream 2 (fun st => { st with state := .aborted, uncommitted := 0 }) s)).streams[(2 : StreamId)].state = .closed) := by
  decide +kernel

/-! ## Tables -/

/-- Rates 1 and 65,535, 0 and 65,536, equal rates, 8 and 9 steps; intervals 65,535 and 65,536, falling and rising,
32 and 33; location codes 0, 1, 54 and 55 and positions 65,535 and 65,536; no pair, and two for one location (R82, R111,
R112; log entries 18 and 46). -/
theorem witness_WriteMotionTables :
    [[1, 65535], [0], [65536], [5, 5], [1, 2, 3, 4, 5, 6, 7, 8], [1, 2, 3, 4, 5, 6, 7, 8, 9], []].map
      (fun l => answerOf (.tableWriteSpeed (hdr 0) l) library) =
      [some .ok, some .badArgument, some .badArgument, some .badArgument, some .ok, some .badArgument, some .badArgument] ∧
    [[65535, 1], [65536], [1, 2], [2, 2], List.replicate 32 1, List.replicate 33 1, []].map
      (fun l => answerOf (.tableWriteRamp (hdr 0) l) library) =
      [some .ok, some .badArgument, some .badArgument, some .ok, some .ok, some .badArgument, some .badArgument] ∧
    [(0, none), (1, some 65535), (54, none), (55, none), (1, some 65536)].map
      (fun p => answerOf (.tableWritePositions (hdr 0) [p]) library) =
      [some .badArgument, some .ok, some .ok, some .badArgument, some .badArgument] ∧
    answerOf (.tableWritePositions (hdr 0) []) library = some .badArgument ∧
    (after (.tableWritePositions (hdr 0) [(1, some 5), (1, some 6)]) library).tables.positions[0] = some 6 ∧
    answerOf (.tableWriteRamp (hdr 0) [1]) (moving []) = some .busy ∧
    answerOf (.tableWritePositions (hdr 0) [(1, none)]) (moving []) = some .busy := by decide +kernel

/-- The least quotas, each one below its least, a sum of 2,048 and of 2,049, and a region in use (R39). -/
theorem test_write_pool_split :
    (let q : QuotaArg := { ingest := 32, lane0 := 16, lane1 := 16, lane2 := 16, lane3 := 16, read := 32 }
     [q, { q with ingest := 31 }, { q with lane0 := 15 }, { q with lane1 := 15 }, { q with lane2 := 15 }, { q with lane3 := 15 },
      { q with read := 31 }, { q with read := 1952 }, { q with read := 1953 }].map
       (fun q => answerOf (.tableWritePoolSplit (hdr 0) q) library) =
     [some .ok, some .badArgument, some .badArgument, some .badArgument, some .badArgument, some .badArgument,
      some .badArgument, some .ok, some .badArgument] ∧
     answerOf (.tableWritePoolSplit (hdr 0) q) (takeIngest library) = some .busy) := by decide +kernel

/-- Pools 7 and 8, kinds 1 and 2, one pool twice, a busy lane, a lane whose stream is open (R58). -/
theorem witness_WritePoolSplitAndLaneRoles :
    (let w := fun r0 r1 : RoleArg => Instr.tableWriteLaneRole (hdr 0) r0 r1 ⟨1, 0⟩ ⟨1, 0⟩
     [w ⟨0, 0⟩ ⟨0, 7⟩, w ⟨0, 0⟩ ⟨0, 8⟩, w ⟨0, 0⟩ ⟨2, 0⟩, w ⟨0, 3⟩ ⟨0, 3⟩, w ⟨1, 0⟩ ⟨1, 0⟩].map (fun c => answerOf c library) =
       [some .ok, some .badArgument, some .badArgument, some .badArgument, some .ok] ∧
     answerOf (w ⟨1, 0⟩ ⟨1, 0⟩) (laneIn .hold) = some .busy ∧ answerOf (w ⟨1, 0⟩ ⟨1, 0⟩) (opened library) = some .busy ∧
     (after (w ⟨1, 0⟩ ⟨0, 7⟩) library).lanes[(1 : LaneId)].role = .write 7) := by decide +kernel

/-- A new record; a label in use; a floor lowered; an end of data lowered under an entry; a record at PICKER; indexes 63
and 64; the removal of a record, of a WORM record and of an empty index (R95, R96). -/
theorem witness_WriteDirectoryTable :
    (let r : RecordArg := { label := label 9, pool := 0, state := 0, location := 57, home := 1, endOfData := 10, floor := 3,
                            worm := 0, verifiedTo := 0 }
     let w := fun (i : Nat) (r : RecordArg) => answerOf (.tableWriteDirectoryRecord (hdr 0) i r) library
     [w 63 r, w 64 r, w 9 { r with label := label 1 }, w 8 { r with label := label 3, floor := 2 },
      w 7 { r with label := label 2 }, w 5 { r with label := label 0, location := 51 }, w 9 { r with pool := 8 }] =
       [some .ok, some .badArgument, some .badArgument, some .prot, some .prot, some .ok, some .badArgument] ∧
     answerOf (.tableWriteDirectoryRecord (hdr 0) 5 { r with label := label 0, endOfData := 3 })
       (insertEntry 0 5 (label 0) 9 [] library) = some .badState ∧
     answerOf (.tableWriteDirectoryRecord (hdr 0) 5 { r with label := label 0 }) (moveRecord 5 .picker library) = some .busy ∧
     [6, 7, 9, 64].map (fun i => answerOf (.tableWriteDirectoryRemove (hdr 0) i) library) =
       [some .ok, some .prot, some .ok, some .badArgument] ∧
     answerOf (.tableWriteDirectoryRemove (hdr 0) 5) (insertEntry 0 5 (label 0) 9 [] library) = some .badState ∧
     answerOf (.tableWriteDirectoryRemove (hdr 0) 5) (laneIn .ready) = some .busy ∧
     [0, 1, 48, 49, 50, 51, 54, 55, 56, 57, 58].map (fun l => (recordOf { r with location := l }).isSome) =
       [false, true, true, true, true, true, true, false, true, true, false] ∧
     [0, 1, 48, 49].map (fun k => (recordOf { r with home := k }).isSome) = [false, true, true, false] ∧
     (recordOf { r with floor := 11 }).isSome = false ∧ (recordOf { r with verifiedTo := 10 }).isSome = true ∧
     (after (.tableWriteDirectoryRecord (hdr 0) 9 { r with location := 52 })
       (modLane 1 (fun l => { l with state := .unknownMedia }) library)).lanes[(1 : LaneId)].state = .loading ∧
     namedAt (.slot 2) (putRecord 6 (cart 1 .scratch (.slot 5)) library) = none ∧
     namedAt (.slot 5) (putRecord 6 (cart 1 .scratch (.slot 5)) library) = some 6 ∧
     (writeTestFor 5 (laneIn .ready)).due = [.writeStart 0]) := by decide +kernel

/-- Set 7 and 8, a chain mask with and without the set itself, qualifiers 3 and 4 of a lane kind and 31 and 32 of
SEG_REFUSED, delays 1 and 0; capture slots 7 and 8; compare slots 3 and 4; an armed set; no item; what the items read as
(R173, R174, R177). -/
theorem witness_WriteTriggerTablesAndSettings :
    (let t : TriggerArg := { number := 7, factor := ⟨12, 255⟩, actions := [], chain := 127, mode := 1, faultGuard := true }
     let c : CompareArg := { slot := 3, enabled := true, value := 9, lineMask := 255, lineData := 255, triggerMask := 255 }
     [t, { t with number := 8 }, { t with chain := 128 }, { t with factor := ⟨8, 3⟩ }, { t with factor := ⟨8, 4⟩ },
      { t with factor := ⟨11, 31⟩ }, { t with factor := ⟨11, 32⟩ }, { t with factor := ⟨13, 255⟩ },
      { t with actions := [⟨7, 3, 1⟩] }, { t with actions := [⟨7, 3, 0⟩] }, { t with mode := 2 },
      { t with actions := [⟨2, 0, 0⟩, ⟨3, 0, 0⟩, ⟨2, 0, 0⟩] }].map
       (fun t => answerOf (.tableWriteTriggers (hdr 0) [t]) quiet) =
       [some .ok, some .badArgument, some .badArgument, some .ok, some .badArgument, some .ok, some .badArgument,
        some .badArgument, some .ok, some .badArgument, some .badArgument, some .badArgument] ∧
     answerOf (.tableWriteTriggers (hdr 0) [t]) (setArmed 128#8 true quiet) = some .busy ∧
     [(7, ⟨12, 255⟩), (8, ⟨12, 255⟩), (0, ⟨10, 3⟩), (0, ⟨10, 4⟩)].map
       (fun p => answerOf (.tableWriteCaptures (hdr 0) [p]) quiet) =
       [some .ok, some .badArgument, some .ok, some .badArgument] ∧
     [c, { c with slot := 4 }].map (fun c => answerOf (.tableWriteCompares (hdr 0) [c]) quiet) =
       [some .ok, some .badArgument] ∧
     (after (.tableWriteCompares (hdr 0) [c]) quiet).ttu.compares[(3 : Fin 4)].value = 9 ∧
     [.tableWriteTriggers (hdr 0) [], .tableWriteCaptures (hdr 0) [], .tableWriteCompares (hdr 0) []].map
       (fun c => answerOf c quiet) = [some .badArgument, some .badArgument, some .badArgument] ∧
     [(7, ⟨12, 9⟩), (0, ⟨5, 3⟩), (0, ⟨11, 31⟩), (0, ⟨0, 255⟩), (0, ⟨0, 0⟩), (0, ⟨11, 32⟩)].map captureOf =
       [some (7, .byAction), some (0, .event .laneEw (some 3)), some (0, .event .segRefused (some 31)),
        some (0, .event .moveDone none), none, none] ∧
     [c, { c with value := 4294967295 }, { c with value := 4294967296 }, { c with lineMask := 256 },
      { c with lineData := 256 }, { c with triggerMask := 256 }].map (fun c => (compareOf c).isSome) =
       [true, true, false, false, false, false] ∧
     (triggerOf { t with actions := [⟨4, 3, 0⟩, ⟨7, 3, 1⟩] }).map (fun p => p.2.actions) =
       some [.suspendVerify 3, .compareArm 3 1]) := by decide +kernel

/-- Names 0, 1, 10 and 11, and no name; a value below and one above its range is clamped (R186). -/
theorem test_write_settings :
    answerOf (.tableWriteSettings (hdr 0) []) quiet = some .badArgument ∧
    [0, 1, 10, 11].map (fun n => answerOf (.tableWriteSettings (hdr 0) [(n, 5)]) quiet) =
      [some .badArgument, some .ok, some .ok, some .badArgument] ∧
    (after (.tableWriteSettings (hdr 0) [(1, 0), (2, 70000)]) quiet).settings.streamChunks = 1 ∧
    bodyOf (.tableWriteSettings (hdr 0) [(1, 0), (2, 70000)]) quiet = some (.taken [(1, 1), (2, 60000)]) := by
  decide +kernel

/-! ## Reads, the directory and the catalog -/

/-- First 63 and 64, counts 0, 1, 16 and 17; first 4,095 and 4,096; streams 31 and 32; lanes 3 and 4 (R98, R138, R5,
R64). -/
theorem witness_ReadsWithOperands :
    [(63, 1), (64, 1), (0, 0), (0, 16), (0, 17)].map (fun p => answerOf (.tableReadDirectory (hdr 0) p.1 p.2) library) =
      [some .ok, some .badArgument, some .badArgument, some .ok, some .badArgument] ∧
    [(4095, 1), (4096, 1), (0, 0), (0, 16), (0, 17)].map (fun p => answerOf (.catRead (hdr 0) p.1 p.2) library) =
      [some .ok, some .badArgument, some .badArgument, some .ok, some .badArgument] ∧
    [31, 32].map (fun n => answerOf (.streamQuery (hdr n)) library) = [some .ok, some .badArgument] ∧
    [3, 4].map (fun n => answerOf (.laneQuery (hdr n)) library) = [some .ok, some .badArgument] ∧
    [3, 4].map (fun n => answerOf (.laneQueryClear (hdr n)) library) = [some .ok, some .badArgument] ∧
    (after (.laneQueryClear (hdr 0)) (modGov 0 (fun g => { g with starve := 9 }) library)).gov[(0 : LaneId)].starve = 0 := by
  decide +kernel

/-- The nine tables, the loader and the catalog answer on a quiet link, a moving loader included. -/
theorem witness_ReadsAnswerAtAnyTime :
    [.tableReadSpeed (hdr 0), .tableReadRamp (hdr 0), .tableReadPositions (hdr 0), .tableReadPoolSplit (hdr 0),
      .tableReadLaneRole (hdr 0), .tableReadTriggers (hdr 0), .tableReadCaptures (hdr 0), .tableReadCompares (hdr 0),
      .tableReadSettings (hdr 0), .loaderQuery (hdr 0), .catQuery (hdr 0)].map (fun c => answerOf c (moving [])) =
    List.replicate 11 (some .ok) := by decide +kernel

/-- PROTECT to 2, 7 and 4,294,967,295 on a floor of 3 and an end of data of 10; ERASE_FROM at 2, 3, 10 and 11; RECYCLE
and FORGET (R99 to R104). -/
theorem witness_DirectoryRequests :
    [2, 7, 4294967295].map (fun f => bodyOf (.protect (hdr 0) 5 f) library) =
      [some (.number 3), some (.number 7), some (.number 10)] ∧
    [(64, 0), (63, 0), (5, 4294967296)].map (fun p => answerOf (.protect (hdr 0) p.1 p.2) library) =
      [some .badArgument, some .notFound, some .badArgument] ∧
    [63, 64, 5].map (fun i => answerOf (.setWorm (hdr 0) i) library) = [some .notFound, some .badArgument, some .ok] ∧
    [(5, 2), (5, 3), (5, 10), (5, 11), (7, 3), (9, 0), (64, 0)].map
      (fun p => answerOf (.eraseFrom (hdr 0) p.1 p.2) library) =
      [some .prot, some .ok, some .ok, some .badArgument, some .prot, some .notFound, some .badArgument] ∧
    answerOf (.eraseFrom (hdr 0) 5 3) (laneIn .reading) = some .busy ∧
    [5, 6, 7, 9, 64].map (fun i => answerOf (.recycle (hdr 0) i) library) =
      [some .prot, some .ok, some .prot, some .notFound, some .badArgument] ∧
    answerOf (.recycle (hdr 0) 5) (modRecord 5 (fun c => { c with floor := 0 }) (laneIn .writing)) = some .busy ∧
    [5, 8, 9, 64].map (fun i => answerOf (.forget (hdr 0) i) library) =
      [some .badState, some .ok, some .notFound, some .badArgument] ∧
    answerOf (.forget (hdr 0) 6) (moveRecord 6 .missing (moving [])) = some .busy ∧
    (let three := insertEntry 0 5 (label 0) 9 [] (insertEntry 0 6 (label 1) 9 [] (insertEntry 0 5 (label 0) 8 [] library))
     let left := fun b : Nat => (removeEntries 5 b three).cat.entries.map fun e => (e.cart.val, e.block)
     [8, 9, 10].map left = [[(6, 9)], [(5, 8), (6, 9)], [(5, 8), (6, 9), (5, 9)]] ∧ removeEntries 5 10 three = three) := by
  decide +kernel

/-- A pick with its candidate at S3, with room and without; a pick with no candidate; a lane that wants none (R106). -/
theorem witness_ScratchPick :
    (let wants := modLane 0 (fun l => { l with fillWanted := true }) library
     let m : MountRequest := { kind := .scan, cart := none, target := .none, cls := .normal, requesters := [], tag := 0,
                               fillLane := none, inService := false, rebuilt := none }
     namedAt (.slot 2) wants = some 6 ∧ (after (.scratchPick 0) wants).mounts.length = 1 ∧
     (after (.scratchPick 0) (setMounts (List.replicate 7 m) wants)).mounts.length = 8 ∧
     (after (.scratchPick 0) (setMounts (List.replicate 8 m) wants)).lanes[(0 : LaneId)].pickNoRoom = true ∧
     noticeOf (.scratchPick 0) (moveRecord 6 .outside wants) = some (.noScratch 0 0) ∧
     (after (.scratchPick 0) library).mounts = [] ∧ (after (.scratchPick 1) library).mounts = []) := by decide +kernel

/-- Counts 0, 1, 2, 4,096 and 4,097 of one entry, an expected serial that is the oldest and one that is not (R139); a
place held, free room, and none (R133). -/
theorem witness_CatalogRoomAndEntries :
    (let s := insertEntry 0 5 (label 0) 9 [] library
     let e := s.cat.entries.head?.getD { serial := 0, cart := 0, label := [], block := 0, lane := 0, commitTime := 0,
                                         runs := [], status := .bad }
     let full := { s with cat := { s.cat with entries := List.replicate 4096 e } }
     [(0, none), (1, none), (2, none), (4096, none), (4097, none), (1, some 0), (1, some 1)].map
       (fun p => answerOf (.catRelease (hdr 0) p.1 p.2) s) =
       [some .ok, some .ok, some .badArgument, some .badArgument, some .badArgument, some .ok, some .badState] ∧
     (askPlace 0 s).1 = true ∧ (askPlace 0 full).1 = false ∧ (askPlace 0 full).2.cat.fullReported = true ∧
     (askPlace 0 { full with cat := { full.cat with fullReported := true } }).1 = false ∧
     (askPlace 0 { s with cat := { s.cat with places := #v[true, false, false, false] } }).1 = true ∧
     (let holding := modLane 2 (fun l => { l with holdReason := some .catalogFull })
        (modLane 0 (fun l => { l with holdReason := some .catalogFull }) s)
      freeRoom full = 0 ∧ (roomReport holding).due = [.catalogHold 0, .catalogHold 2] ∧
      (roomReport { full with lanes := holding.lanes }).due = [] ∧
      (releasePlace 1 { holding with cat := { holding.cat with places := #v[false, true, false, false] } }).due =
        [.catalogHold 0, .catalogHold 2] ∧ releasePlace 1 holding = holding)) := by decide +kernel

/-! ## Compressor, assembly, expander, pool -/

/-- An entry waits with a new block's room, with an open block's, and with neither (R20); a chunk and an aborted
stream's chunk are completed (R12, R22). -/
theorem witness_CompressorTakesAndCompletes :
    (let e : Entry := { stream := 2, seq := 0, raw := some [1#8], mark := .none }
     let s := modCmp (fun c => { c with ready := [e] }) (takeIngest (modStream 2 (fun st => { st with staged := 1 }) (opened library)))
     let withOpen := modAsm 0 (fun a => { a with openBlock := some { records := [], runs := [], openedAt := 0, deferred := none } }) s
     let noRoom := modHeld (fun h => { h with assembly := #v[256, 0, 0, 0] }) s
     (after .compressorTake s).cmp.engine = some { entry := e, reservation := .newRoom } ∧
     (after .compressorTake withOpen).cmp.engine = some { entry := e, reservation := .openRoom } ∧
     (after .compressorTake noRoom).cmp.engine = none ∧
     (after .compressionComplete (after .compressorTake s)).streams[(2 : StreamId)].uncommitted = 2 ∧
     (after .compressionComplete (modStream 2 (fun st => { st with state := .aborted }) (after .compressorTake s))).streams[(2 : StreamId)].uncommitted = 1 ∧
     (after .compressionComplete s).cmp = s.cmp) := by decide +kernel

/-- The seventh and eighth stored fallback (R25); an open block too full for a record of 1 byte, one with eight other
streams, and one with room (R47); age 199,999 and 200,000 ticks at SEAL_AGE 2,000 ms (R50). -/
theorem witness_RecordsPlacedAndSealed :
    (let st := { Stream.reset with storedRun := 7 }
     let e : Entry := { stream := 2, seq := 0, raw := some [1#8], mark := .none }
     let withOpen := fun (rs : List Record) (runs : List Run) =>
       modAsm 0 (fun a => { a with openBlock := some { records := rs, runs := runs, openedAt := 0, deferred := none } }) library
     let big : Record := { chunk with payload := List.replicate 65472 0#8 }
     let eight := (List.finRange 8).map fun k : Fin 8 =>
       ({ stream := ⟨k.val + 8, by omega⟩, first := 0, last := 0, count := 1 } : Run)
     let queue := fun v : State => v.asm[(0 : LaneId)].sealedQueue.map SealedBlock.cause
     let aged := withOpen [chunk] [{ stream := 2, first := 9, last := 9, count := 1 }]
     (methodCounts e .stored st).skip = 64 ∧ (methodCounts e .stored { st with storedRun := 6 }).storedRun = 7 ∧
     (methodCounts e .packed st).storedRun = 0 ∧ (methodCounts e .stored { st with skip := 1 }).skip = 0 ∧
     queue (placeRecord 0 chunk (withOpen [big] [])) = [.full] ∧ queue (placeRecord 0 chunk (withOpen [] eight)) = [.streamLimit] ∧
     queue (placeRecord 0 chunk aged) = [] ∧ queue (placeRecord 0 { chunk with mark := .flush } library) = [.mark] ∧
     queue (after (.sealAgeExpiry 0) (atTime 199999 aged)) = [] ∧ queue (after (.sealAgeExpiry 0) (atTime 200000 aged)) = [.age] ∧
     (let reserve := fun v : State => modCmp (fun c => { c with engine := some { entry := e, reservation := .openRoom } }) v
      let deferred := fun v : State => v.asm[(0 : LaneId)].openBlock.map OpenBlock.deferred
      queue (askSeal 0 .mark aged) = [.mark] ∧ deferred (askSeal 0 .age (reserve aged)) = some (some .age) ∧
      deferred (askSeal 0 .age (askSeal 0 .mark (reserve aged))) = some (some .mark) ∧
      deferred (askSeal 0 .mark (askSeal 0 .age (reserve aged))) = some (some .mark) ∧
      askSeal 0 .mark (reserve library) = reserve library ∧ deferredSeal 0 aged = aged ∧ deferredSeal 0 library = library ∧
      queue (deferredSeal 0 (askSeal 0 .mark (reserve aged))) = [.mark])) := by
  decide +kernel

/-- The restore's record goes first; verify slots go round from the lane after the last served (R32); a front request of
16 pages with 16 pages of room and with 15 (R43). -/
theorem witness_ExpanderAndReadGrants :
    (let w : WalkedRecord := { stream := 2, method := 1, rawLength := 1, codedLength := 1, seq := 9, digest := crc32 [1#8], payload := [1#8] }
     let q : ExpandRequest := { record := w, outputPage := false, abandoned := false, keptPages := 0 }
     let s := modExp (fun e => { e with verifySlots := #v[some q, none, none, some q] }) library
     let wait := fun k : Nat => modPool (fun p => { p with waiting := [{ client := .verify 1, pages := 16 }] })
       (takeRead (512 - k) library)
     (after .expanderTake s).exp.lastServed = 0 ∧ (after .expanderTake (after .expansionComplete (after .expanderTake s))).exp.lastServed = 3 ∧
     (after .expanderTake (modExp (fun e => { e with restoreSlot := some q }) s)).exp.restoreSlot = none ∧
     (after .expanderTake library).exp.engine = none ∧
     (after .readGrant (wait 16)).pool.waiting = [] ∧ (after .readGrant (wait 15)).pool.waiting.length = 1 ∧
     (withdrawRead (.verify 1) (wait 15)).pool.waiting = [] ∧ (withdrawRead (.verify 1) (wait 15)).due = [.readGrant] ∧
     withdrawRead .restore (wait 15) = wait 15) := by decide +kernel

/-- Outcomes of the methods 0, 1, 2 and 3, of lengths 0 and 4,097 and of a wrong digest (R33 to R35); a completed
expansion of a verify pass is counted (R36, R151). -/
theorem witness_ExpansionComplete :
    (let w : WalkedRecord := { stream := 2, method := 1, rawLength := 1, codedLength := 1, seq := 9, digest := crc32 [1#8], payload := [1#8] }
     let q : ExpandRequest := { record := w, outputPage := false, abandoned := false, keptPages := 0 }
     let x := fun q => modExp (fun e => { e with engine := some { client := .verify 1, request := q } })
     let checking := modCtx 1 (fun c => { c with stage := .check }) verifying
     expand w = .good [1#8] ∧ expand { w with digest := 0 } = .damaged ∧ expand { w with method := 0 } = .corrupt ∧
     expand { w with method := 4 } = .corrupt ∧ expand { w with rawLength := 4097, codedLength := 4097 } = .corrupt ∧
     expand { w with method := 3, rawLength := 0, codedLength := 0, payload := [], digest := 0 } = .good [] ∧
     expand { w with method := 2, rawLength := 3, codedLength := 2, payload := [129#8, 1#8] } ≠ .good [1#8] ∧
     (after .expansionComplete (x q checking)).vfy.contexts[(1 : LaneId)].records = 1 ∧
     (after .expansionComplete (x { q with abandoned := true, keptPages := 16 } verifying)).pool.held.read = 0 ∧
     (after .expansionComplete (modCtx 1 (fun c => { c with todo := [w] }) (x { q with abandoned := true } checking))).exp.verifySlots[(1 : LaneId)].isSome = true ∧
     clientBusy (.verify 1) (x q checking) = true ∧ clientBusy .restore (x q checking) = false ∧
     (abandonPages (.verify 1) 16 (x q checking)).pool.held.read = 16 ∧ (abandonPages (.verify 1) 16 checking).pool.held.read = 0 ∧
     (surrenderPages .restore 17 (takeRead 1 (modExp (fun e => { e with restoreSlot := some q }) checking))).exp.restoreSlot =
       some { q with abandoned := true, keptPages := 17 } ∧
     (abandonPages .restore 17 (takeRead 1 (modExp (fun e => { e with restoreSlot := some q }) checking))).pool.held.read = 0 ∧
     (let left := modExp (fun e => { e with restoreSlot := some { q with abandoned := true, keptPages := 16 } }) checking
      (emptySlot .restore left).exp.restoreSlot = none ∧ (emptySlot .restore left).pool.held.read = 0 ∧
      emptySlot (.verify 1) left = left)) := by
  decide +kernel

/-- Chunks of 1 byte and of 130 equal bytes, packed and stored; the items of a chunk that repeats its first three bytes,
and their coded form; the coded forms that R34 calls CORRUPT. -/
theorem witness_RecordsExpandToTheirBytes :
    (let e := fun bs : List Byte => ({ stream := 2, seq := 0, raw := some bs, mark := .none } : Entry)
     (formRecord (e [1#8]) true).method = .stored ∧ (formRecord (e (List.replicate 130 7#8)) true).method = .packed ∧
     (formRecord (e (List.replicate 130 7#8)) false).method = .stored) ∧
    packItems [65#8, 66#8, 67#8, 65#8, 66#8, 67#8, 65#8, 88#8] =
      [.literal 65#8, .literal 66#8, .literal 67#8, .copy 3 4, .literal 88#8] ∧
    pack [65#8, 66#8, 67#8, 65#8, 66#8, 67#8, 65#8, 88#8] = [2#8, 65#8, 66#8, 67#8, 129#8, 0#8, 3#8, 0#8, 88#8] ∧
    (let go := fun (raw : Nat) (bs : List Byte) => unpack raw bs.length bs []
     go 8 [2#8, 65#8, 66#8, 67#8, 129#8, 0#8, 3#8, 0#8, 88#8] =
       some [65#8, 66#8, 67#8, 65#8, 66#8, 67#8, 65#8, 88#8] ∧
     [go 8 [2#8, 65#8, 66#8, 67#8, 129#8, 0#8, 4#8, 0#8, 88#8], go 8 [2#8, 65#8, 66#8, 67#8, 129#8, 0#8, 3#8, 0#8],
      go 9 [2#8, 65#8, 66#8, 67#8, 129#8, 0#8, 3#8, 0#8, 88#8], go 7 [2#8, 65#8, 66#8, 67#8, 129#8, 0#8, 3#8, 0#8, 88#8],
      go 8 [2#8, 65#8, 66#8, 67#8, 129#8, 0#8, 0#8, 0#8, 88#8], go 8 [2#8, 65#8, 66#8, 67#8, 129#8, 0#8],
      go 8 [2#8, 65#8, 66#8]] = List.replicate 7 none) := by decide +kernel

/-- The block of one record meets the limits of a sealed block. -/
theorem witness_BlocksReadBack :
    (let b := block .full
     (label 0).length = 8 ∧ b.records ≠ [] ∧ b.records.length ≤ 4094 ∧ (b.records.map Record.size).sum ≤ 65504 ∧
     b.runs.length = 1 ∧ (b.runs.map Run.stream).Nodup ∧
     (∀ r ∈ b.records, r.payload.length ≤ 4096 ∧ r.rawLength < 65536 ∧ r.seq < 4294967296 ∧
       r.stream ∈ b.runs.map Run.stream) ∧
     (∀ x ∈ b.runs, ∃ r ∈ b.records, r.stream = x.stream) ∧
     (∀ i : StreamId, List.IsChain (fun p q : Nat => q = p + 1)
      ((b.records.filter fun r => decide (r.stream = i)).map Record.seq))) := by
  refine ⟨by decide, by decide, by decide, by decide, by decide, by decide, by decide, by decide, fun i => ?_⟩
  by_cases h : (2 : StreamId) = i <;> simp [block, chunk, h]

/-- The four tests of a block, each failing alone (R150, R194): no block; a check that is 1 off; another label and another
number; run counts 0, 1, 2, 8 and 9, streams 31 and 32, one listed twice and one without a record; record counts 0, 2 and
3; an unlisted stream, a sequence repeated, a coded length of 4,097, and a last record cut off. The check bytes are
counted as 0 and a block shorter than 65,536 bytes stands for one that ends there. -/
theorem witness_BlocksReadBack_tests :
    (let record := fun (i q k : Nat) (payload : List Byte) =>
       be 1 i ++ be 1 1 ++ [0, 0] ++ be 2 2 ++ be 2 k ++ be 4 q ++ be 4 9 ++ payload
     let two := record 31 5 2 [1, 2] ++ record 31 6 0 []
     let whole := fun (runs : Nat) (streams : List Byte) (records : Nat) (area : List Byte) (off : Nat) =>
       let parts := fun c => label 0 ++ be 4 7 ++ be 4 c ++ [0] ++ be 1 runs ++ be 2 records ++
         (streams ++ List.replicate 8 255#8).take 8 ++ List.replicate 4 0#8 ++ area
       parts ((crc32 (parts 0)).toNat + off)
     let fails := fun (b : List Byte) => match testBlock (some b) (label 0) 7 with
       | .ok _ => none
       | .error e => some e
     let walked := fun (q : Nat) (p : List Byte) => ({ stream := 31, method := 1, rawLength := 2, codedLength := p.length,
                                                       seq := q, digest := 9, payload := p } : WalkedRecord)
     let good := whole 1 [31] 2 two 0
     testBlock (some good) (label 0) 7 = .ok [walked 5 [1, 2], walked 6 []] ∧
     testBlock none (label 0) 7 = .error .readFailed ∧ fails (whole 1 [31] 2 two 1) = some .check ∧
     testBlock (some good) (label 1) 7 = .error .header ∧ testBlock (some good) (label 0) 8 = .error .header ∧
     [0, 1, 2, 8, 9].map (fun k => fails (whole k [31] 2 two 0)) =
       [some .layout, none, some .layout, some .layout, some .layout] ∧
     fails (whole 1 [32] 1 (record 32 5 0 []) 0) = some .layout ∧ fails (whole 2 [31, 31] 2 two 0) = some .layout ∧
     fails (whole 2 [31, 0] 2 two 0) = some .layout ∧ fails (whole 2 [31, 0] 3 (two ++ record 0 0 0 []) 0) = none ∧
     [0, 1, 3].map (fun k => fails (whole 1 [31] k two 0)) = [some .layout, none, some .layout] ∧
     fails (whole 1 [30] 2 two 0) = some .layout ∧ fails (whole 1 [31] 2 (two.take 18 ++ record 31 5 0 []) 0) = some .layout ∧
     (∀ k ∈ [4096, 4097], (walkRecords [31] 1 (record 31 5 k (List.replicate k 0#8)) []).isSome = decide (k = 4096)) ∧
     fails (whole 1 [31] 2 (two.take 33) 0) = some .layout ∧
     fails (whole 1 [31] 1 (record 31 5 2 [1]) 0) = some .layout) := by decide +kernel

/-! ## Drive lanes -/

/-- LANE_EJECT in READY, HOLD and UNKNOWN_MEDIA, in WRITING with and without a command, and of lane 4; LANE_RESET of a
writing lane, and of one on which a restore reads, a first and a second time (R64, R75, R89, R168). -/
theorem witness_LaneEjectAndReset :
    [LaneState.ready, .hold, .unknownMedia, .writing].map (fun st => answerOf (.laneEject (hdr 0)) (laneIn st)) =
      [some .ok, some .ok, some .ok, some .badState] ∧
    answerOf (.laneEject (hdr 0)) writing = some .busy ∧
    [.laneEject (hdr 4), .laneReset (hdr 4), .laneReset (hdr 3)].map (fun c => answerOf c library) =
      [some .badArgument, some .badArgument, some .ok] ∧
    (after (.laneReset (hdr 0)) writing).lanes[(0 : LaneId)] = { Lane.reset with role := .write 0 } ∧
    (after (.laneReset (hdr 0)) writing).asm[(0 : LaneId)].sealedQueue.length = 1 ∧
    ((after (.laneReset (hdr 0)) writing).cdr.records[(5 : CartId)]).map Cart.needsLocate = some true ∧
    ((after (.laneReset (hdr 0)) writing).cdr.records[(6 : CartId)]).map Cart.needsLocate = some false ∧
    (after (.laneEject (hdr 0)) (laneIn .ready)).lanes[(0 : LaneId)].serverEject = true ∧
    (let read := fun k => modRse (fun x => { x with active := some { restoration with lane := some 0, laneFaults := k } })
       (modLane 0 (fun l => { l with activity := .restore }) (laneIn .reading))
     let reset := fun v => after (.laneReset (hdr 0)) v
     let other := modRse (fun x => { x with active := some { restoration with lane := some 1 } }) (laneIn .reading)
     (reset (read 0)).rse.active = some { restoration with laneFaults := 1 } ∧ (reset (read 1)).rse.active = none ∧
     (reset other).rse = other.rse ∧ (enterFault 0 .timeout (read 0)).rse.active.map RestoreContext.laneFaults = some 1 ∧
     (enterFault 0 .timeout (read 1)).rse.active = none ∧ (enterFault 0 .timeout other).rse = other.rse ∧
     (reset (modGov 0 (fun g => { g with inflow := 5, delivered := 6, repositions := 7 }) writing)).gov[(0 : LaneId)] =
       { smoothed := 0, step := 0, stable := 0, window := none, inflow := 0, repositions := 0, delivered := 0,
         meter := { inflow := 0, delivered := 0, repositions := 0, exponent := 0 }, starve := 0,
         repositionTotal := 0 }) := by decide +kernel

/-- PRESENT with and without a cartridge, with no record at the bay, and outside OFFLINE; ABSENT; a deadline of 100 ticks
at 99 and at 100; a reposition in and out of a window (R59, R61, R78). -/
theorem witness_DriveReportsAndFaults :
    (let state := fun (v : State) (n : LaneId) => v.lanes[n].state
     state (after (.drivePresent 0 true) library) 0 = .loading ∧ state (after (.drivePresent 1 true) library) 1 = .unknownMedia ∧
     state (after (.drivePresent 1 false) library) 1 = .empty ∧ state (after (.drivePresent 0 true) (laneIn .ready)) 0 = .ready ∧
     state (after (.driveAbsent 0) library) 0 = .offline ∧ state (after (.driveAbsent 0) (laneIn .hold)) 0 = .fault ∧
     state (after (.commandTimeout 0) (atTime 99 writing)) 0 = .writing ∧
     state (after (.commandTimeout 0) (atTime 100 writing)) 0 = .fault ∧ after (.commandTimeout 0) library = library ∧
     (after (.reposition 0) library).gov[(0 : LaneId)].repositions = 0 ∧
     (after (.reposition 0) (startWindow 0 library)).gov[(0 : LaneId)].repositions = 1 ∧
     noticeOf (.driveAbsent 0) (laneIn .hold) = some (.laneFault 0 .mechanism (some 5))) := by decide +kernel

/-- THREAD with a record, with none, and with a restore claim; LOCATE for writing and for reading; EJECT of a FULL
cartridge; the listed and the other reasons of each FAIL; a late answer (R59, R60, R62, R65, R71). -/
theorem witness_ThreadLocateEjectAnswers :
    (let lane := fun (v : State) (n : LaneId) => v.lanes[n]
     let loading := flying .thread library
     let locating := fun p => flying (.locate 10 p) (laneIn .locating)
     (lane (after (.threadDone 0) loading) 0).state = .ready ∧ (lane (after (.threadDone 0) loading) 0).mounted = some 5 ∧
     (lane (after (.threadDone 0) (moveRecord 5 (.slot 9) loading)) 0).state = .unknownMedia ∧
     (lane (after (.threadDone 0) (modLane 0 (fun l => { l with claim := .restore }) loading)) 0).state = .reading ∧
     (lane (after (.locateDone 0) (withQueue [block .full] (locating .write))) 0).state = .writing ∧
     (lane (after (.locateDone 0) (locating .read)) 0).state = .reading ∧
     (lane (after (.locateDone 0) (modLane 0 (fun l => { l with releasing := true }) (locating .read))) 0).state = .ready ∧
     (lane (after (.ejectDone 0) (modRecord 5 (fun c => { c with state := .full }) (flying .eject (laneIn .unloading)))) 0).fillWanted = true ∧
     (lane (after (.threadFail 0 .loadError) loading) 0).faultCode = some .loadFail ∧
     (lane (after (.threadFail 0 .readError) loading) 0).faultCode = some .mechanism ∧
     (lane (after (.locateFail 0 .mediaEnd) (locating .read)) 0).faultCode = some .readFail ∧
     (lane (after (.locateFail 0 .writeError) (locating .read)) 0).faultCode = some .mechanism ∧
     (lane (after (.ejectFail 0 .loadError) (flying .eject (laneIn .unloading))) 0).faultCode = some .loadFail ∧
     after (.threadDone 0) writing = writing ∧ after (.stepFail 0 .mechanism) writing = writing ∧
     (lane (after (.ejectDone 0) (modLane 0 (fun l => { l with serverEject := true })
       (modRecord 5 (fun c => { c with state := .full }) (flying .eject (laneIn .unloading))))) 0).fillWanted = false ∧
     (fillTest 0 (laneIn .ejected)).due = [] ∧
     (failCommand 0 .timeout writing).lanes[(0 : LaneId)] = { writing.lanes[(0 : LaneId)] with
       state := .fault
       faultCode := some .timeout
       tapePosition := none
       command := none }) := by decide +kernel

/-- WRITE DONE commits block 10 to cartridge 5, whose end of data becomes 11 (R67); MEDIA_END makes it FULL, WRITE_ERROR
SUSPECT (R69, R70); STEP DONE sends the head, STEP FAIL faults (R81). -/
theorem witness_WriteAnswersAndCommit :
    (let eod := fun v : State => (v.cdr.records[(5 : CartId)]).map fun c => (c.state, c.endOfData)
     let step := flying (.step 0) (withQueue [block .full] (laneIn .writing))
     mountedRecord 0 writing = some (5, cart 0 .filling (.bay 0)) ∧ writing.asm[(0 : LaneId)].sealedQueue = [block .full] ∧
     eod (after (.writeDone 0 false) writing) = some (.filling, 11) ∧
     (after (.writeDone 0 false) writing).streams[(2 : StreamId)].uncommitted = 0 ∧
     (after (.writeDone 0 false) writing).cat.entries.map CatEntry.block = [10] ∧
     (after (.writeDone 0 true) writing).lanes[(0 : LaneId)].state = .unloading ∧
     eod (after (.writeMediaEnd 0) writing) = some (.full, 10) ∧ eod (after (.writeFail 0 .mediaEnd) writing) = some (.full, 10) ∧
     eod (after (.writeFail 0 .writeError) writing) = some (.suspect, 10) ∧
     inFlight 0 (after (.stepDone 0) step) = some (.write 10) ∧
     (after (.stepFail 0 .mediaEnd) step).lanes[(0 : LaneId)].faultCode = some .mechanism ∧
     (let at_ := fun (st : CartState) (b : Nat) => modRecord 5 (fun c => { c with state := st, endOfData := b }) writing
      [(CartState.scratch, 0), (.filling, 4294967294), (.filling, 4294967295), (.suspect, 4294967295)].map
        (fun p => eod (commitHead 0 p.2 (at_ p.1 p.2))) =
        [some (.filling, 1), some (.full, 4294967295), some (.full, 4294967295), some (.suspect, 4294967295)] ∧
      (after (.writeDone 0 false) (at_ .filling 4294967294)).lanes[(0 : LaneId)].state = .unloading) ∧
     (let two := withQueue [block .full, block .full] writing
      (after (.writeDone 0 true) two).lanes[(0 : LaneId)].allowance = some 1 ∧
      inFlight 0 (after (.writeDone 0 true) two) = some (.write 11) ∧
      (earlyWarning 0 false (modLane 0 (fun l => { l with allowance := some 3 }) two)).lanes[(0 : LaneId)].allowance = some 2 ∧
      earlyWarning 0 false two = two ∧
      (continueWriting 0 (modLane 0 (fun l => { l with allowance := some 0 }) two)).lanes[(0 : LaneId)].state = .unloading ∧
      (continueWriting 0 (modLane 0 (fun l => { l with claim := .restore }) two)).lanes[(0 : LaneId)].activity = .restore ∧
      (endCartridge 0 (modLane 0 (fun l => { l with claim := .restore }) two)).lanes[(0 : LaneId)].ejectPending = true) ∧
     (after (.writeDone 0 false) writing).lanes[(0 : LaneId)].holdReason = some .queueEmpty ∧
     (let span := fun (k : CartId) (b : Nat) => ({ cart := k, first := b, last := b } : Span)
      let spans := fun l : List Span =>
        let st := (commitHead 0 10 (modStream 2 (fun st => { st with spans := l }) writing)).streams[(2 : StreamId)]
        (st.spans, st.spanOverflow)
      let old := [span 1 0, span 2 0, span 3 0, span 6 0]
      spans [] = ([span 5 10], false) ∧ spans [span 6 1, span 5 8] = ([span 6 1, { span 5 8 with last := 10 }], false) ∧
      spans (old.take 3) = (old.take 3 ++ [span 5 10], false) ∧ spans old = (old.drop 1 ++ [span 5 10], true) ∧
      spans (old.drop 1 ++ [span 5 9]) = (old.drop 1 ++ [{ span 5 9 with last := 10 }], false)) ∧
     (let timed := fun d : Nat => modGov 0 (fun g => { g with
        window := some { start := 0, exponent := 10 }
        delivered := d }) writing
      [0, 4294901759, 4294901760, 4294967295].map (fun d => (commitHead 0 10 (timed d)).gov[(0 : LaneId)].delivered) =
        [65536, 4294967295, 4294967295, 4294967295] ∧
      (commitHead 0 10 writing).gov[(0 : LaneId)].delivered = 0) ∧
     (let e : CatEntry := { serial := 7, cart := 1, label := label 1, block := 0, lane := 0, commitTime := 0, runs := [],
                            status := .bad }
      let told := fun k : Nat => (commitHead 0 10 { writing with cat := { writing.cat with
        entries := List.replicate k e
        nextSerial := 9 } }).link.notices.map Notice.body
      told 3582 = [] ∧ told 3583 = [.catalogHigh 3584 7 10] ∧ told 3584 = [])) := by decide +kernel

/-- A read answered for a verify pass, failed, withdrawn, and failed by the mechanism (R72). -/
theorem witness_ReadAnswers :
    (let lane := fun v : State => v.lanes[(1 : LaneId)]
     inFlight 1 verifying = some (.read 3) ∧ (lane (after (.readDone 1 []) verifying)).tapePosition = some 4 ∧
     (after (.readDone 1 []) verifying).vfy.contexts[(1 : LaneId)].badBlocks = 1 ∧
     (lane (after (.readFail 1 .readError) verifying)).tapePosition = none ∧
     ((lane (after (.readFail 1 .mediaEnd) verifying)).state = .reading ∨ (lane (after (.readFail 1 .mediaEnd) verifying)).state = .locating)) ∧
    (after (.readFail 1 .mechanism) verifying).lanes[(1 : LaneId)].state = .fault ∧
    (after (.readDone 1 []) (modLane 1 (fun l => { l with discard := true }) verifying)).vfy.contexts[(1 : LaneId)].badBlocks = 0 ∧
    laneRead 1 4 verifying = verifying ∧ inFlight 0 (laneRead 0 10 (laneIn .reading)) = some (.read 10) ∧
    (laneRead 0 10 (laneIn .reading)).lanes[(0 : LaneId)].state = .reading ∧
    inFlight 0 (laneRead 0 9 (laneIn .reading)) = some (.locate 9 .read) ∧
    (laneRead 0 9 (laneIn .reading)).lanes[(0 : LaneId)].state = .locating := by
  decide +kernel

/-- The write-start test with the position known and not; a HOLD below and at the mark of 4, with a mark-sealed block, and
with a flushing stream's record; a HOLD for catalog room with room and without (R65, R84, R85). -/
theorem witness_WriteTests :
    (let state := fun v : State => v.lanes[(0 : LaneId)].state
     let holding := fun (r : HoldReason) (l : List SealedBlock) =>
       withQueue l (modLane 0 (fun l => { l with holdReason := some r }) (laneIn .hold))
     let b := block .full
     let e : CatEntry := { serial := 0, cart := 5, label := label 0, block := 0, lane := 0, commitTime := 0, runs := [],
                           status := .unverified }
     state (after (.writeStartTest 0) (withQueue [b] (laneIn .ready))) = .writing ∧
     state (after (.writeStartTest 0) (modLane 0 (fun l => { l with tapePosition := none }) (withQueue [b] (laneIn .ready)))) = .locating ∧
     state (after (.writeStartTest 0) (laneIn .ready)) = .ready ∧
     state (after (.holdResume 0) (holding .queueEmpty [b, b, b])) = .hold ∧
     state (after (.holdResume 0) (holding .queueEmpty [b, b, b, b])) = .writing ∧
     state (after (.holdResume 0) (holding .queueEmpty [block .mark])) = .writing ∧
     state (after (.holdResume 0) (modStream 2 (fun st => { st with state := .flushing }) (holding .queueEmpty [b]))) = .writing ∧
     state (after (.catalogHoldResume 0) (holding .catalogFull [b])) = .writing ∧
     state (after (.catalogHoldResume 0) (modCat (fun c => { c with entries := List.replicate 4096 e }) (holding .catalogFull [b]))) = .hold ∧
     state (after (.catalogHoldResume 0) (holding .queueEmpty [b])) = .hold ∧
     (sendHead 0 (modLane 0 (fun l => { l with claim := .restore }) (laneIn .writing))).lanes[(0 : LaneId)].activity = .restore ∧
     inFlight 0 (sendHead 0 (modLane 0 (fun l => { l with driveStep := none }) (laneIn .writing))) = some (.step 0) ∧
     inFlight 0 (sendHead 0 (laneIn .writing)) = some (.write 10) ∧
     (sendHead 0 (modCat (fun c => { c with entries := List.replicate 4096 e }) (laneIn .writing))).lanes[(0 : LaneId)].holdReason =
       some .catalogFull) := by decide +kernel

/-- The windows of the worked sequence of 5.3: S 200,000, two blocks queued, inflow 150,000 and 140,000, step 1 of the
rates 100, 200, 300, 400 (R79, R80). Elapsed 1,023 and 1,024 ticks of a window of 2^10. -/
theorem witness_WindowEnds :
    (let g : Governor := { Governor.reset with smoothed := 200000, step := 1, window := some { start := 0, exponent := 10 }, inflow := 150000, repositions := 1 }
     let s := withQueue [block .full, block .full] (modGov 0 (fun _ => g) { library with tables := { library.tables with speed := [300, 600, 900, 1200] } })
     let t := after (.windowEnd 0) (atTime 1024 s)
     (after (.windowEnd 0) (atTime 1023 s)).gov[(0 : LaneId)] = g ∧ t.gov[(0 : LaneId)].smoothed = 187500 ∧
     t.gov[(0 : LaneId)].step = 1 ∧ t.gov[(0 : LaneId)].stable = 1 ∧ t.gov[(0 : LaneId)].meter.inflow = 150000 ∧
     (after (.windowEnd 0) (modGov 0 (fun g => { g with inflow := 140000 }) (atTime 2048 t))).gov[(0 : LaneId)].smoothed = 175625 ∧
     (after (.windowEnd 0) (modGov 0 (fun g => { g with inflow := 140000 }) (atTime 2048 t))).gov[(0 : LaneId)].step = 0 ∧
     (after (.windowEnd 0) (modGov 0 (fun g => { g with repositions := 3 }) (atTime 1024 s))).gov[(0 : LaneId)].step = 0 ∧
     after (.windowEnd 0) library = library ∧
     (let timer := fun (old new : LaneState) =>
        let v := setLaneState 0 new (modGov 0 (fun _ => g) (atTime 9 (laneIn old)))
        (v.gov[(0 : LaneId)].window.map Window.start, v.gov[(0 : LaneId)].inflow, v.due.length)
      [timer .ready .writing, timer .hold .writing, timer .writing .writing, timer .writing .hold, timer .writing .ready] =
        [(some 9, 0, 5), (some 9, 0, 5), (some 0, 150000, 5), (some 0, 150000, 5), (none, 150000, 5)])) := by decide +kernel

/-! ## Loader -/

/-- HOME and STOP in the six loader states (R128 Table 17); a home sensor already active; stop modes 0, 1 and 2; a travel
of 10 steps at index 3 stopped with DECEL keeps 4 (R115); LOADER_RESET of a served request. -/
theorem witness_HomeStopAndLoaderReset :
    (let inState := fun st => modLdr (fun d => { d with state := st }) library
     let all : List LoaderState := [.unhomed, .homing, .idle, .running, .stopping, .fault]
     let travel := modLdr (fun d => { d with remaining := 6, ramp := 3 }) (moving [.travel (.slot 2)])
     let scan : MountRequest := { kind := .scan, cart := none, target := .none, cls := .normal, requesters := [], tag := 0,
                                  fillLane := none, inService := false, rebuilt := none }
     all.map (fun st => answerOf (.home (hdr 0) false) (inState st)) =
       [some .ok, some .badState, some .ok, some .badState, some .badState, some .faulted] ∧
     all.map (fun st => answerOf (.stop (hdr 0) 0) (inState st)) =
       [some .badState, some .ok, some .badState, some .ok, some .ok, some .badState] ∧
     answerOf (.stop (hdr 0) 2) travel = some .badArgument ∧
     (after (.home (hdr 0) true) (inState .unhomed)).ldr.logical = some 0 ∧
     (after (.stop (hdr 0) 0) travel).ldr.remaining = 4 ∧ (after (.stop (hdr 0) 1) travel).ldr.remaining = 1 ∧
     (after (.stop (hdr 0) 1) (moving [.get (.slot 2)])).ldr.state = .stopping ∧
     (after (.stop (hdr 0) 1) (moving [.laneEject 0])).ldr.state = .idle ∧
     (after (.loaderReset (hdr 0)) travel).ldr.state = .unhomed ∧
     (after (.loaderReset (hdr 0)) (setMounts (scan :: travel.mounts) travel)).mounts.map MountRequest.kind = [.move, .scan] ∧
     (after (.loaderReset (hdr 0)) travel).mounts.map MountRequest.inService = [false] ∧
     (let held := moveRecord 7 .picker travel
      let mount := setMounts (held.mounts.map fun m => { m with kind := .mount }) held
      (after (.loaderReset (hdr 0)) mount).mounts.map MountRequest.rebuilt = [some 7] ∧
      (after (.loaderReset (hdr 0)) held).mounts.map MountRequest.rebuilt = [none])) := by decide +kernel

/-- Destinations 0, 1, 48, 49, 50, 51, 54 and 55, mail slots 48 to 51, indexes 63 and 64; a WORM, an OUTSIDE and a queued
cartridge; the queue with 7 and 8; SCAN twice; IMPORT's operands at their bounds (R107, R120). -/
theorem witness_LoaderRequestsQueued :
    (let m : MountRequest := { kind := .mount, cart := some 30, target := .none, cls := .normal, requesters := [], tag := 0,
                               fillLane := none, inService := false, rebuilt := none }
     [0, 1, 48, 49, 50, 51, 54, 55].map (fun p => answerOf (.move (hdr 0) 6 p) library) =
       [some .badArgument, some .ok, some .ok, some .badArgument, some .badArgument, some .ok, some .ok, some .badArgument] ∧
     [48, 49, 50, 51].map (fun p => answerOf (.exportCart (hdr 0) 6 p) library) =
       [some .badArgument, some .ok, some .ok, some .badArgument] ∧
     [(63, 1), (64, 1), (8, 1), (6, 3), (6, 4)].map (fun p => answerOf (.move (hdr 0) p.1 p.2) library) =
       [some .notFound, some .badArgument, some .badState, some .badState, some .badState] ∧
     (after (.move (hdr 0) 5 1) library).mounts.map MountRequest.kind = [.dismount] ∧
     (after (.move (hdr 0) 5 2) library).mounts.map MountRequest.kind = [.move] ∧
     [7, 8].map (fun k => answerOf (.move (hdr 0) 6 1) (setMounts (List.replicate k m) library)) = [some .ok, some .noRoom] ∧
     [7, 8].map (fun k => answerOf (.scan (hdr 0)) (setMounts (List.replicate k m) library)) = [some .ok, some .noRoom] ∧
     answerOf (.scan (hdr 0)) (setMounts [{ m with kind := .scan, cart := none }] library) = some .badState ∧
     [(48, 7, 1), (49, 7, 1), (50, 7, 48), (51, 7, 1), (49, 8, 1), (49, 7, 0), (49, 7, 49), (49, 7, 3)].map
       (fun x => answerOf (.importCart (hdr 0) x.1 (label 9) x.2.1 x.2.2) library) =
       [some .badArgument, some .ok, some .ok, some .badArgument, some .badArgument, some .badArgument, some .badArgument,
        some .badState] ∧
     [label 1, [], List.replicate 8 32#8, List.replicate 8 31#8].map (fun l => answerOf (.importCart (hdr 0) 49 l 7 1) library) =
       [some .badArgument, some .badArgument, some .badArgument, some .badArgument] ∧
     answerOf (.importCart (hdr 0) 49 (label 9) 7 1) (setMounts (List.replicate 8 m) library) = some .noRoom ∧
     bodyOf (.importCart (hdr 0) 49 (label 9) 7 1) library = some (.index 0) ∧
     (let q : MountRequest := { m with cart := some 5, requesters := [(.server, 1)], tag := 1 }
      let a := offerMount 5 .anyRead .urgent .restore 7 none (setMounts [q] library)
      let b := offerMount 5 .anyRead .background .server 9 none (setMounts [q] library)
      a.2.mounts = [{ q with cls := .urgent, requesters := [(.server, 1), (.restore, 7)] }] ∧
      b.2.mounts = [{ q with requesters := [(.server, 9)], tag := 9 }] ∧
      (offerMount 5 .anyRead .urgent .restore 7 none (setMounts (List.replicate 8 m) library)).1 = false ∧
      (offerMount 5 .anyRead .urgent .restore 7 none (setMounts (List.replicate 7 m) library)).2.mounts.length = 8)) := by decide +kernel

/-- A travel step at 99 and at 100 ticks of its interval, its last step; a deviation of 8 and of 9; homing steps with the
sensor, with a stop, at the 65,536th step; counts at both ends of the axis (R113, R114, R116). -/
theorem witness_LoaderMotion :
    (let t := modLdr (fun d => { d with remaining := 2, ramp := 0 }) (moving [.travel (.slot 2), .get (.slot 2)])
     let h := modLdr (fun d => { d with state := .homing, ramp := 0, homingSteps := 65534, logical := none, real := none }) library
     let hs := fun v : State => v.ldr.state
     (after .travelStep (atTime 99 t)).ldr.remaining = 2 ∧ (after .travelStep (atTime 100 t)).ldr.logical = some 101 ∧
     (after .travelStep (atTime 100 (modLdr (fun d => { d with remaining := 1 }) t))).ldr.plan.map Plan.current = some 1 ∧
     hs (after .travelStep (atTime 100 (modLdr (fun d => { d with logical := some 107 }) t))) = .running ∧
     hs (after .travelStep (atTime 100 (modLdr (fun d => { d with logical := some 108 }) t))) = .fault ∧
     hs (after (.homingStep true) (atTime 100 h)) = .idle ∧ hs (after (.homingStep false) (atTime 100 h)) = .homing ∧
     hs (after (.homingStep false) (atTime 100 (modLdr (fun d => { d with homingSteps := 65535 }) h))) = .fault ∧
     hs (after (.homingStep false) (atTime 100 (modLdr (fun d => { d with homingStop := true }) h))) = .unhomed ∧
     hs (after (.homingStep true) (atTime 99 h)) = .homing ∧
     (after .encoderCount idle).ldr.real = some 99 ∧ (after .encoderCount t).ldr.real = some 101 ∧
     (after .encoderCount library).ldr.real = none ∧
     (after .encoderCount (modLdr (fun d => { d with real := some 0, logical := none }) idle)).freeCount = 1 ∧
     (after .encoderCount (modLdr (fun d => { d with real := some 65535, logical := none }) t)).freeCount = 1 ∧
     (after .encoderCount (modLdr (fun d => { d with real := some 65534, logical := none }) t)).ldr.real = some 65535) := by
  decide +kernel

/-- A write of DEV_LIMIT (setting 7) in FAULT after GRIP_TIMEOUT, with the positions 8 apart: 8 allows them, 7 faults the
loader with POSITION_ERROR and makes them absent; without positions nothing is tested (R112, R114, R118, R186). -/
theorem test_dev_limit_in_fault :
    (let s := modLdr (fun d => { d with state := .fault, faultCode := some .gripTimeout, logical := some 108 }) idle
     let w := fun (v : Nat) (s : State) => (after (.tableWriteSettings (hdr 0) [(7, v)]) s).ldr
     (w 8 s).faultCode = some .gripTimeout ∧ (w 8 s).logical = some 108 ∧ (w 8 s).real = some 100 ∧
     (w 7 s).state = .fault ∧ (w 7 s).faultCode = some .positionError ∧ (w 7 s).logical = none ∧ (w 7 s).real = none ∧
     (w 7 idle).state = .idle ∧
     (w 7 (modLdr (fun d => { d with logical := none, real := none }) s)).faultCode = some .gripTimeout) := by
  decide +kernel

/-- Probes of the three expectations with both readings; GET and PUT completed by their events and by the held sensor; a
sensor change outside a grip; a grip at 49 and 50 ticks of a limit of 50; the door and the mail slots (R93, R117, R127). -/
theorem witness_ProbesGripsAndSensors :
    (let held := fun v : State => modLdr (fun d => { d with heldSensor := true }) v
     let at9 := fun v : State => (v.cdr.records[(6 : CartId)]).map Cart.location
     let probe := fun e => moving [.probe (.slot 2) e, .get (.slot 2)]
     let get := moving [.get (.slot 2), .probe (.slot 9) .destination]
     let put := held (moveRecord 6 .picker (moving [.put (.slot 9), .probe (.slot 2) .destination]))
     (after (.probeDone true) (probe (.source 6))).ldr.plan.map Plan.current = some 1 ∧
     at9 (after (.probeDone false) (probe (.source 6))) = some .missing ∧
     (after (.probeDone true) (probe .destination)).ldr.state = .idle ∧
     (after (.probeDone false) (probe .destination)).ldr.plan.map Plan.current = some 1 ∧
     (after (.probeDone false) (probe .scan)).ldr.plan.map Plan.missing = some [6] ∧
     (after (.probeDone true) (moving [.probe (.slot 20) .scan, .get (.slot 2)])).ldr.plan.map Plan.unknown = some [.slot 20] ∧
     at9 (after .getDone get) = some .picker ∧ at9 (after (.heldSensorChange true) get) = some .picker ∧
     at9 (after .putDone put) = some (.slot 9) ∧ at9 (after (.heldSensorChange false) put) = some (.slot 9) ∧
     after .getDone (held get) = held get ∧ (after (.heldSensorChange true) library).ldr.heldSensor = true ∧
     after (.heldSensorChange false) library = library ∧
     (after .gripTimeout (atTime 49 get)).ldr.state = .running ∧ (after .gripTimeout (atTime 50 get)).ldr.state = .fault ∧
     after .gripTimeout library = library ∧ (after (.doorSensorChange true) library).ldr.doorOpen = true ∧
     after (.doorSensorChange false) library = library ∧
     at9 (after (.mailSlotSensorChange 1 false) (modLdr (fun d => { d with doorOpen := true, mailSensors := #v[false, true] })
       (moveRecord 6 (.mail 1) library))) = some .outside ∧
     at9 (after (.mailSlotSensorChange 1 false) (modLdr (fun d => { d with mailSensors := #v[false, true] })
       (moveRecord 6 (.mail 1) library))) = some (.mail 1) ∧
     (let t := moveRecord 6 (.slot 3) library
      at9 t = some (.slot 3) ∧ namedAt (.slot 2) t = none ∧ namedAt (.slot 3) t = some 6 ∧ namedAt (.bay 0) t = some 5 ∧
      (t.cdr.records[(7 : CartId)]).map Cart.location = some .missing ∧
      namedAt (.slot 2) (moveRecord 6 .missing library) = none) ∧
     (let home := fun v : State => (v.cdr.records[(6 : CartId)]).map Cart.home
      home (newHome 6 (.slot 9) put) = some 9 ∧ newHome 6 (.mail 0) put = put ∧ newHome 6 (.slot 9) library = library ∧
      newHome 7 (.slot 9) put = put)) := by decide +kernel

/-- The door of a mail slot open and closed, held and not; each kind of step; a plan with a step, with none left, and
stopping (R113, R115, R117, R123, R124, R127). -/
theorem witness_PlanStepsRun :
    (let mail := moving [.travel (.mail 0), .get (.slot 2)]
     let isOpen := modLdr fun d => { d with doorOpen := true }
     let far := { mail with tables := { mail.tables with positions := Vector.replicate 54 (some 110) } }
     let n : LaneId := 0
     library.settings.doorLine = 7 ∧ (holdDoor mail).ttu.lines = 128#8 ∧ (holdDoor (holdDoor mail)) = holdDoor mail ∧
     (beginStep (.travel (.mail 0)) (isOpen mail)).2.ldr.plan = none ∧
     (beginStep (.travel (.mail 0)) (holdDoor (isOpen mail))).1 = .complete ∧
     (beginStep (.get (.mail 0)) (holdDoor (isOpen mail))).2.ldr.plan = none ∧
     [LaneState.ejected, .empty, .ready, .hold, .writing].map (fun st => (startStep (.laneEject n) (laneIn st)).1) =
       [.complete, .complete, .waits, .waits, .waits] ∧
     (startStep (.laneEject n) (laneIn .hold)).2.lanes[n].state = .unloading ∧
     (ejectAgain 0 (setMounts (moving []).mounts (modLane 0 (fun l => { l with state := .ejected }) (moving [.laneEject 0])))).ldr.state =
       .idle ∧
     ejectAgain 1 (moving [.laneEject 0]) = moving [.laneEject 0] ∧
     (startStep (.travel (.slot 2)) far).2.ldr.remaining = 10 ∧ (startStep (.travel (.slot 2)) far).2.ldr.ramp = 0 ∧
     (startStep (.travel (.slot 2)) mail).1 = .complete ∧
     (startStep (.travel (.slot 2)) { mail with tables := Tables.default }).2.ldr.plan = none ∧
     (startStep (.put (.slot 2)) mail).2.ldr.plan = none ∧ (startStep (.put (.slot 9)) mail).2.ldr.gripLimit = 200000 ∧
     (startStep (.laneThread n) (laneIn .empty)).2.lanes[n].state = .loading ∧
     (startStep (.laneThread n) mail).2.ldr.plan = none ∧
     (runPlan (moving [])).ldr.state = .idle ∧ (runPlan mail).ldr.plan.map Plan.current = some 1 ∧
     (stepEnds (modLdr (fun d => { d with state := .stopping }) mail)).ldr.state = .idle ∧
     (stepEnds mail).ldr.plan.map Plan.current = some 1) := by decide +kernel

/-- An IDLE loader takes the URGENT request before the older NORMAL one, fails a plan whose cartridge is OUTSIDE and one
with an unset position, and waits in any other state (R122, R123). -/
theorem witness_ServeTest :
    (let m0 : MountRequest := { kind := .move, cart := none, target := .slot 9, cls := .normal, requesters := [], tag := 0,
                                fillLane := none, inService := false, rebuilt := none }
     let m := fun (i : CartId) (c : MountClass) => { m0 with cart := some i, cls := c }
     let s := fun l => setMounts l idle
     (after .serveTest (s [m 6 .normal, m 7 .urgent])).ldr.plan.map Plan.cart = some (some 7) ∧
     (after .serveTest (s [m 6 .normal, m 7 .normal])).ldr.plan.map Plan.cart = some (some 6) ∧
     noticeOf .serveTest (s [m 8 .normal]) = some (.moveFailed .move (some 8) 0 [] .sourceEmpty 0 none) ∧
     noticeOf .serveTest { s [m 6 .normal] with tables := Tables.default } = some (.moveFailed .move (some 6) 0 [] .positionUnset 0 none) ∧
     (after .serveTest (setMounts [m 6 .normal] library)).ldr.plan = none ∧ after .serveTest idle = idle ∧
     canRun (m 6 .normal) idle = true ∧
     (let mount := fun target => { m 6 .normal with kind := MountKind.mount, target := target }
      let held := moveRecord 7 .picker (modLdr (fun d => { d with heldSensor := true }) idle)
      let bay := fun st => modLane 0 (fun l => { l with state := st, mounted := some 5 }) idle
      let withRead := fun (n : LaneId) st v => modLane n (fun l => { l with state := st }) v
      [canRun (m 6 .normal) held, canRun (m 7 .normal) held, canRun (mount (.lane 1)) (withRead 1 .empty held),
        canRun { mount (.lane 1) with rebuilt := some 7 } (withRead 1 .empty held),
        canRun { mount (.lane 1) with rebuilt := some 5 } (withRead 1 .empty held),
        canRun { m0 with kind := .scan } held] = [false, true, false, true, false, false] ∧
      [LaneState.ready, .hold, .writing].map (fun st => canRun (m 5 .normal) (bay st)) = [true, true, false] ∧
      [LaneState.empty, .ready, .loading].map (fun st => canRun (mount .anyRead) (withRead 2 st idle)) = [true, true, false] ∧
      planTarget (mount .anyRead) (withRead 3 .empty (withRead 2 .ready idle)) = .lane 3 ∧
      planTarget (mount .anyRead) (withRead 3 .ready (withRead 2 .ready idle)) = .lane 2 ∧
      planTarget (mount .anyRead) (modLane 3 (fun l => { l with state := .ready, mounted := some 6 }) (withRead 2 .empty idle)) = .lane 3 ∧
      planSteps (mount (.lane 1)) idle = [.travel (.slot 2), .probe (.slot 2) (.source 6), .get (.slot 2), .travel (.bay 1),
        .probe (.bay 1) .destination, .put (.bay 1), .laneThread 1] ∧
      (planSteps (mount (.lane 0)) idle).length = 14 ∧
      planSteps { m0 with kind := .mount, cart := some 5, target := .lane 0 } (bay .hold) = [] ∧
      (planSteps { m0 with kind := .mount, cart := some 5, target := .lane 0 } (bay .ejected)).length = 6 ∧
      (planSteps { m 5 .normal with kind := .dismount } idle).length = 7 ∧
      (planSteps { m0 with kind := .scan } idle).length = 100 ∧
      (planSteps { m0 with kind := .scan } { idle with tables := { idle.tables with
        positions := (idle.tables.positions.set 49 (some 1)).set 0 none } }).head? = some (.travel (.mail 1)))) := by decide +kernel

/-- A plan that ends with a request in service, and a fault of each kind. -/
theorem witness_PlanEndsAndLoaderFaults :
    (let s := moving [.get (.slot 2)]
     (s.mounts.find? fun x => x.inService).isSome = true ∧ s.ldr.plan.isSome = true ∧ s.link.notices.length < 64 ∧
     (planFails .stopped s).ldr.state = .idle ∧ (planSucceeds s).mounts = [] ∧
     (loaderFault .positionError s).ldr.logical = none ∧ (loaderFault .gripTimeout s).ldr.logical = some 100 ∧
     (loaderFault .gripTimeout (moveRecord 6 .picker s)).link.notices.map Notice.body =
       [.loaderFault .gripTimeout (some .move) (some 0) (some 6)] ∧
     (loaderFault .homeNotFound library).link.notices.map Notice.body = [.loaderFault .homeNotFound none none none] ∧
     (let room := post .serveTest (modLane 2 (fun l => { l with pickNoRoom := true }) s)
      (planFails .stopped room).due = [.scratchPick 2, .verifyStart, .restoreRoom, .serveTest]) ∧
     (let q : VerifyRequest := { cart := 6, label := label 1, first := 0, last := none, origin := .server 0, mountAsked := true }
      let waits := modVfy (fun v => { v with queue := [{ q with mountAsked := false }, q] }) library
      (verifyPlanEnded (some 6) none waits).vfy.queue.map VerifyRequest.mountAsked = [false, false] ∧
      (verifyPlanEnded (some 6) (some .stopped) waits).vfy.queue.length = 1 ∧ (verifyPlanEnded (some 5) none waits).vfy = waits.vfy) ∧
     (let wants := { restoration with cart := some (5, label 0), mountAsked := true, state := .waitingMount }
      let asked := modRse (fun x => { x with active := some wants }) library
      (restorePlanEnded (some 5) (some 0) none asked).rse.active.map RestoreContext.state = some .waitingMount ∧
      (restorePlanEnded (some 5) none none asked).rse.active = none ∧
      (restorePlanEnded (some 5) none (some .stopped) asked).rse.active = none ∧
      restorePlanEnded (some 6) none none asked = asked ∧
      (let w : WalkedRecord := { stream := 2, method := 1, rawLength := 1, codedLength := 1, seq := 9, digest := 0, payload := [1#8] }
       let left := modExp (fun e => { e with restoreSlot := some { record := w, outputPage := true, abandoned := true,
                                                                   keptPages := 17 } }) (takeRead 17 asked)
       (restorePlanEnded (some 5) none (some .stopped) left).exp.restoreSlot = none ∧
       (restorePlanEnded (some 5) none (some .stopped) left).pool.held.read = 0 ∧
       (restorePlanEnded (some 5) (some 0) none left).exp.restoreSlot ≠ none))) := by decide +kernel

/-! ## Verify and restore -/

/-- Indexes 63 and 64, first blocks 4,294,967,294 and 4,294,967,295, a last block below the first and END; a suspended
pass; 7 and 8 requests (R144). -/
theorem witness_VerifyIsQueued :
    (let r : VerifyRequest := { cart := 5, label := label 0, first := 0, last := none, origin := .server 0, mountAsked := false }
     let queued := fun k => modVfy (fun v => { v with queue := List.replicate k r }) library
     [(5, 4294967294, 4294967295), (5, 4294967295, 4294967295), (5, 1, 0), (5, 1, 1), (5, 0, 4294967296), (63, 0, 0), (64, 0, 0)].map
       (fun x => answerOf (.verify (hdr 0) x.1 x.2.1 x.2.2) library) =
       [some .ok, some .badArgument, some .badArgument, some .ok, some .badArgument, some .notFound, some .badArgument] ∧
     [7, 8].map (fun k => answerOf (.verify (hdr 0) 5 0 0) (queued k)) = [some .ok, some .noRoom] ∧
     answerOf (.verify (hdr 0) 5 0 0) (modCtx 1 (fun c => { c with state := .suspended }) verifying) = some .badState) := by
  decide +kernel

/-- VERIFY_SUSPEND in each stage; VERIFY_RESUME granted, and refused with each status of R155; VERIFY_CANCEL of lanes 3
and 4, indexes 63 and 64, ALL and scope 3 (R153 to R156). -/
theorem witness_VerifySuspendResumeCancel :
    (let stage := fun st => modCtx 1 (fun c => { c with stage := st }) (modLane 1 (fun l => { l with command := none }) verifying)
     let paused := fun (st : LaneState) => modLane 1 (fun l => { l with state := st, activity := .none, command := none })
       (modCtx 1 (fun c => { c with state := .suspended, cause := some .write, stage := .none, inHand := none }) verifying)
     let busy := flying (.locate 3 .read) library
     [VerifyStage.none, .pages, .read, .check].map (fun st => answerOf (.verifySuspend (hdr 1)) (stage st)) =
       List.replicate 4 (some .ok) ∧
     answerOf (.verifySuspend (hdr 1)) verifying = some .ok ∧ answerOf (.verifySuspend (hdr 0)) verifying = some .badState ∧
     answerOf (.verifySuspend (hdr 4)) verifying = some .badArgument ∧ answerOf (.verifyResume (hdr 4)) verifying = some .badArgument ∧
     answerOf (.verifyResume (hdr 1)) (paused .ready) = some .ok ∧ answerOf (.verifyResume (hdr 1)) verifying = some .badState ∧
     answerOf (.verifyResume (hdr 1)) (paused .hold) = some .busy ∧ answerOf (.verifyResume (hdr 1)) (paused .fault) = some .badState ∧
     answerOf (.verifyResume (hdr 0)) (modCtx 0 (fun c => { c with state := .suspended }) busy) = some .busy ∧
     (after (.verifyAutoResume 1) (paused .ready)).vfy.contexts[(1 : LaneId)].state = .running ∧
     (after (.verifyAutoResume 1) (paused .fault)).vfy.contexts[(1 : LaneId)].state = .suspended ∧
     inFlight 1 (resumePass 1 (paused .ready)) = some (.locate 3 .read) ∧
     (let held := modCtx 1 (fun c => { c with stage := .check }) (paused .ready)
      inFlight 1 (resumePass 1 held) = none ∧ (resumePass 1 held).lanes[(1 : LaneId)].state = .reading) ∧
     [(0, 3), (0, 4), (1, 63), (1, 64), (2, 9), (3, 0)].map (fun p => answerOf (.verifyCancel (hdr 0) p.1 p.2) verifying) =
       [some .ok, some .badArgument, some .ok, some .badArgument, some .ok, some .badArgument] ∧
     bodyOf (.verifyCancel (hdr 0) 0 1) verifying = some (.count 1) ∧
     (after (.verifyCancel (hdr 0) 0 1) verifying).vfy.contexts[(1 : LaneId)].state = .idle) := by decide +kernel

/-- A claim in each state of a lane; a write claim at the mark of 4 and below it; a suspension in each stage; a release
with an answer in flight, with a pending claim, with a pending eject and with neither (R73, R74, R153, R154). -/
theorem witness_LaneClaimsAndRelease :
    (let lane := fun (n : LaneId) (v : State) => v.lanes[n]
     let claims := fun st => (lane 0 (claimRestore 0 (laneIn st)))
     let onWrite := fun l : List SealedBlock => withQueue l (modLane 0 (fun l => { l with activity := .verify }) (laneIn .reading))
     let stage := fun st => modCtx 1 (fun c => { c with stage := st }) (modLane 1 (fun l => { l with command := none }) verifying)
     let b := block .full
     [LaneState.ready, .hold].map (fun st => (claims st).activity) = [.restore, .restore] ∧
     [LaneState.writing, .loading, .locating, .ejected, .fault].map (fun st => (claims st).claim) =
       [.restore, .restore, .restore, .none, .none] ∧
     (claimRestore 1 verifying).vfy.contexts[(1 : LaneId)].cause = some .restore ∧
     ((grantRestore 0 (laneIn .ready)).cdr.records[(5 : CartId)]).map Cart.needsLocate = some true ∧
     ((grantVerify 1 verifying).cdr.records[(5 : CartId)]).map Cart.needsLocate = some false ∧
     writeClaim 0 (onWrite [b, b, b]) = onWrite [b, b, b] ∧ (lane 0 (writeClaim 0 (onWrite [b, b, b, b]))).state = .ready ∧
     (lane 0 (writeClaim 0 (onWrite [block .mark]))).state = .ready ∧
     [VerifyStage.none, .pages, .read, .check].map (fun st => (suspendPass 1 .server (stage st)).pool.held.read) = [16, 16, 0, 16] ∧
     (suspendPass 1 .server (modCtx 1 (fun c => { c with state := .suspended }) verifying)).vfy.contexts[(1 : LaneId)].cause =
       some .server ∧
     (lane 1 (suspendPass 1 .server (modCtx 1 (fun c => { c with state := .idle }) (stage .none)))).state = .ready ∧
     (lane 1 (releaseLane 1 verifying)).releasing = true ∧
     (lane 1 (doRelease 1 (modLane 1 (fun l => { l with claim := .restore }) verifying))).activity = .restore ∧
     (lane 1 (doRelease 1 (modLane 1 (fun l => { l with ejectPending := true }) verifying))).state = .unloading ∧
     (lane 1 (doRelease 1 verifying)).state = .ready) := by decide +kernel

/-- The four cases of the start test: a cartridge gone, under a pass, in use by a lane, and in need of a mount (R146);
blocks and records checked (R150 to R152). -/
theorem witness_VerifyStartsAndChecks :
    (let r0 : VerifyRequest := { cart := 5, label := label 0, first := 0, last := none, origin := .server 7, mountAsked := false }
     let r := fun (i : CartId) (k : Nat) => { r0 with cart := i, label := label k }
     let queued := fun (q : VerifyRequest) (s : State) => modVfy (fun v => { v with queue := [q] }) s
     let ctx := fun v : State => v.vfy.contexts[(1 : LaneId)]
     noticeOf .verifyStartTest (queued (r 5 4) library) =
       some (.verifyDone none 5 (label 4) (.server 7) 0 none .noCartridge 0 0 0 0 none 0) ∧
     (after .verifyStartTest (queued (r 5 0) verifying)).vfy.queue.length = 1 ∧
     (after .verifyStartTest (queued (r 5 0) (laneIn .ready))).vfy.contexts[(0 : LaneId)].last = 9 ∧
     (after .verifyStartTest (queued (r 6 1) library)).mounts.map MountRequest.cls = [.background] ∧
     (ctx (passBlock 1 none verifying)).badBlocks = 1 ∧
     (ctx (passOutcome 1 (.good [1#8]) (modCtx 1 (fun c => { c with stage := .check }) verifying))).checked = 1 ∧
     (ctx (passOutcome 1 .damaged (modCtx 1 (fun c => { c with stage := .check }) verifying))).badRecords = 1 ∧
     ((completePass 1 verifying).cdr.records[(5 : CartId)]).map Cart.verifiedTo = some 10 ∧
     testBlock none (label 0) 3 = .error .readFailed ∧
     (let two := modVfy (fun v => { v with queue := [{ r 5 0 with first := 10 }, r 5 0] }) (laneIn .ready)
      (after .verifyStartTest two).vfy.queue.length = 1 ∧ (testRequest (r 5 0) [0] two).1 = [0] ∧
      (testRequest (r 5 0) [] two).1 = [0]) ∧
     (ctx (completePass 1 verifying)).next = 3 ∧
     (let verified := fun v : State => (v.cdr.records[(5 : CartId)]).map Cart.verifiedTo
      let lane := fun v : State => v.lanes[(1 : LaneId)]
      let free := modLane 1 (fun l => { l with command := none }) verifying
      let pass := fun f : VerifyContext → VerifyContext => modCtx 1 f free
      let notice := fun v : State => (v.link.notices.map Notice.body).head?
      verified (completePass 1 (pass fun c => { c with first := 1 })) = some 0 ∧
      verified (completePass 1 (pass fun c => { c with badBlocks := 1 })) = some 0 ∧
      (lane (completePass 1 free)).state = .ready ∧
      completePass 1 (pass fun c => { c with state := .suspended, first := 1 }) = post .verifyStart
        (offerNotice (.verifyDone (some 1) 5 (label 0) (.server 0) 1 (some 9) .passed 0 0 0 0 none 3)
          (modCtx 1 VerifyContext.ended (pass fun c => { c with state := .suspended, first := 1 }))) ∧
      notice (completePass 1 (pass fun c => { c with badBlocks := 1 })) =
        some (.verifyDone (some 1) 5 (label 0) (.server 0) 0 (some 9) .failed 0 1 0 0 none 3) ∧
      (ctx (passAdvance 1 (pass fun c => { c with next := 10 }))).state = .idle ∧
      passAdvance 1 (pass fun c => { c with state := .suspended }) = (pass fun c => { c with state := .suspended }) ∧
      inFlight 1 (passAdvance 1 free) = some (.locate 3 .read) ∧
      (passAdvance 1 (takeRead 481 free)).pool.waiting = [{ client := .verify 1, pages := 16 }] ∧
      endPass 0 .cancelled free = free ∧
      [VerifyStage.none, .pages, .read, .check].map
        (fun st => (endPass 1 .cancelled (pass fun c => { c with stage := st })).pool.held.read) = [16, 16, 0, 0] ∧
      (endPass 1 .cancelled (modPool (fun p => { p with waiting := [{ client := .verify 1, pages := 16 }] })
        (pass fun c => { c with stage := .pages }))).pool.waiting = [] ∧
      (lane (endPass 1 .cancelled verifying)).discard = true ∧ (lane (endPass 1 .cancelled free)).state = .reading) ∧
     (let m : MountRequest := { kind := .mount, cart := some 6, target := .lane 2, cls := .normal, requesters := [(.server, 3)],
                                tag := 3, fillLane := none, inService := false, rebuilt := none }
      let v := verifyMount (r 6 1) (queued (r 6 1) (setMounts [m] library))
      v.mounts.map MountRequest.requesters = [[(.server, 3), (.verify, 7)]] ∧ v.mounts.map MountRequest.cls = [.normal] ∧
      v.vfy.queue.map VerifyRequest.mountAsked = [true])) := by decide +kernel

/-- Subjects 31 and 32, a last below the first, indexes 63 and 64, blocks 4,294,967,294 and 4,294,967,295, 15 and 16
requests; scopes 0, 1 and 2 (R158, R169); activation (R160); what a restore gives up and how it ends, with a lane, with a
claim pending and without either (R167, R168). -/
theorem witness_RestoreRequests :
    (let q : RestoreRequest := { tag := 3, stream := 2, first := 0, last := 0, start := none }
     let queued := fun k => modRse (fun x => { x with queue := List.replicate k q }) restoring
     [(31, 4294967295, 4294967295), (32, 0, 0), (31, 1, 0), (31, 0, 4294967296)].map
       (fun x => answerOf (.restore (hdr x.1) x.2.1 x.2.2 none) restoring) =
       [some .ok, some .badArgument, some .badArgument, some .badArgument] ∧
     [(5, 4294967294), (5, 4294967295), (63, 0), (64, 0)].map (fun p => answerOf (.restore (hdr 2) 0 0 (some p)) restoring) =
       [some .ok, some .badArgument, some .notFound, some .badArgument] ∧
     [15, 16].map (fun k => answerOf (.restore (hdr 2) 0 0 none) (queued k)) = [some .ok, some .noRoom] ∧
     [(0, 3), (0, 7), (0, 9), (1, 0), (2, 0)].map (fun p => bodyOf (.restoreCancel (hdr 0) p.1 p.2) (queued 2)) =
       [some (.count 2), some (.count 1), some (.count 0), some (.count 3), some .none] ∧
     (after .restoreActivate (queued 2)).rse.queue.length = 2 ∧
     noticeOf .restoreActivate (modRse (fun _ => { queue := [q], active := none }) library) =
       some (.restoreDone 3 2 0 0 .notFound 0 0 1 1) ∧
     (let c := { restoration with lane := some 0, stage := .read, pages := true, outputPage := true }
      let on := fun v => modRse (fun x => { x with active := some c }) (takeRead 17 v)
      let reads := on (modLane 0 (fun l => { l with activity := .restore }) (flying (.read 9) (laneIn .reading)))
      let claims := on (modLane 0 (fun l => { l with claim := .restore }) (laneIn .writing))
      let lane := fun v : State => v.lanes[(0 : LaneId)]
      (lane (giveUp true reads)).discard = true ∧ (giveUp true reads).pool.held.read = 0 ∧
      (giveUp false reads).rse.active = some { restoration with lane := some 0 } ∧
      (lane (finishRestore .cancelled reads)).releasing = true ∧ (finishRestore .cancelled reads).rse.active = none ∧
      (lane (finishRestore .cancelled claims)).claim = .none ∧ (lane (finishRestore .cancelled claims)).state = .writing ∧
      (finishRestore .cancelled claims).link.notices.map Notice.body =
        [.restoreDone 7 2 4 6 .cancelled 0 0 0 4] ∧
      (finishRestore .cancelled (on library)).due = [.restoreActivate])) := by decide +kernel

/-- A search with no entry and with one; a cartridge gone, in use, and in need of a mount, with and without room; a first
and a second lane fault (R161, R163, R164, R168). -/
theorem witness_RestoreReaches :
    (let run : Run := { stream := 2, first := 0, last := 5, count := 6 }
     let found := fun (i : CartId) (s : State) => insertEntry 0 i (label 0) 9 [run] s
     let on := fun (i : CartId) => modRse (fun x => { x with active := some { restoration with cart := some (i, label 0), runEnd := some 5 } }) library
     let m : MountRequest := { kind := .scan, cart := none, target := .none, cls := .normal, requesters := [], tag := 0,
                               fillLane := none, inService := false, rebuilt := none }
     let active := fun v : State => v.rse.active
     searchCatalog 2 4 restoring = none ∧ (findNext restoring).rse.active = none ∧
     (searchCatalog 2 4 (found 5 restoring)).isSome = true ∧
     (active (findNext (found 5 restoring))).map RestoreContext.runEnd = some (some 5) ∧
     (active (reach (on 9))).map RestoreContext.state = some .sending ∧
     (active (reach (on 5))).map RestoreContext.mountAsked = some true ∧
     (active (restoreMount (setMounts (List.replicate 8 m) (on 5)))).map RestoreContext.mountAsked = some false ∧
     (active (restoreLaneFault restoring)).map RestoreContext.laneFaults = some 1 ∧
     active (restoreLaneFault (restoreLaneFault restoring)) = none ∧
     (let explicit := fun (i : CartId) (k b : Nat) => modRse (fun x => { x with active := some { restoration with
        start := some { cart := i, block := b, label := label k } } }) library
      active (findNext (explicit 8 3 0)) = none ∧ active (findNext (explicit 5 0 10)) = none ∧
      (active (findNext (explicit 5 0 9))).map RestoreContext.block = some (some 9) ∧ active (findNext (explicit 5 1 0)) = none) ∧
     (let holds := modRse (fun x => { x with active := some { restoration with
        cart := some (5, label 0), block := some 9, runEnd := some 5, lane := some 0, state := .waitingMount } })
        (modLane 0 (fun l => { l with activity := .restore }) (laneIn .reading))
      inFlight 0 (reach holds) = some (.locate 9 .read) ∧ (reach holds).pool.held.read = 16 ∧
      inFlight 0 (restoreLane 0 holds) = some (.locate 9 .read) ∧
      (startRead (takeRead 497 holds)).pool.waiting.length = 1 ∧
      (reach (modLane 0 (fun l => { l with mounted := some 6 }) holds)).lanes[(0 : LaneId)].activity = .none ∧
      restoreLane 1 holds = holds ∧
      (restoreLane 0 (modLane 0 (fun l => { l with activity := .none, claim := .restore }) holds)).lanes[(0 : LaneId)].claim = .restore) ∧
     (active (restoreRoom (modRse (fun x => { x with active := x.active.map fun c => { c with state := .waitingMount } }) (on 5)))).map
       RestoreContext.mountAsked = some true ∧
     restoreRoom (on 5) = on 5 ∧
     (let bay := fun st => modLane 0 (fun l => { l with state := st, mounted := some 5 }) (on 5)
      [reachable 5 (label 0) library, reachable 5 (label 1) library, reachable 8 (label 3) library, reachable 9 (label 0) library] =
        [true, false, false, false] ∧
      [LaneState.ready, .ejected, .writing].map (fun st => usingLane 5 (bay st)) = [some 0, none, some 0] ∧
      usingLane 5 (modLane 0 (fun l => { l with state := .loading }) library) = some 0 ∧
      inFlight 0 (restoreClaim 0 (modRse (fun x => { x with active := x.active.map fun c => { c with block := some 9 } })
        (bay .ready))) = some (.locate 9 .read) ∧
      (active (restoreClaim 0 (bay .writing))).map RestoreContext.state = some .waitingMount ∧
      (restoreClaim 0 (bay .writing)).lanes[(0 : LaneId)].claim = .restore) ∧
     (active (findNext (insertEntry 0 5 (label 0) 8 [{ run with first := 5 }] (found 5 (insertEntry 0 6 (label 1) 7 [run] restoring))))).map
       RestoreContext.block = some (some 7)) := by decide +kernel

/-- A bad block in both modes; records with a sequence skipped and without, with room for the output page and without;
the outcome of a record that is the last wanted one and of one that is not; a segment taken; the end of a block with
the run ended and not (R44, R165, R166). -/
theorem witness_RestoreSegments :
    (let w : WalkedRecord := { stream := 2, method := 1, rawLength := 1, codedLength := 1, seq := 5, digest := crc32 [1#8], payload := [1#8] }
     let catalog : RestoreContext := { restoration with cart := some (5, label 0), block := some 9, runEnd := some 6, state := .reading,
                                                        stage := .read, pages := true }
     let on := fun c : RestoreContext => modRse (fun x => { x with active := some c }) (takeRead 16 library)
     let explicit := { catalog with start := some { cart := 5, block := 9, label := label 0 } }
     let todo := { catalog with todo := [w], stage := .records }
     let active := fun v : State => v.rse.active
     let seg := fun cause => ({ tag := 7, stream := 2, seq := 4, cause := cause, bytes := [] } : Segment)
     testBlock none (label 0) 9 = .error .readFailed ∧
     ((restoreBlock none (on catalog)).pool.held.read, (active (restoreBlock none (on catalog))).map RestoreContext.state) =
       (0, some .sending) ∧
     (restoreBlock none (on explicit)).pool.held.read = 0 ∧
     (active (restoreRecords (on todo))).map RestoreContext.damage =
       some (some { upTo := 4, cause := .block, after := .records }) ∧
     (active (restoreRecords (on { todo with next := 5 }))).map RestoreContext.stage = some .expand ∧
     (active (restoreRecords (takeRead 496 (on { todo with next := 5 })))).map RestoreContext.stage = some .output ∧
     (active (restoreRecords (on { explicit with todo := [w] }))).map RestoreContext.notFound = some 1 ∧
     (active (restoreOffer (offerRecord .restore w (on todo)))).map RestoreContext.outputPage = some true ∧
     (active (blockEnd (on catalog))).map RestoreContext.state = some .sending ∧
     (blockEnd (on { catalog with pages := false })).pool.held.read = 16 ∧ (blockEnd (on catalog)).pool.held.read = 0 ∧
     (active (blockEnd (on { catalog with next := 7 }))) = none ∧
     (restoreOutcome w (.good [1#8]) (on catalog)).pool.held.read = 0 ∧
     (restoreOutcome w (.good [1#8]) (on todo)).pool.held.read = 16 ∧
     (restoreOutcome w .damaged (takeRead 1 (on todo))).pool.held.read = 16 ∧
     (restoreOutcome w .corrupt (takeRead 1 (on catalog))).pool.held.read = 0 ∧
     (active (segmentTaken (seg .record) (on { todo with next := 4 }))).map RestoreContext.damaged = some 1 ∧
     (active (segmentTaken (seg .none) (on { todo with outputPage := true }))).map RestoreContext.good = some 1 ∧
     (active (restoreGo (on { catalog with damage := some { upTo := 6, cause := .block, after := .find } }))).map
       RestoreContext.state = some .sending ∧
     active (afterBlock (on { catalog with next := 7 })) = none) := by decide +kernel

/-! ## Time and triggers -/

/-- Masks 0, 1, 255 and 256; a guarded set while a lane is in FAULT; a fire of an armed set (R181). -/
theorem test_trigger_requests :
    (let guard := modTtu (fun t => { t with triggers := t.triggers.map fun x => { x with faultGuard := true } }) quiet
     let fault := modLane 3 (fun l => { l with state := .fault })
     [0, 1, 255, 256].map (fun m => answerOf (.triggerArm (hdr 0) m) quiet) = [some .badArgument, some .ok, some .ok, some .badArgument] ∧
     [0, 255, 256].map (fun m => answerOf (.triggerDisarm (hdr 0) m) quiet) = [some .badArgument, some .ok, some .badArgument] ∧
     [0, 255, 256].map (fun m => answerOf (.triggerFire (hdr 0) m) quiet) = [some .badArgument, some .ok, some .badArgument] ∧
     answerOf (.triggerArm (hdr 0) 1) (fault guard) = some .faulted ∧ answerOf (.triggerArm (hdr 0) 1) guard = some .ok ∧
     bodyOf (.triggerArm (hdr 0) 5) quiet = some (.armed 5#8) ∧
     bodyOf (.triggerFire (hdr 0) 6) (setArmed 2#8 true quiet) = some (.fired 0 [1] 0#8)) := by decide +kernel

/-- Masks 0, 255 and 256; slots 3 and 4; a line held for the mail door keeps its level (R173, R175, R176). -/
theorem witness_TimeUnitRequests :
    (let held := modLdr (fun d => { d with doorHold := some 7 }) quiet
     [0, 255, 256].map (fun m => answerOf (.captureRead (hdr 0) m true) quiet) = [some .badArgument, some .ok, some .badArgument] ∧
     [(0, 0), (255, 255), (256, 0), (0, 256)].map (fun p => answerOf (.linesSet (hdr 0) p.1 p.2) quiet) =
       [some .ok, some .ok, some .badArgument, some .badArgument] ∧
     (after (.linesSet (hdr 0) 255 255) held).ttu.lines = 127#8 ∧ (after (.linesSet (hdr 0) 255 255) quiet).ttu.lines = 255#8 ∧
     [3, 4].map (fun c => answerOf (.compareForce (hdr 0) c) quiet) = [some .ok, some .badArgument] ∧
     (after (.captureRead (hdr 0) 1 true) (captureInto 0 (fireNow quiet) quiet)).ttu.captures[(0 : Fin 8)].full = false) := by
  decide +kernel

/-- Two slots that match at one tick: slot 0 prevails on the line they share (R175). A slot not reached does not match. -/
theorem witness_CompareMatchAndTick :
    (let slot := fun (v : Nat) (d : BitVec 8) =>
       { CompareSlot.reset with enabled := true, value := BitVec.ofNat 32 v, lineMask := 3#8, lineData := d }
     let s := modTtu (fun t => { t with compares := #v[slot 5 1#8, slot 5 2#8, slot 6 3#8, CompareSlot.reset] }) (atTime 4 quiet)
     let t := after .timeBaseTick s
     t.ttu.time = 5 ∧ t.ttu.compareOwed = #v[true, true, false, false] ∧ (after .compareMatch t).ttu.lines = 1#8 ∧
     (after .compareMatch t).ttu.compares.map CompareSlot.enabled = #v[false, false, true, false] ∧
     after .compareMatch quiet = quiet ∧ (after .timeBaseTick (atTime 4294967295 quiet)).ttu.time = 0 ∧
     (let c : CompareArg := { slot := 3, enabled := true, value := 5, lineMask := 4, lineData := 4, triggerMask := 0 }
      let late := after (.tableWriteCompares (hdr 0) [c]) t
      (after .compareMatch late).ttu.lines = 1#8 ∧ (after .compareMatch late).ttu.compares[(3 : Fin 4)].enabled = true)) := by decide +kernel

/-- The fault of the worked sequence of 11.8: the guarded set is disarmed, the capture is taken, the chain acts once
(R171, R178, R180). -/
theorem test_event_taken :
    (let set0 : TriggerSet := { armed := true, factor := .event .laneFault none, actions := [.lines 4#8 4#8, .capture 3],
                                chain := 2#8, mode := .repeating, faultGuard := false }
     let set1 : TriggerSet := { armed := true, factor := .none, actions := [.stop .decel, .notice 500], chain := 1#8,
                                mode := .once, faultGuard := false }
     let set2 : TriggerSet := { armed := true, factor := .event .moveDone none, actions := [.lines 16#8 16#8, .compareArm 1 50000],
                                chain := 0#8, mode := .repeating, faultGuard := true }
     let s := modTtu (fun t => { t with triggers := ((t.triggers.set 0 set0).set 1 set1).set 2 set2 }) quiet
     let t := after (.ttuEvent { kind := .laneFault, qual := some 2 }) (atTime 2000000 s)
     t.ttu.triggers.map TriggerSet.armed = #v[true, false, false, false, false, false, false, false] ∧ t.ttu.lines = 4#8 ∧
     t.ttu.captures[(3 : Fin 8)].full = true ∧ t.ttu.captures[(3 : Fin 8)].time = 2000000 ∧
     t.ttu.captures[(3 : Fin 8)].qual = some 2 ∧
     t.link.sending = some (.notice { body := .trigger 1 500 (.event .laneFault) (some 2) 2000000, placed := 2000000 }) ∧
     (after (.ttuEvent { kind := .moveDone, qual := none }) (atTime 1000000 s)).ttu.compares[(1 : Fin 4)].value = 1050000) := by
  decide +kernel

/-- A wave from distinct sets, actions where the request would be refused and where it is carried out, and a wave from
the armed sets of a trigger mask together with one whose factor matches (R175, R178, R179). -/
theorem witness_EventsWavesAndActions :
    (([0, 3] : List (Fin 8)).Nodup ∧ (wave (fireNow quiet) [0, 3] (setArmed 8#8 true quiet)).1 = [3] ∧
     act 0 (fireNow quiet) (.stop .decel) quiet = quiet ∧
     (act 0 (fireNow quiet) (.stop .instant) (modLdr (fun d => { d with state := .homing }) quiet)).ldr.homingStop = true ∧
     act 0 (fireNow quiet) (.suspendVerify 0) verifying = verifying ∧
     (act 0 (fireNow quiet) (.suspendVerify 1) verifying).vfy.contexts[(1 : LaneId)].state = .suspended ∧
     act 0 (fireNow quiet) (.resumeVerify 1) verifying = verifying) ∧
    (let s := modTtu (fun t => { t with triggers := t.triggers.set 1 { TriggerSet.reset with factor := .event .compare (some 3) } })
       quiet
     (takeEvent .compare (some 3) 5#8 (setArmed 14#8 true s)).ttu.triggers.map TriggerSet.armed =
       #v[false, false, false, true, false, false, false, false]) ∧
    (let travel := modLdr (fun d => { d with remaining := 6, ramp := 3 }) (moving [.travel (.slot 2)])
     (act 0 (fireNow quiet) (.stop .decel) travel).ldr.remaining = 4 ∧ (act 0 (fireNow quiet) (.stop .instant) travel).ldr.remaining = 1 ∧
     (act 0 (fireNow quiet) (.stop .instant) (moving [.laneEject 0])).ldr.state = .idle ∧
     (act 0 (fireNow quiet) (.stop .decel) (moving [.get (.slot 2)])).ldr.state = .stopping) := by decide +kernel

/-! ## The whole part -/

/-- A lane is writing with its catalog place held, and the compressor holds a chunk of the lane's stream. -/
def busy : State :=
  let t : Taken := { entry := { stream := 2, seq := 10, raw := some [1#8], mark := .none }, reservation := .newRoom }
  modStream 2 (fun st => { st with staged := 1 }) (modCmp (fun c => { c with engine := some t })
    (modCat (fun c => { c with places := upd c.places 0 fun _ => true }) writing))

/-- The invariant of the statement about steps holds of a state with a cartridge mounted, WRITE in flight, a catalog
place held, and a chunk in compression under a reservation (R21, R66, R90, R92, R133). -/
theorem witness_StepKeepsInv : Inv busy := by
  have named : ∀ (p : Fin 55) (i : CartId), busy.cdr.map[p] = some i ↔
      (busy.cdr.records[i].any fun c => decide (c.location.place = some p)) = true := by decide +kernel
  have carts : ∀ i : CartId, (busy.cdr.records[i].all fun c =>
      decide (c.floor ≤ c.endOfData ∧ c.verifiedTo ≤ c.endOfData ∧ c.endOfData ≤ max32)) = true := by decide +kernel
  have noChunk : ∀ j : StreamId, busy.streams[j].openChunk = none := by decide +kernel
  refine ⟨⟨by decide +kernel, by decide +kernel, fun _ => by decide +kernel, fun h => ?_, fun h => ?_⟩, by decide +kernel,
    by decide +kernel, by decide +kernel, by decide +kernel, by decide +kernel, by decide +kernel, fun i c h => ?_,
    by unfold Regions.quotasOk; decide +kernel, by unfold Pool.withinQuotas; decide +kernel,
    ⟨fun e he b hb => ?_, by decide +kernel, by decide +kernel⟩, fun t ht => ?_, by unfold lanesOk Lane.ok; decide +kernel, by unfold Catalog.ok; decide +kernel,
    fun p i => (named p i).trans ?_, fun i c hc => ?_, by unfold stepsOk; decide +kernel⟩
  · revert h; decide +kernel
  · exact absurd h (by decide +kernel)
  · exact absurd (h.symm.trans (noChunk i)) (by simp)
  · cases List.mem_singleton.mp he; cases hb; decide +kernel
  · cases ht
    show newRoom busy.streams[(2 : StreamId)].lane busy = true
    decide +kernel
  · cases busy.cdr.records[i] <;> simp
  · have := carts i
    rw [hc] at this
    simpa [Cart.ok] using this

/-- A step that answers a next state. -/
theorem test_step_takes_the_front : step { quiet with pending := [.timeBaseTick] } = .next (after .timeBaseTick quiet) :=
  rfl

/-- A tick, a reset and a report of a drive (R170, R190). -/
theorem witness_TimeAndTablesMoveByRule :
    (after .timeBaseTick quiet).ttu.time = quiet.ttu.time + 1 ∧ (after .powerOn (atTime 5 quiet)).ttu.time = 0 ∧
    (after .frameSent (atTime 5 quiet)).ttu.time = 5 ∧ (after (.driveAbsent 0) (atTime 5 library)).tables = library.tables ∧
    isFrame (.driveAbsent 0) = false := by decide +kernel
end Sys2Proof.Tests
end

section
/-! PROOFS. Requests: how a command reaches its own effect, and the operand forms. -/

namespace Sys2Proof.Machine

/-! ## A frame taken, a test commanded -/

/-- With a credit out a frame does its own effect on the settled state; then the arbiter chooses and the credit is
renewed (R184, R187, R193). -/
theorem exec_taken {c : Instr} {s t : State} (hc : s.link.credit = true) (hf : isFrame c = true)
    (e : heldEffect c (settle s) = t) : exec c s = .next (renewCredit (choose t)) := by
  subst e
  rw [exec_frame c s hf, receive, if_pos hc]
  rfl

/-! ## Operand forms -/

theorem finOf_of_lt {k n : Nat} (h : n < k) : finOf k n = some ⟨n, h⟩ := by simp [finOf, h]

@[simp] theorem finOf_val {k : Nat} (i : Fin k) : finOf k i = some i := finOf_of_lt i.2

theorem finOf_none {k n : Nat} (h : k ≤ n) : finOf k n = none := by simp [finOf, h]

theorem classOf_none {n : Nat} (h : 1 < n) : classOf n = none := by
  rw [classOf, if_neg (by omega), if_neg (by omega)]

theorem classOf_of_le {n : Nat} (h : n ≤ 1) : classOf n = some (if n = 0 then .pack else .raw) := by
  obtain rfl | rfl : n = 0 ∨ n = 1 := by omega
  · rfl
  · rfl

theorem flagOf_none {n : Nat} (h : 1 < n) : flagOf n = none := by
  rw [flagOf, if_neg (by omega), if_neg (by omega)]

theorem flagOf_of_le {n : Nat} (h : n ≤ 1) : flagOf n = some (decide (n = 1)) := by
  obtain rfl | rfl : n = 0 ∨ n = 1 := by omega
  · rfl
  · rfl

end Sys2Proof.Machine
end

section
/-! PROOFS. Reads: TABLE_READ of the directory, CAT_READ, STREAM_QUERY and LANE_QUERY (R5, R64, R87, R98, R138). -/

namespace Sys2Proof.Machine

variable (h : Hdr) (s : State)

/-- LANE_QUERY reads the mounted cartridge's record (R64). -/
theorem mountedRecord_snd (n : LaneId) (s : State) :
    (mountedRecord n s).map Prod.snd = s.lanes[n].mounted.bind fun i => s.cdr.records[i] := by
  unfold mountedRecord recordAt
  cases s.lanes[n].mounted with
  | none => rfl
  | some i =>
    show ((s.cdr.records[i]).map fun c => (i, c)).map Prod.snd = s.cdr.records[i]
    rw [Option.map_map]
    exact congrFun Option.map_id _

theorem readDirectory_refused {first count : Nat} (hr : 63 < first ∨ count = 0 ∨ 16 < count) :
    readDirectory h first count s = refuse h 7 .badArgument s := by
  rw [readDirectory, if_neg (by omega)]

theorem readDirectory_ok {first count : Nat} (hf : first ≤ 63) (h1 : 1 ≤ count) (h16 : count ≤ 16) :
    readDirectory h first count s =
      answer h 7 .ok (.directory first ((s.cdr.records.toList.drop first).take count)) s := by
  rw [readDirectory, if_pos ⟨by omega, h1, h16⟩]

theorem catRead_refused {start count : Nat} (hr : 4095 < start ∨ count = 0 ∨ 16 < count) :
    catRead h start count s = refuse h 25 .badArgument s := by
  rw [catRead, if_neg (by omega)]

theorem catRead_ok {start count : Nat} (hf : start ≤ 4095) (h1 : 1 ≤ count) (h16 : count ≤ 16) :
    catRead h start count s =
      answer h 25 .ok (.entries s.cat.entries.length ((s.cat.entries.drop start).take count)) s := by
  rw [catRead, if_pos ⟨by omega, h1, h16⟩]

theorem streamQuery_refused (hs : 31 < h.subject) : streamQuery h s = refuse h 5 .badArgument s := by
  rw [streamQuery, finOf_none (by omega)]

theorem streamQuery_ok {i : StreamId} (hi : h.subject = i) :
    streamQuery h s = answer h 5 .ok (.stream s.streams[i]) s := by
  rw [streamQuery, hi, finOf_val]

theorem laneQuery_refused (hs : 3 < h.subject) : laneQuery h s = refuse h 8 .badArgument s := by
  rw [laneQuery, finOf_none (by omega)]

theorem laneQuery_ok {n : LaneId} (hn : h.subject = n) :
    laneQuery h s = answer h 8 .ok (.lane (laneFigures n s)) s := by
  rw [laneQuery, hn, finOf_val]

theorem laneQueryClear_refused (hs : 3 < h.subject) : laneQueryClear h s = refuse h 8 .badArgument s := by
  rw [laneQueryClear, finOf_none (by omega)]

theorem laneQueryClear_ok {n : LaneId} (hn : h.subject = n) :
    laneQueryClear h s = modGov n (fun g => { g with starve := 0, repositionTotal := 0 })
      (answer h 8 .ok (.lane (laneFigures n s)) s) := by
  rw [laneQueryClear, hn, finOf_val]

end Sys2Proof.Machine

namespace Sys2Proof.Proofs

open Sys2Proof Sys2Proof.Machine

/-- Settles O24: each read by its own equation, in range and out of range. -/
theorem readsWithOperands : Obligations.ReadsWithOperands := by
  intro h first count s hc
  refine ⟨fun hr => ?_, fun hf h1 h16 => ?_, fun hr => ?_, fun hf h1 h16 => ?_, fun hs => ?_, fun i hi => ?_,
    fun hs => ⟨?_, ?_⟩, fun n hn => ?_⟩
  · exact exec_taken hc rfl (readDirectory_refused h _ hr)
  · exact exec_taken hc rfl (readDirectory_ok h _ hf h1 h16)
  · exact exec_taken hc rfl (catRead_refused h _ hr)
  · exact exec_taken hc rfl (catRead_ok h _ hf h1 h16)
  · exact exec_taken hc rfl (streamQuery_refused h _ hs)
  · exact exec_taken hc rfl (streamQuery_ok h _ hi)
  · exact exec_taken hc rfl (laneQuery_refused h _ hs)
  · exact exec_taken hc rfl (laneQueryClear_refused h _ hs)
  · rw [← mountedRecord_snd]
    exact ⟨exec_taken hc rfl (laneQuery_ok h _ hn), exec_taken hc rfl (laneQueryClear_ok h _ hn)⟩

end Sys2Proof.Proofs
end

section
/-! PROOFS. Reset: what a reset of the part leaves (R190). -/

namespace Sys2Proof.Proofs

open Sys2Proof Sys2Proof.Machine

/-- Settles O13: every piece stands at its reset value; an element of a replicated vector is the value replicated. -/
theorem resetLeaves : Obligations.ResetLeaves := by
  intro cause s
  have element : ∀ {α : Type} {k : Nat} (x : α) (i : Fin k), (Vector.replicate k x)[i] = x := fun x i => by simp
  exact ⟨element _, element _, element _, element _, element _, rfl, rfl, rfl, element _, element _, rfl, rfl, rfl, rfl,
    rfl, rfl, rfl, rfl, element _, element _, element _, rfl, rfl, rfl, element _, rfl, rfl, rfl, rfl⟩

end Sys2Proof.Proofs
end

section
/-! PROOFS. Segments: the tests of a SEG frame and the placing of its bytes (R6 to R9). -/

namespace Sys2Proof.Machine

/-! ## Conditions -/

theorem pageRoom_iff (st : Stream) (s : State) :
    pageRoom st s = true ↔ st.staged < s.settings.streamChunks ∧ s.pool.held.ingest < s.pool.quotas.ingest := by
  simp [pageRoom]

theorem pageRoom_false_iff (st : Stream) (s : State) :
    pageRoom st s = false ↔ s.settings.streamChunks ≤ st.staged ∨ s.pool.quotas.ingest ≤ s.pool.held.ingest := by
  rw [← Bool.not_eq_true, pageRoom_iff]
  omega

theorem needsPage_none {st : Stream} (h : st.openChunk = none) (k : Nat) : needsPage st k = true := by
  simp [needsPage, h]

theorem needsPage_some {st : Stream} {c : Chunk} (h : st.openChunk = some c) (k : Nat) :
    needsPage st k = true ↔ 4096 < c.bytes.length + k := by
  rw [needsPage, h]
  exact decide_eq_true_iff

/-! ## Updates of one stream -/

section
variable (i : StreamId) (f g : Stream → Stream) (s : State)

/-- Two changes of one stream agree when they agree on the context that stands there. -/
theorem modStream_congr {f g : Stream → Stream} (h : f s.streams[i] = g s.streams[i]) :
    modStream i f s = modStream i g s := by
  rw [modStream, upd_congr _ _ _ _ h, modStream]

/-- Of two changes of one stream the second is made on the first's outcome. -/
theorem modStream_modStream : modStream i g (modStream i f s) = modStream i (fun st => g (f st)) s := by
  simp [modStream]

theorem modStream_joinReady (e : Entry) : modStream i f (joinReady e s) = joinReady e (modStream i f s) := rfl

theorem modStream_takeIngest : modStream i f (takeIngest s) = takeIngest (modStream i f s) := rfl

theorem takeIngest_joinReady (e : Entry) : takeIngest (joinReady e s) = joinReady e (takeIngest s) := rfl

end

/-! ## Staging (R8) -/

section
variable {i : StreamId} {s : State} {c : Chunk}

theorem stageChunk_some (m : Mark) (h : s.streams[i].openChunk = some c) :
    stageChunk i m s = joinReady { stream := i, seq := c.seq, raw := some c.bytes, mark := m }
      (modStream i (fun st => { st with openChunk := none, staged := st.staged + 1 }) s) := by
  rw [stageChunk, h]

theorem stageIfFull_short (h : s.streams[i].openChunk = some c) (hl : c.bytes.length ≠ 4096) :
    stageIfFull i s = s := by
  rw [stageIfFull, h]
  exact if_neg hl

theorem stageIfFull_full (h : s.streams[i].openChunk = some c) (hl : c.bytes.length = 4096) :
    stageIfFull i s = joinReady { stream := i, seq := c.seq, raw := some c.bytes, mark := .none }
      (modStream i (fun st => { st with openChunk := none, staged := st.staged + 1 }) s) := by
  rw [stageIfFull, h]
  exact (if_pos hl).trans (stageChunk_some .none h)

end

/-! ## Placing (R8) -/

/-- A stream's next offset rises by a segment's length (R8). -/
def advanceOffset (k : Nat) (st : Stream) : Stream := { st with nextOffset := st.nextOffset + k }

/-- A chunk with the stream's next sequence becomes its open chunk (R8). -/
def beginChunk (bytes : List Byte) (st : Stream) : Stream :=
  { st with openChunk := some { seq := st.nextSeq, bytes := bytes }, nextSeq := st.nextSeq + 1 }

/-- Bytes join a chunk, which is the stream's open chunk (R8). -/
def extendChunk (c : Chunk) (bytes : List Byte) (st : Stream) : Stream :=
  { st with openChunk := some { c with bytes := c.bytes ++ bytes } }

/-- The open chunk leaves the context as a staged one (R8). -/
def stageOpen (st : Stream) : Stream := { st with openChunk := none, staged := st.staged + 1 }

section
variable {i : StreamId} {s : State} {data : List Byte} {c : Chunk}

theorem placeBytes_none (ho : s.streams[i].openChunk = none) :
    placeBytes i data s =
      modStream i (advanceOffset data.length) (stageIfFull i (takeIngest (modStream i (beginChunk data) s))) := by
  rw [placeBytes, ho]
  rfl

/-- The open chunk has room for the whole segment. -/
theorem placeBytes_fits (ho : s.streams[i].openChunk = some c) (hl : c.bytes.length + data.length ≤ 4096) :
    placeBytes i data s =
      modStream i (advanceOffset data.length) (stageIfFull i (modStream i (extendChunk c data) s)) := by
  have all : data.take (Config.pageBytes - c.bytes.length) = data :=
    List.take_of_length_le (by simp only [Config.pageBytes]; omega)
  rw [placeBytes, ho]
  dsimp only
  rw [if_neg (by simp only [Config.pageBytes]; omega), all]
  rfl

/-- The open chunk takes what fits, and the rest of the segment opens a second chunk. -/
theorem placeBytes_splits (ho : s.streams[i].openChunk = some c) (hc : c.bytes.length ≤ 4095)
    (hl : 4096 < c.bytes.length + data.length) :
    placeBytes i data s =
      modStream i (advanceOffset data.length) (stageIfFull i (takeIngest (modStream i
        (beginChunk (data.drop (4096 - c.bytes.length)))
        (stageIfFull i (modStream i (extendChunk c (data.take (4096 - c.bytes.length))) s))))) := by
  rw [placeBytes, ho]
  exact congrArg (modStream i _) (if_pos (show 4096 - c.bytes.length < data.length by omega))

/-- The open chunk of the stream that has just been changed. -/
theorem openChunk_modStream (f : Stream → Stream) :
    (modStream i f s).streams[i].openChunk = (f s.streams[i]).openChunk := by
  rw [modStream_streams, upd_same]

theorem openChunk_takeIngest (s : State) : (takeIngest s).streams[i].openChunk = s.streams[i].openChunk := rfl

theorem openChunk_beginChunk (bytes : List Byte) :
    (takeIngest (modStream i (beginChunk bytes) s)).streams[i].openChunk =
      some { seq := s.streams[i].nextSeq, bytes := bytes } := by
  rw [openChunk_takeIngest, openChunk_modStream]
  rfl

theorem openChunk_extendChunk (c : Chunk) (bytes : List Byte) :
    (modStream i (extendChunk c bytes) s).streams[i].openChunk = some { c with bytes := c.bytes ++ bytes } := by
  rw [openChunk_modStream]
  rfl

/-- A first chunk that the segment does not fill. -/
theorem placeBytes_opens (ho : s.streams[i].openChunk = none) (hl : data.length < 4096) :
    placeBytes i data s =
      takeIngest (modStream i (fun st => advanceOffset data.length (beginChunk data st)) s) := by
  rw [placeBytes_none ho, stageIfFull_short (openChunk_beginChunk data) (Nat.ne_of_lt hl), modStream_takeIngest,
    modStream_modStream]

/-- A first chunk that the segment fills is staged at once. -/
theorem placeBytes_opens_full (ho : s.streams[i].openChunk = none) (hl : data.length = 4096) :
    placeBytes i data s =
      joinReady { stream := i, seq := s.streams[i].nextSeq, raw := some data, mark := .none }
        (takeIngest (modStream i (fun st => advanceOffset data.length (stageOpen (beginChunk data st))) s)) := by
  rw [placeBytes_none ho, stageIfFull_full (openChunk_beginChunk data) hl, modStream_joinReady,
    modStream_takeIngest, modStream_takeIngest, modStream_modStream, modStream_modStream]
  rfl

/-- The open chunk takes the segment and is not filled. -/
theorem placeBytes_extends (ho : s.streams[i].openChunk = some c) (hl : c.bytes.length + data.length < 4096) :
    placeBytes i data s = modStream i (fun st => advanceOffset data.length (extendChunk c data st)) s := by
  rw [placeBytes_fits ho (Nat.le_of_lt hl), stageIfFull_short (openChunk_extendChunk c data)
    (by rw [List.length_append]; omega), modStream_modStream]

/-- The segment fills the open chunk exactly: it is staged. -/
theorem placeBytes_fills (ho : s.streams[i].openChunk = some c) (hl : c.bytes.length + data.length = 4096) :
    placeBytes i data s = joinReady { stream := i, seq := c.seq, raw := some (c.bytes ++ data), mark := .none }
      (modStream i (fun st => advanceOffset data.length (stageOpen (extendChunk c data st))) s) := by
  rw [placeBytes_fits ho (Nat.le_of_eq hl), stageIfFull_full (openChunk_extendChunk c data)
    (by rw [List.length_append]; exact hl), modStream_joinReady, modStream_modStream, modStream_modStream]
  rfl

/-- The segment fills the open chunk, which is staged, and what is left of it opens a second chunk. -/
theorem placeBytes_overflows (ho : s.streams[i].openChunk = some c) (h1 : 1 ≤ c.bytes.length)
    (hc : c.bytes.length ≤ 4095) (hd : data.length ≤ 4096) (hl : 4096 < c.bytes.length + data.length) :
    placeBytes i data s =
      joinReady { stream := i, seq := c.seq, raw := some (c.bytes ++ data.take (4096 - c.bytes.length)), mark := .none }
        (takeIngest (modStream i (fun st => advanceOffset data.length (beginChunk (data.drop (4096 - c.bytes.length))
          (stageOpen (extendChunk c (data.take (4096 - c.bytes.length)) st)))) s)) := by
  have filled : (c.bytes ++ data.take (4096 - c.bytes.length)).length = 4096 := by
    rw [List.length_append, List.length_take]
    omega
  have left : (data.drop (4096 - c.bytes.length)).length ≠ 4096 := by
    rw [List.length_drop]
    omega
  rw [placeBytes_splits ho hc hl, stageIfFull_short (openChunk_beginChunk _) left,
    stageIfFull_full (openChunk_extendChunk c _) filled, modStream_joinReady, takeIngest_joinReady,
    modStream_joinReady, modStream_takeIngest, modStream_modStream, modStream_modStream, modStream_modStream]
  rfl

end

/-! ## The tests of a segment (R6) -/

section
variable {h : Hdr} {i : StreamId} {offset : Nat} {data : List Byte} {s : State}

theorem segment_discarded (hr : 31 < h.subject ∨ data.length = 0 ∨ 4096 < data.length) :
    segment h offset data s = segment.countSeg s := by
  unfold segment
  split
  · next i hi =>
    have hs : h.subject < 32 := by
      by_contra hn
      rw [finOf_none (by omega)] at hi
      cases hi
    exact if_neg (by simp only [Config.pageBytes]; omega)
  · rfl

theorem segment_tested (hs : h.subject = i) (h1 : 1 ≤ data.length) (hl : data.length ≤ 4096) :
    segment h offset data s = takeSegment i offset data s := by
  rw [segment, hs, finOf_val]
  exact if_pos ⟨h1, hl⟩

theorem takeSegment_notOpen (hn : s.streams[i].state ≠ .opened) :
    takeSegment i offset data s = refuseSegment i .notOpen 0 s := by
  rw [takeSegment, if_pos hn]

theorem takeSegment_limit (hn : s.streams[i].state = .opened) (hq : s.streams[i].nextSeq = max32) :
    takeSegment i offset data s = refuseSegment i .limit s.streams[i].nextOffset s := by
  rw [takeSegment, if_neg (not_not.2 hn), if_pos hq]

theorem takeSegment_order (hn : s.streams[i].state = .opened) (hq : s.streams[i].nextSeq ≠ max32)
    (ho : offset ≠ s.streams[i].nextOffset) :
    takeSegment i offset data s = refuseSegment i .order s.streams[i].nextOffset s := by
  rw [takeSegment, if_neg (not_not.2 hn), if_neg hq, if_pos ho]

theorem takeSegment_inOrder (hn : s.streams[i].state = .opened) (hq : s.streams[i].nextSeq ≠ max32)
    (ho : offset = s.streams[i].nextOffset) :
    takeSegment i offset data s =
      if needsPage s.streams[i] data.length = true ∧ pageRoom s.streams[i] s = false then
        refuseSegment i .full s.streams[i].nextOffset (modStream i (fun st => { st with paused := true }) s)
      else placeBytes i data s := by
  rw [takeSegment, if_neg (not_not.2 hn), if_neg hq, if_neg (not_not.2 ho)]

end

end Sys2Proof.Machine

namespace Sys2Proof.Proofs

open Sys2Proof Sys2Proof.Machine

/-- Settles O14: the tests in their order, each refusal by its own equation. -/
theorem segmentTests : Obligations.SegmentTests := by
  intro h offset data s hc
  refine ⟨fun hr => exec_taken hc rfl (segment_discarded hr), fun i hs h1 hl => ⟨fun hn => ?_, fun hn hq => ?_,
    fun hn hq ho => ?_, fun hn hq ho page full => ?_⟩⟩
  all_goals refine exec_taken hc rfl ((segment_tested hs h1 hl).trans ?_)
  · exact takeSegment_notOpen hn
  · exact takeSegment_limit hn hq
  · exact takeSegment_order hn hq ho
  · refine (takeSegment_inOrder hn hq ho).trans (if_pos ⟨?_, (pageRoom_false_iff _ _).2 full⟩)
    cases hk : (settle s).streams[i].openChunk with
    | none => exact needsPage_none hk _
    | some c =>
      rw [hk] at page
      exact (needsPage_some hk _).2 page

/-- Settles O15: a segment in order goes to `placeBytes`, whose five cases are the five outcomes. -/
theorem segmentAccepted : Obligations.SegmentAccepted := by
  intro h i offset data s hc u st stage page done off room hs h1 hl hn hq ho
  have accepted : (needsPage st data.length = true → room) → ∀ v, placeBytes i data u = v → done v := by
    intro hp v hv
    refine exec_taken hc rfl ((segment_tested hs h1 hl).trans ((takeSegment_inOrder hn hq ho).trans ?_))
    rw [if_neg, hv]
    rintro ⟨need, full⟩
    exact absurd ((pageRoom_iff _ _).2 (hp need)) (by rw [full]; decide)
  refine ⟨fun empty hr => ⟨fun short => ?_, fun full => ?_⟩,
    fun c held l1 l2 => ⟨fun short => ?_, fun full => ?_, fun more hr => ?_⟩⟩
  · refine accepted (fun _ => hr) _ ((placeBytes_opens empty short).trans ?_)
    exact congrArg takeIngest (modStream_congr _ _ rfl)
  · refine accepted (fun _ => hr) _ ((placeBytes_opens_full empty full).trans ?_)
    have same : stageOpen st = { st with staged := st.staged + 1 } := by rw [stageOpen, ← empty]
    exact congrArg (fun v => stage _ (page v)) (modStream_congr _ _ (congrArg (fun x : Stream =>
      { x with nextSeq := st.nextSeq + 1, nextOffset := off }) same))
  · exact accepted (fun need => absurd ((needsPage_some held _).1 need) (by omega)) _
      ((placeBytes_extends held short).trans (modStream_congr _ _ rfl))
  · refine accepted (fun need => absurd ((needsPage_some held _).1 need) (by omega)) _
      ((placeBytes_fills held full).trans ?_)
    refine congrArg (stage _) (modStream_congr _ _ ?_)
    dsimp only [advanceOffset, stageOpen, extendChunk]
  · refine accepted (fun _ => hr) _ ((placeBytes_overflows held l1 l2 hl more).trans ?_)
    refine congrArg (fun v => stage _ (page v)) (modStream_congr _ _ ?_)
    dsimp only [advanceOffset, beginChunk, stageOpen, extendChunk]

end Sys2Proof.Proofs
end

section
/-! PROOFS. Stream requests: OPEN_STREAM, FLUSH_STREAM, CLOSE_STREAM and ABORT_STREAM (R3, R4, R14 to R17). -/

namespace Sys2Proof.Machine

variable {h : Hdr} {i : StreamId} {s : State}

/-! ## OPEN_STREAM (R3, R4) -/

theorem writeLane_eq_none {p : Fin 8} (hn : ∀ n : LaneId, s.lanes[n].role ≠ .write p) : writeLane p s = none := by
  rw [writeLane, List.find?_eq_none]
  intro n _ hr
  exact hn n (of_decide_eq_true hr)

theorem mem_allLanes (n : LaneId) : n ∈ allLanes := by
  revert n
  decide

/-- The one lane that holds WRITE for a pool is the pool's lane (R58). -/
theorem writeLane_eq_some {p : Fin 8} {n : LaneId} (hn : s.lanes[n].role = .write p)
    (only : ∀ m : LaneId, s.lanes[m].role = .write p → m = n) : writeLane p s = some n := by
  unfold writeLane
  cases hf : allLanes.find? (fun m => decide (s.lanes[m].role = .write p)) with
  | none => exact absurd (decide_eq_true hn) (List.find?_eq_none.1 hf n (mem_allLanes n))
  | some m =>
    have role := List.find?_some hf
    rw [only m (of_decide_eq_true role)]

theorem openStream_badArgument {pool cls verify : Nat} (hr : 31 < h.subject ∨ 7 < pool ∨ 1 < cls ∨ 1 < verify) :
    openStream h pool cls verify s = refuse h 1 .badArgument s := by
  unfold openStream
  split
  · next i p c v hi hp hc hv =>
    rcases hr with hr | hr | hr | hr
    · rw [finOf_none (by omega)] at hi; cases hi
    · rw [finOf_none (by omega)] at hp; cases hp
    · rw [classOf_none hr] at hc; cases hc
    · rw [flagOf_none hr] at hv; cases hv
  · rfl

/-! OPEN_STREAM with its arguments in their ranges. -/

section
variable {p : Fin 8} {cls verify : Nat}

theorem openStream_badState (hs : h.subject = i) (hc : cls ≤ 1) (hv : verify ≤ 1) (hn : s.streams[i].state ≠ .closed) :
    openStream h p cls verify s = refuse h 1 .badState s := by
  rw [openStream, hs, finOf_val, finOf_val, classOf_of_le hc, flagOf_of_le hv]
  exact if_pos hn

theorem openStream_notFound (hs : h.subject = i) (hc : cls ≤ 1) (hv : verify ≤ 1) (hn : s.streams[i].state = .closed)
    (hw : writeLane p s = none) : openStream h p cls verify s = refuse h 1 .notFound s := by
  rw [openStream, hs, finOf_val, finOf_val, classOf_of_le hc, flagOf_of_le hv]
  refine (if_neg (not_not.2 hn)).trans ?_
  rw [hw]

theorem openStream_ok {n : LaneId} (hs : h.subject = i) (hc : cls ≤ 1) (hv : verify ≤ 1)
    (hn : s.streams[i].state = .closed) (hw : writeLane p s = some n) :
    openStream h p cls verify s = answer h 1 .ok .none
      (modStream i (openedStream p n (if cls = 0 then .pack else .raw) (decide (verify = 1))) s) := by
  rw [openStream, hs, finOf_val, finOf_val, classOf_of_le hc, flagOf_of_le hv]
  refine (if_neg (not_not.2 hn)).trans ?_
  rw [hw]

end

/-! ## FLUSH_STREAM (R14) -/

/-- The mark goes on the last entry of the stream, wherever that stands in the list (R14). -/
theorem markLast_append (m : Mark) (front : List Entry) (e : Entry) (rest : List Entry) (he : e.stream = i)
    (last : ∀ x ∈ rest, x.stream ≠ i) :
    markLast i m (front ++ e :: rest) = front ++ { e with mark := m } :: rest := by
  induction front with
  | nil =>
    have none : rest.any (fun x => decide (x.stream = i)) = false := by simpa using last
    exact if_pos ⟨he, none⟩
  | cons x xs ih =>
    have some : (xs ++ e :: rest).any (fun y => decide (y.stream = i)) = true :=
      List.any_eq_true.2 ⟨e, by simp, decide_eq_true he⟩
    rw [List.cons_append, markLast, if_neg (fun c => by rw [some] at c; exact absurd c.2 (by decide)), ih, List.cons_append]

theorem flushMark_ready (hr : ∃ e ∈ s.cmp.ready, e.stream = i) :
    flushMark i s = { s with cmp := { s.cmp with ready := markLast i .flush s.cmp.ready } } := by
  obtain ⟨e, he, hi⟩ := hr
  exact if_pos (List.any_eq_true.2 ⟨e, he, decide_eq_true hi⟩)

theorem flushMark_engine {t : Taken} (hr : ∀ x ∈ s.cmp.ready, x.stream ≠ i) (ht : s.cmp.engine = some t)
    (hi : t.entry.stream = i) :
    flushMark i s = { s with cmp := { s.cmp with
      engine := some { t with entry := { t.entry with mark := .flush } } } } := by
  have none : s.cmp.ready.any (fun e => decide (e.stream = i)) = false := by simpa using hr
  rw [flushMark, if_neg (by rw [none]; decide), modCmp, ht, Option.map_some, if_pos hi]

theorem flushStream_badArgument (hs : 31 < h.subject) : flushStream h s = refuse h 2 .badArgument s := by
  rw [flushStream, finOf_none (by omega)]

theorem flushStream_badState (hs : h.subject = i) (hn : s.streams[i].state ≠ .opened) :
    flushStream h s = refuse h 2 .badState s := by
  rw [flushStream, hs, finOf_val]
  exact if_pos hn

/-- FLUSH_STREAM of an OPEN stream: which of its four cases comes. -/
theorem flushStream_opened (hs : h.subject = i) (hn : s.streams[i].state = .opened) :
    flushStream h s = post (.holdResume s.streams[i].lane)
      (let go := modStream i (fun st => { st with state := .flushing }) s
       if s.streams[i].openChunk.isSome = true then answer h 2 .ok .none (stageChunk i .flush go)
       else if 0 < s.streams[i].staged then answer h 2 .ok .none (flushMark i go)
       else if 0 < s.streams[i].uncommitted then
         answer h 2 .ok .none
           (if openHolds i s.streams[i].lane s = true then askSeal s.streams[i].lane .mark go else go)
       else offerNotice (.streamFlushed i s.streams[i].nextOffset) (answer h 2 .ok .none s)) := by
  rw [flushStream, hs, finOf_val]
  exact if_neg (not_not.2 hn)

theorem flushStream_chunk {c : Chunk} (hs : h.subject = i) (hn : s.streams[i].state = .opened)
    (hc : s.streams[i].openChunk = some c) :
    flushStream h s = post (.holdResume s.streams[i].lane) (answer h 2 .ok .none
      (joinReady { stream := i, seq := c.seq, raw := some c.bytes, mark := .flush } (modStream i (fun st => { st with
        state := .flushing
        openChunk := none
        staged := st.staged + 1 }) s))) := by
  have held : (modStream i (fun st => { st with state := .flushing }) s).streams[i].openChunk = some c :=
    (openChunk_modStream _).trans hc
  rw [flushStream_opened hs hn]
  dsimp only
  rw [if_pos (by rw [hc]; rfl), stageChunk_some .flush held, modStream_modStream]

theorem flushStream_staged (hs : h.subject = i) (hn : s.streams[i].state = .opened)
    (hc : s.streams[i].openChunk = none) (staged : 0 < s.streams[i].staged) :
    flushStream h s = post (.holdResume s.streams[i].lane) (answer h 2 .ok .none
      (flushMark i (modStream i (fun st => { st with state := .flushing }) s))) := by
  rw [flushStream_opened hs hn]
  dsimp only
  rw [if_neg (by rw [hc]; decide), if_pos staged]

theorem flushStream_uncommitted (hs : h.subject = i) (hn : s.streams[i].state = .opened)
    (hc : s.streams[i].openChunk = none) (staged : s.streams[i].staged = 0)
    (uncommitted : 0 < s.streams[i].uncommitted) :
    flushStream h s = post (.holdResume s.streams[i].lane) (answer h 2 .ok .none
      (if openHolds i s.streams[i].lane s = true then
        askSeal s.streams[i].lane .mark (modStream i (fun st => { st with state := .flushing }) s)
      else modStream i (fun st => { st with state := .flushing }) s)) := by
  rw [flushStream_opened hs hn]
  dsimp only
  rw [if_neg (by rw [hc]; decide), if_neg (by omega), if_pos uncommitted]

theorem flushStream_nothing (hs : h.subject = i) (hn : s.streams[i].state = .opened)
    (hc : s.streams[i].openChunk = none) (staged : s.streams[i].staged = 0)
    (uncommitted : s.streams[i].uncommitted = 0) :
    flushStream h s = post (.holdResume s.streams[i].lane)
      (offerNotice (.streamFlushed i s.streams[i].nextOffset) (answer h 2 .ok .none s)) := by
  rw [flushStream_opened hs hn]
  dsimp only
  rw [if_neg (by rw [hc]; decide), if_neg (by omega), if_neg (by omega)]

/-! ## CLOSE_STREAM (R15) -/

theorem closeStream_badArgument (hs : 31 < h.subject) : closeStream h s = refuse h 3 .badArgument s := by
  rw [closeStream, finOf_none (by omega)]

theorem closeStream_badState (hs : h.subject = i) (ho : s.streams[i].state ≠ .opened)
    (hf : s.streams[i].state ≠ .flushing) : closeStream h s = refuse h 3 .badState s := by
  rw [closeStream, hs, finOf_val]
  exact if_neg (not_or.2 ⟨ho, hf⟩)

theorem closeStream_chunk {c : Chunk} (hs : h.subject = i)
    (hn : s.streams[i].state = .opened ∨ s.streams[i].state = .flushing) (hc : s.streams[i].openChunk = some c) :
    closeStream h s = answer h 3 .ok .none
      (joinReady { stream := i, seq := c.seq, raw := some c.bytes, mark := .close } (modStream i (fun st => { st with
        state := .closing
        paused := false
        openChunk := none
        staged := st.staged + 1 }) s)) := by
  have held : (modStream i (fun st => { st with state := .closing, paused := false }) s).streams[i].openChunk = some c := by
    rw [openChunk_modStream]
    exact hc
  rw [closeStream, hs, finOf_val]
  refine (if_pos hn).trans (congrArg (answer h 3 .ok .none) ?_)
  rw [if_pos (by rw [hc]; rfl), stageChunk_some .close held, modStream_modStream]

theorem closeStream_end (hs : h.subject = i)
    (hn : s.streams[i].state = .opened ∨ s.streams[i].state = .flushing) (hc : s.streams[i].openChunk = none) :
    closeStream h s = answer h 3 .ok .none
      (joinReady { stream := i, seq := s.streams[i].nextSeq, raw := none, mark := .close }
        (modStream i (fun st => { st with
          state := .closing
          paused := false
          nextSeq := if st.nextSeq = max32 then max32 else st.nextSeq + 1
          staged := st.staged + 1 }) s)) := by
  rw [closeStream, hs, finOf_val]
  refine (if_pos hn).trans (congrArg (answer h 3 .ok .none) ?_)
  rw [if_neg (by rw [hc]; decide), addEnd, modStream_modStream, modStream_streams, upd_same]

/-! ## ABORT_STREAM (R16) -/

theorem abortStream_badArgument (hs : 31 < h.subject) : abortStream h s = refuse h 4 .badArgument s := by
  rw [abortStream, finOf_none (by omega)]

theorem abortStream_badState (hs : h.subject = i)
    (hn : s.streams[i].state = .closed ∨ s.streams[i].state = .aborted) :
    abortStream h s = refuse h 4 .badState s := by
  rw [abortStream, hs, finOf_val]
  refine if_neg ?_
  rcases hn with hn | hn <;> rw [hn] <;> decide

/-- What leaves with the chunks of a stream whose context has been changed: the entries of the ready list, with a page
for each that holds bytes, and the open chunk with its page (R16). -/
theorem dropChunks_modStream {f : Stream → Stream} (hf : (f s.streams[i]).openChunk = s.streams[i].openChunk) :
    dropChunks i (modStream i f s) =
      let mine := s.cmp.ready.filter fun e => decide (e.stream = i)
      freeIngest ((mine.filter fun e => e.raw.isSome).length + (if s.streams[i].openChunk.isSome = true then 1 else 0))
        { s with
          streams := upd s.streams i fun st => { f st with openChunk := none, staged := (f st).staged - mine.length }
          cmp := { s.cmp with ready := s.cmp.ready.filter fun e => decide (e.stream ≠ i) } } := by
  simp only [dropChunks, modStream, modCmp, upd_upd, upd_same, hf]

theorem abortStream_ok (hs : h.subject = i)
    (hn : s.streams[i].state = .opened ∨ s.streams[i].state = .flushing ∨ s.streams[i].state = .closing) :
    abortStream h s = abortComplete i (post (.holdResume s.streams[i].lane) (answer h 4 .ok .none
      (dropChunks i (modStream i (fun st => { st with state := .aborted, paused := false }) s)))) := by
  rw [abortStream, hs, finOf_val]
  exact if_pos hn

end Sys2Proof.Machine

namespace Sys2Proof.Proofs

open Sys2Proof Sys2Proof.Machine

/-- Settles O16: OPEN_STREAM check by check, FLUSH_STREAM case by case. -/
theorem openAndFlushStream : Obligations.OpenAndFlushStream := by
  constructor
  · intro h pool cls verify s hc u done
    refine ⟨fun hr => exec_taken hc rfl (openStream_badArgument hr), fun i p hs hp hcls hver => ?_⟩
    subst hp
    refine ⟨fun hn => ?_, fun hn hl => ?_, fun n hn hl only => ?_⟩
    · exact exec_taken hc rfl (openStream_badState hs hcls hver hn)
    · exact exec_taken hc rfl (openStream_notFound hs hcls hver hn (writeLane_eq_none hl))
    · exact exec_taken hc rfl (openStream_ok hs hcls hver hn (writeLane_eq_some hl only))
  · intro h s hc u done
    refine ⟨fun hs => exec_taken hc rfl (flushStream_badArgument hs), ?_⟩
    intro i hs st go ok
    refine ⟨fun hn => ?_, fun c hn chunk => ?_,
      fun hn empty staged => ⟨fun front e rest ready mine last => ?_, fun t ready engine mine => ?_⟩,
      fun hn empty staged uncommitted => ?_, fun hn empty staged uncommitted => ?_⟩
    · exact exec_taken hc rfl (flushStream_badState hs hn)
    · exact exec_taken hc rfl (flushStream_chunk hs hn chunk)
    · have marked : flushMark i go = { go with cmp := { u.cmp with
          ready := front ++ { e with mark := .flush } :: rest } } := by
        rw [flushMark_ready ⟨e, by rw [modStream_cmp, ready]; simp, mine⟩, modStream_cmp, ready,
          markLast_append .flush front e rest mine last]
      refine exec_taken hc rfl ((flushStream_staged hs hn empty staged).trans ?_)
      exact congrArg (fun v => post (.holdResume st.lane) (answer h 2 .ok .none v)) marked
    · refine exec_taken hc rfl ((flushStream_staged hs hn empty staged).trans ?_)
      exact congrArg (fun v => post (.holdResume st.lane) (answer h 2 .ok .none v)) (flushMark_engine ready engine mine)
    · exact exec_taken hc rfl (flushStream_uncommitted hs hn empty staged uncommitted)
    · exact exec_taken hc rfl (flushStream_nothing hs hn empty staged uncommitted)

/-- Settles O17: CLOSE_STREAM by its open chunk, ABORT_STREAM by the stream's state. -/
theorem closeAndAbortStream : Obligations.CloseAndAbortStream := by
  constructor
  · intro h s hc u done
    refine ⟨fun hs => exec_taken hc rfl (closeStream_badArgument hs), ?_⟩
    intro i hs st join
    refine ⟨fun ho hf => ?_, fun c hn chunk => ?_, fun hn empty => ?_⟩
    · exact exec_taken hc rfl (closeStream_badState hs ho hf)
    · exact exec_taken hc rfl (closeStream_chunk hs hn chunk)
    · exact exec_taken hc rfl (closeStream_end hs hn empty)
  · intro h s hc u done
    refine ⟨fun hs => exec_taken hc rfl (abortStream_badArgument hs), ?_⟩
    intro i hs st mine pages
    refine ⟨fun hn => ?_, fun hn => ?_⟩
    · exact exec_taken hc rfl (abortStream_badState hs hn)
    · refine exec_taken hc rfl ((abortStream_ok hs hn).trans ?_)
      exact congrArg (fun v => abortComplete i (post _ (answer h 4 .ok .none v))) (dropChunks_modStream rfl)

end Sys2Proof.Proofs
end

section
/-! PROOFS. Stream checks: the ends of a pause, a flush, a close and an abort, and the span list (R10, R14 to R17). -/

namespace Sys2Proof.Machine

variable {i : StreamId} {s : State}

theorem drained_iff (st : Stream) : st.drained = true ↔ st.staged = 0 ∧ st.uncommitted = 0 := by
  simp [Stream.drained]

theorem streamResume_eq : streamResume i s =
    if s.streams[i].paused = true ∧ (s.streams[i].state = .opened ∨ s.streams[i].state = .flushing) ∧
        s.streams[i].staged < s.settings.streamChunks ∧ s.pool.held.ingest < s.pool.quotas.ingest then
      offerNotice (.streamResume i s.streams[i].nextOffset) (modStream i (fun st => { st with paused := false }) s)
    else s :=
  if_congr (and_congr_right' (and_congr_right' (pageRoom_iff _ _))) rfl rfl

theorem streamFlushed_eq : streamFlushed i s =
    if s.streams[i].state = .flushing ∧ s.streams[i].staged = 0 ∧ s.streams[i].uncommitted = 0 then
      offerNotice (.streamFlushed i s.streams[i].nextOffset) (modStream i (fun st => { st with state := .opened }) s)
    else s :=
  if_congr (and_congr_right' (drained_iff _)) rfl rfl

theorem closeComplete_eq : closeComplete i s =
    let st := s.streams[i]
    let offered := if st.verifyOnClose = true then offerSpans i st.spans s else (0, s)
    if st.state = .closing ∧ st.staged = 0 ∧ st.uncommitted = 0 then
      modStream i (fun st => { st with state := .closed }) (offerNotice
        (.streamClosed i st.nextOffset st.lastCommitted st.spans st.spanOverflow false offered.1) offered.2)
    else s :=
  if_congr (and_congr_right' (drained_iff _)) rfl rfl

theorem abortComplete_eq : abortComplete i s =
    let st := s.streams[i]
    if st.state = .aborted ∧ st.staged = 0 ∧ st.uncommitted = 0 then
      modStream i (fun st => { st with state := .closed }) (offerNotice
        (.streamClosed i st.nextOffset st.lastCommitted st.spans st.spanOverflow true 0) s)
    else s :=
  if_congr (and_congr_right' (drained_iff _)) rfl rfl

/-- A test of the table commanded: its entry leaves the list, the test is made, the arbiter chooses (log entry 2). -/
theorem commanded_congr {d : Due} {t : State} (e : runDue d (takeDue d s) = t) :
    (Host.Outcome.next (commanded d s) : Out) = .next (choose t) := by
  rw [commanded, e]

/-! ## Spans offered at a close (R15, R144) -/

section
variable {sp : Span}

theorem offerSpan_notQueued (hn : s.cdr.records[sp.cart] = none ∨ 8 ≤ s.vfy.queue.length) :
    offerSpan i sp s = (false, s) := by
  cases hr : s.cdr.records[sp.cart] with
  | none =>
    rw [offerSpan, recordAt, hr]
  | some c =>
    rw [offerSpan, recordAt, hr]
    exact if_pos (hn.resolve_left (by rw [hr]; exact Option.some_ne_none c))

theorem offerSpan_queued {c : Cart} (hr : s.cdr.records[sp.cart] = some c) (room : s.vfy.queue.length < 8) :
    offerSpan i sp s = (true, post .verifyStart (modVfy (fun v => { v with
      queue := v.queue ++ [{ cart := sp.cart, label := c.label, first := sp.first, last := some sp.last,
                             origin := .close i, mountAsked := false }] }) s)) := by
  rw [offerSpan, recordAt, hr]
  exact if_neg (Nat.not_le.2 room)

end

end Sys2Proof.Machine

namespace Sys2Proof.Proofs

open Sys2Proof Sys2Proof.Machine

/-- Settles O18: each check by its equation, and a span by whether the verify queue takes it. -/
theorem streamChecksAndSpans : Obligations.StreamChecksAndSpans := by
  refine ⟨fun i s => ⟨?_, ?_, ?_, ?_⟩, fun i sp rest s => ⟨rfl, fun hn => ?_, fun c hr room => ?_⟩⟩
  · exact commanded_congr streamResume_eq
  · exact commanded_congr streamFlushed_eq
  · exact commanded_congr closeComplete_eq
  · exact commanded_congr abortComplete_eq
  · rw [offerSpans, offerSpan_notQueued hn]
    rfl
  · rw [offerSpans, offerSpan_queued hr room]
    rfl

end Sys2Proof.Proofs
end

section
/-! PROOFS. Invariant: reset meets it and every step keeps it. -/

namespace Sys2Proof.Machine

/-! ## The invariant (StepKeepsInv, ResetInv) -/

variable {s : State}

/-- The invariant does not speak of the commands that wait. -/
theorem inv_pending (l : List Instr) (h : Inv s) : Inv { s with pending := l } :=
  ⟨h.link, h.mounts, h.verifies, h.restores, h.settings, h.speed, h.ramp, h.chunks, h.quotas, h.pages, h.entries,
    h.reservation, h.lanes, h.catalog, h.map, h.carts, h.steps⟩

/-- FRAME_SENT: the owed tests, the end of the frame, then the frames held at the server. -/
theorem inv_execFrameSent (h : Inv s) : Inv (resumeReception (frameSent (settle s))) := by
  have st := still_settle s
  refine inv_resumeReception (inv_frameSent (mid_settle h.mid) fun hc => ?_)
  rw [st.credit] at hc
  rw [st.waiting]
  exact (h.link.credit hc).2.2

theorem exec_timeBaseTick (s : State) : exec .timeBaseTick s = .next (outside tick s) := rfl

theorem exec_frameSent (s : State) : exec .frameSent s = .next (resumeReception (frameSent (settle s))) := rfl

theorem exec_powerOn (s : State) : exec .powerOn s = .next (resetDevice .powerOn s) := rfl

theorem exec_resetInput (s : State) : exec .resetInput s = .next (resetDevice .resetInput s) := rfl

/-- Every command keeps the invariant: a frame received, a step from outside, a test commanded, the tick, the end of a
frame sent, and the two resets. -/
theorem inv_exec (c : Instr) (h : Inv s) : ∃ t, exec c s = .next t ∧ Inv t := by
  cases hf : isFrame c with
  | true => exact ⟨_, exec_frame c s hf, inv_receive c (framed_heldEffect c) h⟩
  | false =>
    obtain ⟨f, keeps, he⟩ | ⟨d, he⟩ | rfl | rfl | rfl | rfl := exec_inner c hf
    · exact ⟨_, he s, inv_outside keeps h⟩
    · exact ⟨_, he s, inv_commanded d h⟩
    · exact ⟨_, exec_timeBaseTick s, inv_tick h⟩
    · exact ⟨_, exec_frameSent s, inv_execFrameSent h⟩
    · exact ⟨_, exec_powerOn s, inv_resetDevice .powerOn s⟩
    · exact ⟨_, exec_resetInput s, inv_resetDevice .resetInput s⟩

end Sys2Proof.Machine

namespace Sys2Proof.Proofs

open Sys2Proof Sys2Proof.Machine

/-- Settles O59, by the kinds of command: each keeps the invariant (`inv_exec`). -/
theorem stepKeepsInv : Obligations.StepKeepsInv := by
  intro s t h e
  unfold step at e
  split at e
  · cases e; exact h
  · next c rest _ =>
    obtain ⟨u, hu, inv⟩ := inv_exec c (inv_pending rest h)
    cases hu.symm.trans e
    exact inv

/-- Settles O58: the reset state is what a power-on reset leaves with no frame held at the server. -/
theorem resetInv : Obligations.ResetInv :=
  inv_afterReset .powerOn State.reset

end Sys2Proof.Proofs
end

section
/-! PROOFS. Packing: the items of a chunk, their coded form, its decoding, and that a record expands to its bytes
(R24 to R28, R33 to R35). -/

namespace Sys2Proof.Machine.Packing

variable {bs rest : List Byte} {p q n k : Nat}

/-! ## A chunk read by position (R26, R27) -/

/-- The byte at a position of a chunk. -/
def byteAt (bs : List Byte) (q : Nat) : Byte := bs.getD q 0

/-- The hash of a position (R26). -/
def hashAt (bs : List Byte) (q : Nat) : Nat :=
  ((byteAt bs q).toNat * 33 + (byteAt bs (q + 1)).toNat * 5 + (byteAt bs (q + 2)).toNat) % 1024

/-- The `n` bytes from `q` on are those from `p` on, which stand within the chunk (R27.3). -/
def Agree (bs : List Byte) (q p n : Nat) : Prop :=
  p + n ≤ bs.length ∧ ∀ j < n, byteAt bs (q + j) = byteAt bs (p + j)

/-- A position before `p` that has the hash of `p` (R26). -/
def Earlier (bs : List Byte) (p q : Nat) : Prop := q < p ∧ p + 3 ≤ bs.length ∧ hashAt bs q = hashAt bs p

/-- The position that the head table gives at `p` (R26). -/
def Latest (bs : List Byte) (p q : Nat) : Prop := Earlier bs p q ∧ ∀ r, Earlier bs p r → r ≤ q

theorem latest_unique {q' : Nat} (h : Latest bs p q) (h' : Latest bs p q') : q = q' :=
  Nat.le_antisymm (h'.2 q h.1) (h.2 q' h'.1)

theorem agree_mono {m : Nat} (h : Agree bs q p n) (hm : m ≤ n) : Agree bs q p m :=
  ⟨by have := h.1; omega, fun j hj => h.2 j (by omega)⟩

theorem take_append_byteAt (h : p < bs.length) : bs.take p ++ [byteAt bs p] = bs.take (p + 1) := by
  rw [byteAt, List.getD_eq_getElem _ _ h, List.take_append_getElem]

theorem drop_eq_byteAt_cons (h : p < bs.length) : bs.drop p = byteAt bs p :: bs.drop (p + 1) := by
  rw [byteAt, List.getD_eq_getElem _ _ h, List.drop_eq_getElem_cons h]

theorem getD_drop (j : Nat) : (bs.drop q).getD j 0 = byteAt bs (q + j) := by
  simp [byteAt, List.getD_eq_getElem?_getD]

theorem getD_take (h : q < p) : (bs.take p).getD q 0 = byteAt bs q := by
  simp [byteAt, List.getD_eq_getElem?_getD, List.getElem?_take_of_lt h]

theorem hash3_drop_some (h : p + 3 ≤ bs.length) : hash3 (bs.drop p) = some (hashAt bs p) := by
  rw [drop_eq_byteAt_cons (p := p) (by omega), drop_eq_byteAt_cons (p := p + 1) (by omega),
    drop_eq_byteAt_cons (p := p + 1 + 1) (by omega)]
  rfl

theorem hash3_short {l : List Byte} (h : l.length < 3) : hash3 l = none := by
  match l, h with
  | [], _ => rfl
  | [_], _ => rfl
  | [_, _], _ => rfl
  | _ :: _ :: _ :: _, h => exact absurd h (by simp)

theorem hash3_drop_none (h : bs.length < p + 3) : hash3 (bs.drop p) = none :=
  hash3_short (by rw [List.length_drop]; omega)

theorem le_commonPrefix_iff (xs ys : List Byte) (n : Nat) :
    n ≤ commonPrefix xs ys ↔ n ≤ xs.length ∧ n ≤ ys.length ∧ ∀ j < n, xs.getD j 0 = ys.getD j 0 := by
  induction xs generalizing ys n with
  | nil => simp +contextual [commonPrefix]
  | cons x xs ih =>
    cases ys with
    | nil =>
      rw [commonPrefix, List.length_nil, Nat.le_zero]
      · exact ⟨by rintro rfl; simp, fun h => h.2.1⟩
      · simp
    | cons y ys =>
      cases n with
      | zero => simp
      | succ n =>
        rw [commonPrefix, Nat.forall_lt_succ_left]
        by_cases hxy : x = y
        · simp [hxy, ih]
        · simp [hxy]

theorem le_commonPrefix_drop_iff (hq : q ≤ p) (hp : p ≤ bs.length) :
    n ≤ commonPrefix (bs.drop q) (bs.drop p) ↔ Agree bs q p n := by
  simp only [le_commonPrefix_iff, getD_drop, List.length_drop, Agree]
  constructor
  · rintro ⟨-, hn, eq⟩
    exact ⟨by omega, eq⟩
  · rintro ⟨hn, eq⟩
    exact ⟨by omega, by omega, eq⟩

/-! ## The head table (R26) -/

/-- A position before `p` that has been stored under a head number. -/
def Stored (bs : List Byte) (p h q : Nat) : Prop := q < p ∧ q + 3 ≤ bs.length ∧ hashAt bs q = h

/-- The head table at `p`: each number gives the latest position stored under it. -/
structure HeadsAt (bs : List Byte) (p : Nat) (heads : List (Nat × Nat)) : Prop where
  fresh : ∀ h, heads.lookup h = none → ∀ q, ¬ Stored bs p h q
  latest : ∀ h c, heads.lookup h = some c → Stored bs p h c ∧ ∀ q, Stored bs p h q → q ≤ c

variable {heads : List (Nat × Nat)}

theorem stored_hashAt_iff (hp : p + 3 ≤ bs.length) : Stored bs p (hashAt bs p) q ↔ Earlier bs p q := by
  unfold Stored Earlier
  constructor
  · rintro ⟨hq, -, hh⟩
    exact ⟨hq, hp, hh⟩
  · rintro ⟨hq, -, hh⟩
    exact ⟨hq, by omega, hh⟩

theorem stored_succ_iff (hp : p + 3 ≤ bs.length) (h : Nat) :
    Stored bs (p + 1) h q ↔ Stored bs p h q ∨ q = p ∧ hashAt bs p = h := by
  unfold Stored
  constructor
  · rintro ⟨hq, hl, hh⟩
    obtain hq | rfl : q < p ∨ q = p := by omega
    · exact .inl ⟨hq, hl, hh⟩
    · exact .inr ⟨rfl, hh⟩
  · rintro (⟨hq, hl, hh⟩ | ⟨rfl, hh⟩)
    · exact ⟨by omega, hl, hh⟩
    · exact ⟨by omega, hp, hh⟩

theorem headsAt_nil : HeadsAt bs 0 [] :=
  ⟨fun _ _ _ hs => absurd hs.1 (Nat.not_lt_zero _), fun _ _ e => by cases e⟩

/-- A store makes its position the latest under its number, and leaves the other numbers. -/
theorem headsAt_store (hp : p + 3 ≤ bs.length) (H : HeadsAt bs p heads) :
    HeadsAt bs (p + 1) ((hashAt bs p, p) :: heads) := by
  have own : List.lookup (hashAt bs p) ((hashAt bs p, p) :: heads) = some p := List.lookup_cons_self
  have other {h : Nat} (hh : h ≠ hashAt bs p) : List.lookup h ((hashAt bs p, p) :: heads) = heads.lookup h := by
    rw [List.lookup_cons, beq_false_of_ne hh]
  constructor
  case fresh =>
    intro h e q hs
    obtain rfl | hh := eq_or_ne h (hashAt bs p)
    · exact absurd (own.symm.trans e) (Option.some_ne_none p)
    · obtain hs | ⟨-, hs⟩ := (stored_succ_iff hp h).1 hs
      · exact H.fresh h ((other hh).symm.trans e) q hs
      · exact hh hs.symm
  case latest =>
    intro h c e
    obtain rfl | hh := eq_or_ne h (hashAt bs p)
    · obtain rfl := Option.some.inj (own.symm.trans e)
      exact ⟨(stored_succ_iff hp _).2 (.inr ⟨rfl, rfl⟩), fun q hs => Nat.le_of_lt_succ hs.1⟩
    · obtain ⟨hc, max⟩ := H.latest h c ((other hh).symm.trans e)
      refine ⟨(stored_succ_iff hp h).2 (.inl hc), fun q hs => ?_⟩
      obtain hs | ⟨-, hs⟩ := (stored_succ_iff hp h).1 hs
      · exact max q hs
      · exact absurd hs.symm hh

/-- Past the last position with a hash the table is not changed. -/
theorem headsAt_short (hp : bs.length < p + 3) (H : HeadsAt bs p heads) : HeadsAt bs (p + k) heads := by
  have same : ∀ h q, Stored bs (p + k) h q ↔ Stored bs p h q := fun h q => by
    unfold Stored
    exact and_congr_left fun hq => by omega
  refine ⟨fun h e q hs => H.fresh h e q ((same h q).1 hs), fun h c e => ?_⟩
  obtain ⟨hc, max⟩ := H.latest h c e
  exact ⟨(same h c).2 hc, fun q hs => max q ((same h q).1 hs)⟩

/-- The positions that a copy passes over are stored (R27.4). -/
theorem headsAt_storeHeads (H : HeadsAt bs p heads) : HeadsAt bs (p + k) (storeHeads k p (bs.drop p) heads) := by
  induction k generalizing p heads with
  | zero => exact H
  | succ k ih =>
    by_cases hp : p + 3 ≤ bs.length
    · rw [storeHeads, hash3_drop_some hp, List.tail_drop, Nat.add_comm k, ← Nat.add_assoc]
      exact ih (headsAt_store hp H)
    · have hp : bs.length < p + 3 := by omega
      rw [storeHeads, hash3_drop_none hp]
      exact headsAt_short hp H

/-! ## The items of a chunk (R26, R27) -/

/-- The bytes of the chunk that an item stands for. -/
def covers : Item → Nat
  | .literal _ => 1
  | .copy _ n => n

/-- The item that R27 emits at a position. -/
inductive Emits (bs : List Byte) (p : Nat) : Item → Prop
  | fresh : p < bs.length → (∀ q, ¬ Earlier bs p q) → Emits bs p (.literal (byteAt bs p))
  | differs {q : Nat} : Latest bs p q → ¬ Agree bs q p 3 → Emits bs p (.literal (byteAt bs p))
  | copied {q n : Nat} : Latest bs p q → 3 ≤ n → n ≤ 130 → Agree bs q p n → (n = 130 ∨ ¬ Agree bs q p (n + 1)) →
      Emits bs p (.copy (p - q) n)

/-- Items that follow one another by R27 from a position to the end of the chunk. -/
def Spells (bs : List Byte) : Nat → List Item → Prop
  | p, [] => p = bs.length
  | p, it :: items => Emits bs p it ∧ Spells bs (p + covers it) items

variable {it : Item} {items : List Item}

theorem spells_literal {b : Byte} (h : Emits bs p (.literal b)) (hs : Spells bs (p + 1) items) :
    Spells bs p (.literal b :: items) := ⟨h, hs⟩

theorem spells_copy {d : Nat} (h : Emits bs p (.copy d n)) (hs : Spells bs (p + n) items) :
    Spells bs p (.copy d n :: items) := ⟨h, hs⟩

theorem emits_lt (h : Emits bs p it) : p < bs.length := by
  cases h with
  | fresh hp _ => exact hp
  | differs hq _ => have := hq.1.2.1; omega
  | copied hq _ _ _ _ => have := hq.1.2.1; omega

theorem emits_literal {b : Byte} (h : Emits bs p (.literal b)) : b = byteAt bs p := by
  cases h <;> rfl

theorem emits_copy {d : Nat} (h : Emits bs p (.copy d n)) :
    1 ≤ d ∧ d ≤ p ∧ 3 ≤ n ∧ n ≤ 130 ∧ Agree bs (p - d) p n := by
  cases h with
  | @copied q n hq h3 h130 agree _ =>
    have hlt := hq.1.1
    refine ⟨by omega, by omega, h3, h130, ?_⟩
    rwa [Nat.sub_sub_self hlt.le]

/-- The match length of R27.3: the greatest up to 130. -/
theorem agree_of_eq_min (hn : n = min 130 (commonPrefix (bs.drop q) (bs.drop p))) (hq : q ≤ p) (hp : p ≤ bs.length) :
    n ≤ 130 ∧ Agree bs q p n ∧ (n = 130 ∨ ¬ Agree bs q p (n + 1)) := by
  simp only [← le_commonPrefix_drop_iff hq hp]
  omega

/-! The steps of R27, one equation per case. -/

section
variable {fuel c : Nat}

theorem packSteps_end (hp : bs.length ≤ p) : packSteps bs fuel p (bs.drop p) heads = [] := by
  rw [List.drop_eq_nil_of_le hp]
  cases fuel <;> rfl

theorem packSteps_unhashed (hp : p < bs.length) (h3 : bs.length < p + 3) :
    packSteps bs (fuel + 1) p (bs.drop p) heads =
      .literal (byteAt bs p) :: packSteps bs fuel (p + 1) (bs.drop (p + 1)) heads := by
  have hn := hash3_drop_none h3
  rw [drop_eq_byteAt_cons hp] at hn ⊢
  rw [packSteps, hn]

theorem packSteps_fresh (h3 : p + 3 ≤ bs.length) (hc : heads.lookup (hashAt bs p) = none) :
    packSteps bs (fuel + 1) p (bs.drop p) heads =
      .literal (byteAt bs p) :: packSteps bs fuel (p + 1) (bs.drop (p + 1)) ((hashAt bs p, p) :: heads) := by
  have hs := hash3_drop_some h3
  rw [drop_eq_byteAt_cons (p := p) (by omega)] at hs ⊢
  rw [packSteps, hs]
  dsimp only
  rw [hc]

theorem packSteps_found (h3 : p + 3 ≤ bs.length) (hc : heads.lookup (hashAt bs p) = some c)
    (hn : n = min 130 (commonPrefix (bs.drop c) (bs.drop p))) :
    packSteps bs (fuel + 1) p (bs.drop p) heads =
      if 3 ≤ n then
        .copy (p - c) n :: packSteps bs fuel (p + n) (bs.drop (p + n))
          (storeHeads (n - 1) (p + 1) (bs.drop (p + 1)) ((hashAt bs p, p) :: heads))
      else
        .literal (byteAt bs p) :: packSteps bs fuel (p + 1) (bs.drop (p + 1)) ((hashAt bs p, p) :: heads) := by
  subst hn
  have hs := hash3_drop_some h3
  rw [← List.drop_drop]
  rw [drop_eq_byteAt_cons (p := p) (by omega)] at hs ⊢
  rw [packSteps, hs]
  dsimp only
  rw [hc]

end

/-- The steps of R27 emit the items of R27, by induction on the fuel: the head table is kept at each store. -/
theorem spells_packSteps {fuel : Nat} (hp : p ≤ bs.length) (hf : bs.length ≤ p + fuel) (H : HeadsAt bs p heads) :
    Spells bs p (packSteps bs fuel p (bs.drop p) heads) := by
  induction fuel generalizing p heads with
  | zero =>
    have hf : bs.length ≤ p := hf
    rw [packSteps_end hf]
    exact Nat.le_antisymm hp hf
  | succ fuel ih =>
    obtain hlt | rfl := Nat.lt_or_eq_of_le hp
    case inr =>
      rw [packSteps_end le_rfl]
      rfl
    by_cases h3 : bs.length < p + 3
    · rw [packSteps_unhashed hlt h3]
      exact spells_literal (.fresh hlt fun q hq => absurd hq.2.1 (by omega)) (ih hlt (by omega) (headsAt_short h3 H))
    have h3 : p + 3 ≤ bs.length := by omega
    have H' := headsAt_store h3 H
    cases hc : heads.lookup (hashAt bs p) with
    | none =>
      rw [packSteps_fresh h3 hc]
      exact spells_literal (.fresh hlt fun q hq => H.fresh _ hc q ((stored_hashAt_iff h3).2 hq)) (ih hlt (by omega) H')
    | some c =>
      obtain ⟨stored, max⟩ := H.latest _ _ hc
      have late : Latest bs p c :=
        ⟨(stored_hashAt_iff h3).1 stored, fun q hq => max q ((stored_hashAt_iff h3).2 hq)⟩
      obtain ⟨n, hn⟩ : ∃ n, n = min 130 (commonPrefix (bs.drop c) (bs.drop p)) := ⟨_, rfl⟩
      obtain ⟨h130, agree, longest⟩ := agree_of_eq_min hn late.1.1.le hp
      rw [packSteps_found h3 hc hn]
      split
      · next hn3 =>
        have H'' := headsAt_storeHeads (k := n - 1) H'
        rw [show p + 1 + (n - 1) = p + n by omega] at H''
        exact spells_copy (.copied late hn3 h130 agree longest) (ih agree.1 (by omega) H'')
      · next hn3 =>
        refine spells_literal (.differs late fun agree3 => ?_) (ih hlt (by omega) H')
        have := (le_commonPrefix_drop_iff late.1.1.le hp).2 agree3
        omega

theorem spells_packItems (bs : List Byte) : Spells bs 0 (packItems bs) :=
  spells_packSteps (Nat.zero_le _) (Nat.zero_add _).ge headsAt_nil

theorem sum_of_spells (h : Spells bs p items) : p + (items.map covers).sum = bs.length := by
  induction items generalizing p with
  | nil => exact h
  | cons it items ih =>
    rw [List.map_cons, List.sum_cons, ← Nat.add_assoc]
    exact ih h.2

theorem emits_of_spells {front back : List Item} (h : Spells bs p (front ++ it :: back)) :
    Emits bs (p + (front.map covers).sum) it := by
  induction front generalizing p with
  | nil => exact h.1
  | cons x front ih =>
    rw [List.map_cons, List.sum_cons, ← Nat.add_assoc]
    exact ih h.2

theorem emits_of_fresh (h : Emits bs p it) (hn : ∀ q, ¬ Earlier bs p q) : it = .literal (byteAt bs p) := by
  cases h with
  | fresh _ _ => rfl
  | differs hq _ => rfl
  | copied hq _ _ _ _ => exact absurd hq.1 (hn _)

theorem emits_of_differs (h : Emits bs p it) (hq : Latest bs p q) (hd : ¬ Agree bs q p 3) :
    it = .literal (byteAt bs p) := by
  cases h with
  | fresh _ _ => rfl
  | differs _ _ => rfl
  | copied hq' h3 _ agree _ =>
    obtain rfl := latest_unique hq hq'
    exact absurd (agree_mono agree h3) hd

theorem emits_of_agree (h : Emits bs p it) (hq : Latest bs p q) (ha : Agree bs q p 3) :
    ∃ n, it = .copy (p - q) n ∧ 3 ≤ n ∧ n ≤ 130 ∧ Agree bs q p n ∧ (n = 130 ∨ ¬ Agree bs q p (n + 1)) := by
  cases h with
  | fresh _ hn => exact absurd hq.1 (hn q)
  | differs hq' hd =>
    obtain rfl := latest_unique hq hq'
    exact absurd ha hd
  | copied hq' h3 h130 agree longest =>
    obtain rfl := latest_unique hq hq'
    exact ⟨_, rfl, h3, h130, agree, longest⟩

/-! ## The coded form (R28) -/

variable {run : List Byte}

theorem be_one (n : Nat) : be 1 n = [BitVec.ofNat 8 n] := by simp [be]

theorem codeRun_of_pos (h : 1 ≤ run.length) : codeRun run = be 1 (run.length - 1) ++ run := by
  rw [codeRun, if_neg (List.ne_nil_of_length_pos h), be_one]
  rfl

theorem codeItems_copy (d n : Nat) (items : List Item) :
    codeItems (.copy d n :: items) run = codeRun run ++ codeItems (.copy d n :: items) [] := by
  simp [codeItems, codeRun]

/-- Fewer than 128 literals join the run in progress. -/
theorem codeItems_literals (acc : List Byte) (h : acc.length + run.length < 128) :
    codeItems (run.map .literal ++ items) acc = codeItems items (acc ++ run) := by
  induction run generalizing acc with
  | nil => simp
  | cons b run ih =>
    rw [List.length_cons] at h
    rw [List.map_cons, List.cons_append, codeItems, if_neg (by omega), ih _ (by simp; omega), List.append_assoc]
    rfl

/-- A run is ended by its 128th literal, a copy, or the end of the chunk. -/
theorem codeItems_run (h : run.length ≤ 128)
    (he : run.length = 128 ∨ items = [] ∨ ∃ d n more, items = .copy d n :: more) :
    codeItems (run.map .literal ++ items) [] = codeRun run ++ codeItems items [] := by
  by_cases full : run.length = 128
  · obtain ⟨init, b, rfl⟩ := List.eq_nil_or_concat' run |>.resolve_left (by rintro rfl; cases full)
    have hi : init.length = 127 := by simpa using full
    rw [List.map_append, List.append_assoc, codeItems_literals [] (by simp [hi])]
    simp [codeItems, hi]
  · rw [codeItems_literals [] (by simp; omega)]
    obtain rfl | ⟨d, n, more, rfl⟩ := he.resolve_left full
    · simp [codeItems, codeRun]
    · exact codeItems_copy d n more

/-! ## Decoding (R34) -/

/-- Decoding of the bytes that remain, `out` being the bytes decoded so far. -/
def decode (raw : Nat) (bs out : List Byte) : Option (List Byte) := unpack raw bs.length bs out

variable {raw : Nat} {out : List Byte} {lead hi lo : Byte}

theorem unpack_run {f : Nat} (hl : lead.toNat < 128) : unpack raw (f + 1) (lead :: rest) out =
    if rest.length < lead.toNat + 1 ∨ raw < out.length + (lead.toNat + 1) then none
    else unpack raw f (rest.drop (lead.toNat + 1)) (out ++ rest.take (lead.toNat + 1)) := by
  rw [unpack.eq_def]
  exact if_pos hl

theorem unpack_copy {f : Nat} (hl : ¬ lead.toNat < 128) : unpack raw (f + 1) (lead :: hi :: lo :: rest) out =
    if hi.toNat * 256 + lo.toNat = 0 ∨ out.length < hi.toNat * 256 + lo.toNat ∨ raw < out.length + (lead.toNat - 125)
    then none
    else unpack raw f rest (copyBack (lead.toNat - 125) (hi.toNat * 256 + lo.toNat) out) := by
  rw [unpack.eq_def]
  exact if_neg hl

theorem unpack_copy_short {f : Nat} (hl : ¬ lead.toNat < 128) (hr : rest.length < 2) :
    unpack raw (f + 1) (lead :: rest) out = none := by
  rw [unpack.eq_def]
  dsimp only
  rw [if_neg hl]
  match rest, hr with
  | [], _ => rfl
  | [_], _ => rfl
  | _ :: _ :: _, hr => exact absurd hr (by simp)

/-- Fuel for every byte is enough. -/
theorem unpack_fuel {f g : Nat} (hf : bs.length ≤ f) (hg : bs.length ≤ g) :
    unpack raw f bs out = unpack raw g bs out := by
  induction f generalizing g bs out with
  | zero =>
    obtain rfl := List.eq_nil_of_length_eq_zero (Nat.le_zero.1 hf)
    cases g <;> rfl
  | succ f ih =>
    match g, bs with
    | 0, [] => rfl
    | _ + 1, [] => rfl
    | 0, _ :: _ => exact absurd hg (by simp)
    | g + 1, lead :: rest =>
      rw [List.length_cons] at hf hg
      by_cases hl : lead.toNat < 128
      · rw [unpack_run hl, unpack_run hl, ih (g := g)] <;> (rw [List.length_drop]; omega)
      by_cases hr : rest.length < 2
      · rw [unpack_copy_short hl hr, unpack_copy_short hl hr]
      match rest, hr with
      | [], hr => exact absurd (by simp) hr
      | [_], hr => exact absurd (by simp) hr
      | hi :: lo :: rest', _ =>
        simp only [List.length_cons] at hf hg
        rw [unpack_copy hl, unpack_copy hl, ih (g := g)] <;> omega

theorem decode_nil : decode raw [] out = if out.length < raw then none else some out := rfl

theorem decode_run (hl : lead.toNat < 128) : decode raw (lead :: rest) out =
    if rest.length < lead.toNat + 1 ∨ raw < out.length + (lead.toNat + 1) then none
    else decode raw (rest.drop (lead.toNat + 1)) (out ++ rest.take (lead.toNat + 1)) :=
  (unpack_run hl).trans (if_congr Iff.rfl rfl (unpack_fuel (by simp) le_rfl))

theorem decode_copy_short (hl : ¬ lead.toNat < 128) (hr : rest.length < 2) : decode raw (lead :: rest) out = none :=
  unpack_copy_short hl hr

theorem decode_copy (hl : ¬ lead.toNat < 128) : decode raw (lead :: hi :: lo :: rest) out =
    if hi.toNat * 256 + lo.toNat = 0 ∨ out.length < hi.toNat * 256 + lo.toNat ∨ raw < out.length + (lead.toNat - 125)
    then none
    else decode raw rest (copyBack (lead.toNat - 125) (hi.toNat * 256 + lo.toNat) out) :=
  (unpack_copy hl).trans (if_congr Iff.rfl rfl (unpack_fuel (Nat.le_add_right _ 2) le_rfl))

@[simp] theorem length_copyBack (d : Nat) : (copyBack n d out).length = out.length + n := by
  induction n generalizing out with
  | zero => rfl
  | succ n ih => rw [copyBack, ih, List.length_append, List.length_singleton]; omega

/-- A copy appends to what is decoded. -/
theorem copyBack_eq_append (n d : Nat) (out : List Byte) : ∃ more, copyBack n d out = out ++ more := by
  induction n generalizing out with
  | zero => exact ⟨[], (List.append_nil _).symm⟩
  | succ n ih =>
    obtain ⟨more, h⟩ := ih (out ++ [out.getD (out.length - d) 0])
    exact ⟨_, h.trans (List.append_assoc _ _ _)⟩

theorem take_copyBack (n d : Nat) (out : List Byte) : (copyBack n d out).take out.length = out := by
  obtain ⟨more, h⟩ := copyBack_eq_append n d out
  rw [h, List.take_left]

theorem getD_copyBack_of_lt (n d : Nat) {i : Nat} (hi : i < out.length) :
    (copyBack n d out).getD i 0 = out.getD i 0 := by
  obtain ⟨more, h⟩ := copyBack_eq_append n d out
  rw [h, List.getD_append _ _ _ _ hi]

/-- Each byte that a copy appends is the one its distance before. -/
theorem getD_copyBack {d j : Nat} (h1 : 1 ≤ d) (hd : d ≤ out.length) (hj : j < n) :
    (copyBack n d out).getD (out.length + j) 0 = (copyBack n d out).getD (out.length + j - d) 0 := by
  induction n generalizing out j with
  | zero => exact absurd hj (Nat.not_lt_zero _)
  | succ n ih =>
    rw [copyBack]
    cases j with
    | zero =>
      rw [Nat.add_zero, getD_copyBack_of_lt n d (by simp), getD_copyBack_of_lt n d (by simp),
        List.getD_append_right _ _ _ _ le_rfl, List.getD_append _ _ _ _ (by omega), Nat.sub_self]
      rfl
    | succ j =>
      have := ih (out := out ++ [out.getD (out.length - d) 0]) (j := j) (by simp; omega) (by omega)
      rwa [List.length_append, List.length_singleton, Nat.add_assoc, Nat.add_comm 1] at this

/-! ## The round trip (R24 to R28, R33 to R35) -/

/-- A copy of bytes that agree grows the decoded bytes by the next ones of the chunk. -/
theorem copyBack_take {d : Nat} (h1 : 1 ≤ d) (hd : d ≤ p) (h : Agree bs (p - d) p n) :
    copyBack n d (bs.take p) = bs.take (p + n) := by
  induction n generalizing p with
  | zero => rfl
  | succ n ih =>
    have hl : p + (n + 1) ≤ bs.length := h.1
    have next : (bs.take p).getD ((bs.take p).length - d) 0 = byteAt bs p := by
      rw [List.length_take, Nat.min_eq_left (by omega), getD_take (by omega)]
      exact h.2 0 (by omega)
    rw [copyBack, next, take_append_byteAt (by omega), ih (by omega), Nat.add_right_comm, Nat.add_assoc]
    refine ⟨by omega, fun j hj => ?_⟩
    have := h.2 (j + 1) (by omega)
    rwa [show p + 1 - d + j = p - d + (j + 1) by omega, show p + 1 + j = p + (j + 1) by omega]

theorem decode_codeRun (hr : run.length ≤ 128) (ho : out.length + run.length ≤ raw) :
    decode raw (codeRun run ++ rest) out = decode raw rest (out ++ run) := by
  by_cases hn : run = []
  · subst hn
    rw [List.append_nil]
    rfl
  · have pos := List.length_pos_of_ne_nil hn
    have lead : (BitVec.ofNat 8 (run.length - 1)).toNat + 1 = run.length := by
      rw [BitVec.toNat_ofNat]
      omega
    rw [codeRun_of_pos pos, be_one, List.append_assoc, List.singleton_append, decode_run (by omega), lead,
      if_neg (by rw [List.length_append]; omega), List.drop_left, List.take_left]

theorem decode_codeCopy {d : Nat} (h1 : 1 ≤ d) (hd : d ≤ out.length) (hb : d < 65536) (h3 : 3 ≤ n) (h130 : n ≤ 130)
    (ho : out.length + n ≤ raw) :
    decode raw (codeItems (.copy d n :: items) []) out = decode raw (codeItems items []) (copyBack n d out) := by
  have lead : (BitVec.ofNat 8 (128 + (n - 3))).toNat = n + 125 := by
    rw [BitVec.toNat_ofNat]
    omega
  have distance : (BitVec.ofNat 8 (d / 256 ^ 1)).toNat * 256 + (BitVec.ofNat 8 (d / 256 ^ 0)).toNat = d := by
    simp only [BitVec.toNat_ofNat]
    omega
  have form : codeItems (.copy d n :: items) [] = BitVec.ofNat 8 (128 + (n - 3)) ::
      BitVec.ofNat 8 (d / 256 ^ 1) :: BitVec.ofNat 8 (d / 256 ^ 0) :: codeItems items [] := rfl
  rw [form, decode_copy (by omega), distance, lead, Nat.add_sub_cancel, if_neg (by omega)]

theorem length_add_of_append_eq_take (ho : out ++ run = bs.take p) (hp : p ≤ bs.length) :
    out.length + run.length = p := by
  rw [← List.length_append, ho, List.length_take, Nat.min_eq_left hp]

/-- The coded form of items of R27 decodes to the chunk, by induction on the items; `run` is the run in progress. -/
theorem decode_codeItems (hb : bs.length ≤ 65536) (h : Spells bs p items) (ho : out ++ run = bs.take p)
    (hr : run.length < 128) (hp : p ≤ bs.length) : decode bs.length (codeItems items run) out = some bs := by
  induction items generalizing p run out with
  | nil =>
    have room := length_add_of_append_eq_take ho hp
    obtain rfl : p = bs.length := h
    have := decode_codeRun (rest := []) (raw := bs.length) hr.le room.le
    rw [codeItems, ← List.append_nil (codeRun run), this, ho, List.take_length, decode_nil, if_neg (lt_irrefl _)]
  | cons it items ih =>
    obtain ⟨emits, spells⟩ := h
    have hlt := emits_lt emits
    have room := length_add_of_append_eq_take ho hp
    cases it with
    | literal b =>
      obtain rfl := emits_literal emits
      have ho' : out ++ (run ++ [byteAt bs p]) = bs.take (p + 1) := by
        rw [← List.append_assoc, ho, take_append_byteAt hlt]
      rw [codeItems]
      split
      · rw [decode_codeRun (by simp; omega) (by simp; omega)]
        exact ih spells (by rw [List.append_nil, ho']; rfl) (by simp) hlt
      · exact ih spells ho' (by simp; omega) hlt
    | copy d n =>
      obtain ⟨h1, hd, h3, h130, agree⟩ := emits_copy emits
      have hl : p + n ≤ bs.length := agree.1
      have length : (bs.take p).length = p := by rw [List.length_take, Nat.min_eq_left hp]
      rw [codeItems_copy, decode_codeRun hr.le (by omega), ho,
        decode_codeCopy h1 (by omega) (by omega) h3 h130 (by omega), copyBack_take h1 hd agree]
      exact ih spells (List.append_nil _) (by simp) hl

/-- Packing loses nothing. -/
theorem decode_pack (hb : bs.length ≤ 65536) : decode bs.length (pack bs) [] = some bs :=
  decode_codeItems hb (spells_packItems bs) rfl (by simp) (Nat.zero_le _)

theorem length_pack_pos (h1 : 1 ≤ bs.length) (hb : bs.length ≤ 65536) : 1 ≤ (pack bs).length := by
  refine List.length_pos_iff.2 fun e => ?_
  have := decode_pack hb
  rw [e, decode_nil, if_pos (show [].length < bs.length from h1)] at this
  cases this

/-! ## The record of an entry (R24, R30) -/

variable {e : Entry} {attempt : Bool}

theorem formRecord_packed (he : e.raw = some bs) (hp : attempt = true ∧ (pack bs).length < bs.length) :
    formRecord e attempt = { stream := e.stream, method := .packed, rawLength := bs.length, seq := e.seq,
                             digest := crc32 bs, mark := e.mark, payload := pack bs } := by
  rw [formRecord, he]
  exact if_pos hp

theorem formRecord_stored (he : e.raw = some bs) (hp : ¬ (attempt = true ∧ (pack bs).length < bs.length)) :
    formRecord e attempt = { stream := e.stream, method := .stored, rawLength := bs.length, seq := e.seq,
                             digest := crc32 bs, mark := e.mark, payload := bs } := by
  rw [formRecord, he]
  exact if_neg hp

/-- A record as the walk of R150 finds it in its block. -/
def walked (r : Record) : WalkedRecord :=
  { stream := r.stream, method := r.method.code, rawLength := r.rawLength, codedLength := r.payload.length,
    seq := r.seq, digest := r.digest, payload := r.payload }

theorem expand_good {r : WalkedRecord} (hr : rawBytes r = some bs) (hd : crc32 bs = r.digest) :
    expand r = .good bs := by
  rw [expand, hr]
  exact if_pos hd

theorem rawBytes_stored {r : WalkedRecord} (hm : r.method = 1) : rawBytes r =
    if 1 ≤ r.rawLength ∧ r.rawLength ≤ 4096 ∧ r.codedLength = r.rawLength then some r.payload else none := by
  rw [rawBytes, if_neg (by omega), if_pos hm]

theorem rawBytes_packed {r : WalkedRecord} (hm : r.method = 2) : rawBytes r =
    if 1 ≤ r.codedLength ∧ r.codedLength < r.rawLength ∧ r.rawLength ≤ 4096 then
      decode r.rawLength r.payload [] else none := by
  rw [rawBytes, if_neg (by omega), if_neg (by omega), if_pos hm]
  exact if_congr (by omega) rfl rfl

/-- The record of a chunk expands GOOD to the chunk, packed or stored. -/
theorem expand_walked_formRecord (he : e.raw = some bs) (h1 : 1 ≤ bs.length) (hb : bs.length ≤ 4096) :
    (formRecord e attempt).payload.length ≤ bs.length ∧ expand (walked (formRecord e attempt)) = .good bs := by
  by_cases hp : attempt = true ∧ (pack bs).length < bs.length
  · rw [formRecord_packed he hp]
    refine ⟨hp.2.le, expand_good ((rawBytes_packed rfl).trans ?_) rfl⟩
    exact (if_pos ⟨length_pack_pos h1 (by omega), hp.2, hb⟩).trans (decode_pack (by omega))
  · rw [formRecord_stored he hp]
    exact ⟨le_rfl, expand_good ((rawBytes_stored rfl).trans (if_pos ⟨h1, hb, rfl⟩)) rfl⟩

end Sys2Proof.Machine.Packing

namespace Sys2Proof.Proofs

open Sys2Proof Sys2Proof.Machine Sys2Proof.Machine.Packing

/-- The clauses on the items of a chunk: each item is what R27 emits at its position. -/
theorem packItems_clauses (bs : List Byte) :
    ((packItems bs).map covers).sum = bs.length ∧
    ∀ front it back, packItems bs = front ++ it :: back →
      let p := (front.map covers).sum
      p < bs.length ∧
      ((∀ q, ¬ Earlier bs p q) → it = .literal (byteAt bs p)) ∧
      (∀ q, Latest bs p q → ¬ Agree bs q p 3 → it = .literal (byteAt bs p)) ∧
      (∀ q, Latest bs p q → Agree bs q p 3 → ∃ n, it = .copy (p - q) n ∧ 3 ≤ n ∧ n ≤ 130 ∧ Agree bs q p n ∧
        (n = 130 ∨ ¬ Agree bs q p (n + 1))) := by
  have spells := spells_packItems bs
  refine ⟨(Nat.zero_add _).symm.trans (sum_of_spells spells), fun front it back split => ?_⟩
  rw [split] at spells
  have emits := emits_of_spells spells
  rw [Nat.zero_add] at emits
  exact ⟨emits_lt emits, emits_of_fresh emits, fun _ => emits_of_differs emits, fun _ => emits_of_agree emits⟩

/-- Settles O32: the items by induction on the steps of R27, the coded form by its runs, decoding by its equations, and
the round trip by induction on the items. -/
theorem recordsExpandToTheirBytes : Obligations.RecordsExpandToTheirBytes := by
  refine ⟨fun e bs attempt he h1 hb => expand_walked_formRecord he h1 hb, fun bs => ?_,
    fun bs run d n rest => ⟨rfl, rfl, ?_, fun h1 h128 he => ?_⟩, fun raw lead hi lo rest out => ⟨?_, ?_, ?_, ?_⟩⟩
  · have covers_eq : covers = fun it => match it with
      | .literal _ => 1
      | .copy _ n => n := by
      funext it
      cases it <;> rfl
    have := packItems_clauses bs
    rw [covers_eq] at this
    exact this
  · rw [be_one]
    rfl
  · rw [codeItems_run h128 he, codeRun_of_pos h1]
  · exact fun h => if_pos h
  · exact fun h => if_neg (Nat.not_lt.2 h)
  · exact fun hl => ⟨fun h => (decode_run hl).trans (if_pos h), fun hk hr => (decode_run hl).trans (if_neg (by omega))⟩
  · intro hl n d
    have hl := Nat.not_lt.2 hl
    refine ⟨decode_copy_short hl, fun h => (decode_copy hl).trans (if_pos h), fun h1 hd hn => ?_⟩
    exact ⟨copyBack n d out, (decode_copy hl).trans (if_neg (by omega)), length_copyBack d,
      take_copyBack n d out, fun j hj => getD_copyBack h1 hd hj⟩

end Sys2Proof.Proofs
end

section
/-! PROOFS. Assembly: the compressor's take and completion, placing a record, sealing (R12, R19 to R25, R46 to R51). -/

namespace Sys2Proof.Machine

variable {n : LaneId} {s : State} {e : Entry} {b : OpenBlock} {r : Record}

/-- A command from outside: its own effect on the settled state, then the arbiter's choice (log entry 2). -/
theorem outside_congr {f : State → State} {t : State} (e : f (settle s) = t) :
    (Host.Outcome.next (outside f s) : Out) = .next (choose t) := by
  rw [outside, e]

/-! ## Conditions -/

theorem openRoom_iff (i : StreamId) (n : LaneId) (s : State) : openRoom i n s = true ↔
    ∃ b, s.asm[n].openBlock = some b ∧ (b.records.map Record.size).sum + 4112 ≤ 65504 ∧
      ((∃ x ∈ b.runs, x.stream = i) ∨ b.runs.length < 8) := by
  rw [openRoom]
  cases s.asm[n].openBlock with
  | none => simp
  | some b => simp [OpenBlock.fill, Config.largestRecord, Config.payloadBytes]

theorem newRoom_iff (n : LaneId) (s : State) :
    newRoom n s = true ↔ s.pool.held.assembly[n] + 16 ≤ s.pool.quotas.assembly[n] := decide_eq_true_iff

theorem eligible_eq_false (ho : openRoom e.stream s.streams[e.stream].lane s ≠ true)
    (hn : newRoom s.streams[e.stream].lane s ≠ true) : eligible e s = false := by
  rw [eligible, Bool.eq_false_iff.2 ho, Bool.eq_false_iff.2 hn]
  rfl

theorem eligible_of_room (h : openRoom e.stream s.streams[e.stream].lane s = true ∨
    newRoom s.streams[e.stream].lane s = true) : eligible e s = true := by
  rwa [eligible, Bool.or_eq_true]

theorem reservedOpen_iff (n : LaneId) (s : State) : reservedOpen n s = true ↔
    ∃ t, s.cmp.engine = some t ∧ t.reservation = .openRoom ∧ s.streams[t.entry.stream].lane = n := by
  rw [reservedOpen]
  cases s.cmp.engine with
  | none => simp
  | some t => simp

/-! ## The take (R19 to R21) -/

section
variable {front rest : List Entry}

theorem takeEligible_none (h : ∀ x ∈ rest, eligible x s = false) : takeEligible s rest = none := by
  induction rest with
  | nil => rfl
  | cons x rest ih =>
    rw [takeEligible, h x List.mem_cons_self, ih fun y hy => h y (List.mem_cons_of_mem _ hy)]
    rfl

theorem takeEligible_first (h : ∀ x ∈ front, eligible x s = false) (he : eligible e s = true) :
    takeEligible s (front ++ e :: rest) = some (e, front ++ rest) := by
  induction front with
  | nil => exact if_pos he
  | cons x front ih =>
    rw [List.cons_append, takeEligible, h x List.mem_cons_self, ih fun y hy => h y (List.mem_cons_of_mem _ hy)]
    rfl

theorem compressorTake_busy (h : s.cmp.engine ≠ none) : compressorTake s = s := by
  obtain ⟨t, ht⟩ := Option.ne_none_iff_exists'.1 h
  rw [compressorTake, ht]

theorem compressorTake_none (h : ∀ x ∈ s.cmp.ready, eligible x s = false) : compressorTake s = s := by
  cases ht : s.cmp.engine with
  | none => rw [compressorTake, ht, takeEligible_none h]
  | some t => exact compressorTake_busy (by simp [ht])

/-- The first eligible entry is taken, with an open block's room rather than a new block's (R21). -/
theorem compressorTake_first (hi : s.cmp.engine = none) (hr : s.cmp.ready = front ++ e :: rest)
    (h : ∀ x ∈ front, eligible x s = false) (he : eligible e s = true) :
    let room : Reservation := if openRoom e.stream s.streams[e.stream].lane s = true then .openRoom else .newRoom
    compressorTake s =
      { s with cmp := { ready := front ++ rest, engine := some { entry := e, reservation := room } } } := by
  rw [compressorTake, hi, hr, takeEligible_first h he]
  rfl

end

/-! ## Completion (R12, R22) -/

/-- What follows a completed entry of a stream: the deferred seal, the engine's test, the stream's checks. -/
def afterEntry (i : StreamId) (n : LaneId) (s : State) : State :=
  checkComplete i (checkResume i (engineIdle (deferredSeal n s)))

/-- The ingest pages of an entry: its chunk's page, none for an end entry. -/
def entryPages (e : Entry) : Nat := if e.raw.isSome = true then 1 else 0

theorem compressionComplete_idle (h : s.cmp.engine = none) : compressionComplete s = s := by
  rw [compressionComplete, h]

section
variable {t : Taken}

theorem compressionComplete_aborted (h : s.cmp.engine = some t) (ha : s.streams[t.entry.stream].state = .aborted) :
    compressionComplete s = afterEntry t.entry.stream s.streams[t.entry.stream].lane (freeIngest (entryPages t.entry)
      (modStream t.entry.stream (fun st => { st with staged := st.staged - 1 }) s)) := by
  rw [compressionComplete, h]
  dsimp only
  rw [if_pos ha]
  rfl

theorem compressionComplete_record (h : s.cmp.engine = some t) (ha : s.streams[t.entry.stream].state ≠ .aborted) :
    compressionComplete s =
      let st := s.streams[t.entry.stream]
      let record := formRecord t.entry (packingTried st)
      afterEntry t.entry.stream st.lane (placeRecord st.lane record (freeIngest (entryPages t.entry)
        (modStream t.entry.stream (fun st => { methodCounts t.entry record.method st with
          staged := st.staged - 1, uncommitted := st.uncommitted + 1 }) s))) := by
  rw [compressionComplete, h]
  dsimp only
  rw [if_neg ha]
  rfl

end

/-! ## The method counts (R25) -/

section
variable {m : Method} {st : Stream}

theorem methodCounts_raw (h : st.cls = .raw) : methodCounts e m st = st := if_pos (.inr h)

/-- The counts of a chunk of a PACK stream. -/
theorem methodCounts_pack (he : e.raw ≠ none) (h : st.cls = .pack) : methodCounts e m st =
    if 0 < st.skip then { st with skip := st.skip - 1 }
    else if m = .packed then { st with storedRun := 0 }
    else if st.storedRun + 1 = 8 then { st with storedRun := 0, skip := 64 }
    else { st with storedRun := st.storedRun + 1 } :=
  if_neg (by simp [he, h])

end

/-! ## Sealing (R48, R50, R51) -/

section
variable {cause c : SealCause}

theorem sealOpen_none (h : s.asm[n].openBlock = none) : sealOpen n cause s = s := by
  rw [sealOpen, h]

theorem sealOpen_some (h : s.asm[n].openBlock = some b) : sealOpen n cause s =
    postFirst (.holdResume n) (postFirst (.writeStart n) (writeClaim n (post .compressorTake
      (modAsm n (fun a => { openBlock := none,
                            sealedQueue := a.sealedQueue ++
                              [{ records := b.records, runs := b.runs, cause := cause }] }) s)))) := by
  rw [sealOpen, h]

theorem deferredSeal_none (h : ∀ b, s.asm[n].openBlock = some b → b.deferred = none) : deferredSeal n s = s := by
  rw [deferredSeal]
  cases hb : s.asm[n].openBlock with
  | none => rfl
  | some b =>
    dsimp only
    rw [h b hb]

theorem deferredSeal_some (h : s.asm[n].openBlock = some b) (hc : b.deferred = some c) :
    deferredSeal n s = sealOpen n c s := by
  rw [deferredSeal, h]
  dsimp only
  rw [hc]

theorem mergeSeal_eq (d : Option SealCause) (c : SealCause) : mergeSeal d c = if d = some .mark then .mark else c := by
  match d with
  | none => rfl
  | some .mark => rfl
  | some .full => rfl
  | some .streamLimit => rfl
  | some .age => rfl

theorem modAsm_congr {f g : Assembly → Assembly} (h : f s.asm[n] = g s.asm[n]) : modAsm n f s = modAsm n g s := by
  rw [modAsm, modAsm, upd_congr _ _ f g h]

theorem upd_id {α : Type} {k : Nat} (v : Vector α k) (i : Fin k) : upd v i id = v := by
  simp [upd]

theorem modAsm_id : modAsm n id s = s := by
  rw [modAsm, upd_id]

theorem askSeal_free (h : ¬ reservedOpen n s = true) : askSeal n cause s = sealOpen n cause s := if_neg h

theorem askSeal_nothing (h : reservedOpen n s = true) (hb : s.asm[n].openBlock = none) : askSeal n cause s = s := by
  rw [askSeal, if_pos h]
  exact (modAsm_congr (by rw [hb, Option.map_none, ← hb]; rfl)).trans modAsm_id

theorem askSeal_deferred (h : reservedOpen n s = true) (hb : s.asm[n].openBlock = some b) :
    askSeal n cause s = modAsm n (fun a => { a with openBlock := some { b with
      deferred := some (if b.deferred = some .mark then .mark else cause) } }) s := by
  rw [askSeal, if_pos h, ← mergeSeal_eq]
  exact modAsm_congr (by rw [hb]; rfl)

theorem sealAge_none (hb : s.asm[n].openBlock = none) : sealAge n s = s := by
  rw [sealAge, ageReached, hb]
  rfl

theorem sealAge_some (hb : s.asm[n].openBlock = some b) : sealAge n s =
    if s.settings.sealAge * 100 ≤ (s.ttu.time - b.openedAt).toNat then askSeal n .age s else s := by
  rw [sealAge, ageReached, hb]
  exact if_congr decide_eq_true_iff rfl rfl

end

/-! ## Placing (R46, R47, R49, R78) -/

/-- A record that stands in its lane's open block is counted, and seals the block if it is marked (R49, R78). -/
def afterPlacing (n : LaneId) (r : Record) (s : State) : State :=
  if r.mark = .none then countInflow n r.size s else sealOpen n .mark (countInflow n r.size s)

theorem fitsSize_false_iff (b : OpenBlock) (r : Record) : b.fitsSize r = false ↔
    65504 < (b.records.map Record.size).sum + (16 + r.payload.length) :=
  decide_eq_false_iff_not.trans Nat.not_le

theorem fitsStream_iff (b : OpenBlock) (r : Record) : b.fitsStream r = true ↔
    (∃ x ∈ b.runs, x.stream = r.stream) ∨ b.runs.length < 8 := by
  simp [OpenBlock.fitsStream]

theorem addRun_listed {runs : List Run} (h : ∃ x ∈ runs, x.stream = r.stream) : addRun r runs =
    runs.map fun x => if x.stream = r.stream then { x with last := r.seq, count := x.count + 1 } else x :=
  if_pos (by simpa using h)

theorem addRun_unlisted {runs : List Run} (h : ¬ ∃ x ∈ runs, x.stream = r.stream) :
    addRun r runs = runs ++ [{ stream := r.stream, first := r.seq, last := r.seq, count := 1 }] :=
  if_neg (by simpa using h)

theorem placeRecord_opens (h : s.asm[n].openBlock = none) :
    placeRecord n r s = afterPlacing n r (openWith n r s) := by
  rw [placeRecord, h]
  rfl

theorem placeRecord_full (h : s.asm[n].openBlock = some b) (hf : b.fitsSize r = false) :
    placeRecord n r s = afterPlacing n r (openWith n r (sealOpen n .full s)) := by
  rw [placeRecord, h]
  dsimp only
  rw [if_pos hf]
  rfl

theorem placeRecord_streamLimit (h : s.asm[n].openBlock = some b) (hf : ¬ b.fitsSize r = false)
    (hs : b.fitsStream r = false) :
    placeRecord n r s = afterPlacing n r (openWith n r (sealOpen n .streamLimit s)) := by
  rw [placeRecord, h]
  dsimp only
  rw [if_neg hf, if_pos hs]
  rfl

theorem placeRecord_joins (h : s.asm[n].openBlock = some b) (hf : ¬ b.fitsSize r = false) (hs : b.fitsStream r = true) :
    placeRecord n r s = afterPlacing n r (modAsm n (fun a => { a with openBlock := some (b.add r) }) s) := by
  rw [placeRecord, h]
  dsimp only
  rw [if_neg hf, if_neg (c := b.fitsStream r = false) (by simp [hs])]
  rfl

end Sys2Proof.Machine

namespace Sys2Proof.Proofs

open Sys2Proof Sys2Proof.Machine

/-- Settles O28: the take by the first eligible entry, the completion by whether the entry's stream is ABORTED. -/
theorem compressorTakesAndCompletes : Obligations.CompressorTakesAndCompletes := by
  refine ⟨fun s => ?_, fun s => ⟨?_, fun t ht => ⟨?_, ?_⟩⟩⟩
  · intro u done openFits newFits
    have took : ∀ {t}, compressorTake u = t → done t := commanded_congr (d := .compressorTake)
    have fits (e : Entry) : openRoom e.stream u.streams[e.stream].lane u = true ↔ openFits e := openRoom_iff _ _ _
    have opens (e : Entry) : newRoom u.streams[e.stream].lane u = true ↔ newFits e := newRoom_iff _ _
    have waits (e : Entry) (h : ¬ openFits e ∧ ¬ newFits e) : eligible e u = false :=
      eligible_eq_false (mt (fits e).1 h.1) (mt (opens e).1 h.2)
    refine ⟨fun busy => took (compressorTake_busy busy), fun unfit =>
      took (compressorTake_none fun e he => waits e (unfit e he)), fun front e rest idle ready before => ?_⟩
    have first := compressorTake_first idle ready fun x hx => waits x (before x hx)
    refine ⟨fun ho => took ?_, fun ho hn => took ?_⟩
    · rw [first (eligible_of_room (.inl ((fits e).2 ho))), if_pos ((fits e).2 ho)]
    · rw [first (eligible_of_room (.inr ((opens e).2 hn))), if_neg (mt (fits e).1 ho)]
  · exact fun h => outside_congr (compressionComplete_idle h)
  · exact fun h => outside_congr (compressionComplete_aborted ht h)
  · exact fun h => outside_congr (compressionComplete_record ht h)

/-- Settles O29: the record and the counts by method, a placing by whether the record fits, a seal by whether a block
is open and whether it is reserved. -/
theorem recordsPlacedAndSealed : Obligations.RecordsPlacedAndSealed := by
  refine ⟨fun i q m bs attempt method st => ⟨rfl, ?_⟩, fun n r s => ?_, fun n cause s => ?_⟩
  · intro e stored
    have he : e.raw ≠ none := Option.some_ne_none bs
    refine ⟨rfl, methodCounts_raw, fun hc h => ?_, fun hc h hm => ?_, fun hc h hm hr => ?_, fun hc h hm hr => ?_⟩
    all_goals rw [methodCounts_pack he hc]
    · rw [if_pos h]
    · rw [if_neg (by omega), if_pos hm]
    · rw [if_neg (by omega), if_neg hm, if_neg (by omega)]
    · rw [if_neg (by omega), if_neg hm, if_pos (by omega)]
  · refine ⟨placeRecord_opens, fun b hb => ?_⟩
    intro fill listed
    have fits (hf : fill + (16 + r.payload.length) ≤ 65504) : ¬ b.fitsSize r = false :=
      fun h => absurd ((fitsSize_false_iff b r).1 h) (Nat.not_lt.2 hf)
    refine ⟨fun hf => placeRecord_full hb ((fitsSize_false_iff b r).2 hf), fun hf hl h8 => ?_, fun hf hl h8 => ?_,
      fun hf hl => ?_⟩
    · refine placeRecord_streamLimit hb (fits hf) (Bool.eq_false_iff.2 fun h => ?_)
      exact ((fitsStream_iff b r).1 h).elim hl (Nat.not_lt.2 h8)
    · have := placeRecord_joins hb (fits hf) ((fitsStream_iff b r).2 (.inr h8))
      rw [OpenBlock.add, addRun_unlisted hl] at this
      exact this
    · have := placeRecord_joins hb (fits hf) ((fitsStream_iff b r).2 (.inl hl))
      rw [OpenBlock.add, addRun_listed hl] at this
      exact this
  · refine ⟨sealOpen_none, fun b => sealOpen_some, ?_, ?_, deferredSeal_none, fun b c => deferredSeal_some⟩
    · intro u done
      have expired : ∀ {t}, sealAge n u = t → done t := outside_congr
      refine ⟨fun hb => expired (sealAge_none hb), fun b hb => ?_⟩
      intro old reserved
      have reserved_iff : reservedOpen n u = true ↔ reserved := reservedOpen_iff n u
      refine ⟨fun ho => expired ?_, fun ho hr => expired ?_, fun ho hr => expired ?_⟩
      all_goals rw [sealAge_some hb]
      · exact if_neg ho
      · exact (if_pos ho).trans (askSeal_free (mt reserved_iff.1 hr))
      · exact (if_pos ho).trans (askSeal_deferred (reserved_iff.2 hr) hb)
    · intro reserved
      have reserved_iff : reservedOpen n s = true ↔ reserved := reservedOpen_iff n s
      exact ⟨fun hr => askSeal_free (mt reserved_iff.1 hr), fun hr => askSeal_nothing (reserved_iff.2 hr),
        fun b hr => askSeal_deferred (reserved_iff.2 hr)⟩

end Sys2Proof.Proofs
end

section
/-! PROOFS. Expander: its take, the read region's grants, and what becomes of an expansion (R31 to R37, R43, R44). -/

namespace Sys2Proof.Machine

variable {s : State} {c : ReadClient}

/-! ## The take (R31, R32) -/

theorem expanderTake_busy (h : s.exp.engine ≠ none) : expanderTake s = s := by
  obtain ⟨x, hx⟩ := Option.ne_none_iff_exists'.1 h
  rw [expanderTake, hx]

theorem expanderTake_restore {q : ExpandRequest} (hi : s.exp.engine = none) (hq : s.exp.restoreSlot = some q) :
    expanderTake s = { s with exp := { s.exp with
      restoreSlot := none
      engine := some { client := .restore, request := q } } } := by
  rw [expanderTake, hi, hq]
  rfl

theorem expanderTake_verify {n : LaneId} {q : ExpandRequest} (hi : s.exp.engine = none) (hr : s.exp.restoreSlot = none)
    (hn : nextVerify s.exp = some (n, q)) :
    expanderTake s = { s with exp := { s.exp with
      verifySlots := s.exp.verifySlots.set n none
      lastServed := n
      engine := some { client := .verify n, request := q } } } := by
  rw [expanderTake, hi, hr, hn]
  rfl

theorem expanderTake_none (hi : s.exp.engine = none) (hr : s.exp.restoreSlot = none) (hn : nextVerify s.exp = none) :
    expanderTake s = s := by
  rw [expanderTake, hi, hr, hn]

theorem nextVerify_none {e : Expander} (h : ∀ n : LaneId, e.verifySlots[n] = none) : nextVerify e = none :=
  List.findSome?_eq_none_iff.2 fun n _ => by rw [h n]; rfl

/-- The slots in rotation, as distances from the lane served last. -/
theorem nextVerify_eq (e : Expander) : nextVerify e = [1, 2, 3, 4].findSome? fun d =>
    e.verifySlots[e.lastServed + Fin.ofNat 4 d].map fun q => (e.lastServed + Fin.ofNat 4 d, q) := by
  have turn : [e.lastServed + 1, e.lastServed + 2, e.lastServed + 3, e.lastServed] =
      [1, 2, 3, 4].map fun d => e.lastServed + Fin.ofNat 4 d := by
    generalize e.lastServed = n
    revert n
    decide
  rw [nextVerify, turn, List.findSome?_map]
  rfl

/-- The first occupied slot of the rotation. -/
theorem nextVerify_first {e : Expander} {q : ExpandRequest} {d : Nat} (h1 : 1 ≤ d) (h4 : d ≤ 4)
    (before : ∀ d', 1 ≤ d' → d' < d → e.verifySlots[e.lastServed + Fin.ofNat 4 d'] = none)
    (hq : e.verifySlots[e.lastServed + Fin.ofNat 4 d] = some q) :
    nextVerify e = some (e.lastServed + Fin.ofNat 4 d, q) := by
  have split : [1, 2, 3, 4] = List.range' 1 (d - 1) ++ d :: List.range' (d + 1) (4 - d) := by
    interval_cases d <;> rfl
  rw [nextVerify_eq, split, List.findSome?_append, List.findSome?_cons, hq]
  have : (List.range' 1 (d - 1)).findSome? (fun d =>
      e.verifySlots[e.lastServed + Fin.ofNat 4 d].map fun q => (e.lastServed + Fin.ofNat 4 d, q)) = none :=
    List.findSome?_eq_none_iff.2 fun d' hd' => by
      obtain ⟨ge, lt⟩ := List.mem_range'_1.1 hd'
      rw [before d' ge (by omega)]
      rfl
  rw [this]
  rfl

/-! ## Read grants (R43) -/

section
variable {w : ReadWait} {rest : List ReadWait}

theorem readFits_iff (k : Nat) (s : State) : readFits k s = true ↔ s.pool.held.read + k ≤ s.pool.quotas.read :=
  decide_eq_true_iff

theorem readGrant_none (h : s.pool.waiting = []) : readGrant s = s := by
  rw [readGrant, h]

theorem readGrant_noRoom (h : s.pool.waiting = w :: rest) (hr : s.pool.quotas.read < s.pool.held.read + w.pages) :
    readGrant s = s := by
  rw [readGrant, h]
  exact if_neg (mt (readFits_iff _ _).1 (Nat.not_le.2 hr))

theorem readGrant_front (h : s.pool.waiting = w :: rest) (hr : s.pool.held.read + w.pages ≤ s.pool.quotas.read) :
    readGrant s =
      let v := takeRead w.pages (modPool (fun p => { p with waiting := rest }) s)
      let x := match w.client with
        | .verify n => passRead n v
        | .restore => if w.pages = 1 then restoreOffer v else restoreRead v
      if rest = [] then x else post .readGrant x := by
  rw [readGrant, h]
  exact if_pos ((readFits_iff _ _).2 hr)

theorem withdrawRead_waiting (h : ∃ w ∈ s.pool.waiting, w.client = c) : withdrawRead c s =
    post .readGrant (modPool (fun p => { p with waiting := p.waiting.filter fun w => decide (w.client ≠ c) }) s) :=
  if_pos (by simpa using h)

theorem withdrawRead_none (h : ∀ w ∈ s.pool.waiting, w.client ≠ c) : withdrawRead c s = s :=
  if_neg (by simpa using h)

end

/-! ## The end of an expansion (R36) -/

/-- The engine becomes IDLE and tests again (R36). -/
def expanderIdle (s : State) : State := post .expanderTake (modExp (fun e => { e with engine := none }) s)

section
variable {x : Expansion}

theorem expansionComplete_idle (h : s.exp.engine = none) : expansionComplete s = s := by
  rw [expansionComplete, h]

theorem expansionComplete_abandoned (h : s.exp.engine = some x) (ha : x.request.abandoned = true) :
    expansionComplete s = offerHeld x.client (freeRead x.request.keptPages (expanderIdle s)) := by
  rw [expansionComplete, h]
  exact if_pos ha

theorem expansionComplete_returned (h : s.exp.engine = some x) (ha : x.request.abandoned = false) :
    expansionComplete s = match x.client with
      | .verify n => passOutcome n (expand x.request.record) (expanderIdle s)
      | .restore => restoreOutcome x.request.record (expand x.request.record) (expanderIdle s) := by
  rw [expansionComplete, h]
  exact if_neg (by simp [ha])

end

@[simp] theorem freeRead_rse (k : Nat) (s : State) : (freeRead k s).rse = s.rse := by
  rw [freeRead]
  split <;> rfl

@[simp] theorem freeRead_vfy (k : Nat) (s : State) : (freeRead k s).vfy = s.vfy := by
  rw [freeRead]
  split <;> rfl

@[simp] theorem freeRead_exp (k : Nat) (s : State) : (freeRead k s).exp = s.exp := by
  rw [freeRead]
  split <;> rfl

theorem offerHeld_restore {x : RestoreContext} (ha : s.rse.active = some x) (hs : x.stage = .output)
    (hp : x.outputPage = true) : offerHeld .restore s = restoreOffer s :=
  if_pos (by simp [ha, hs, hp])

theorem offerHeld_restore_none (h : ∀ x, s.rse.active = some x → x.stage ≠ .output ∨ x.outputPage = false) :
    offerHeld .restore s = s := by
  refine if_neg fun held => ?_
  obtain ⟨x, hx, hh⟩ := Option.any_eq_true _ _ |>.1 held
  simp only [Bool.and_eq_true, decide_eq_true_eq] at hh
  exact (h x hx).elim (absurd hh.1) (by simp [hh.2])

/-! ## Slots, and work given up (R31, R36, R37, R44; log entry 42) -/

theorem inEngine_iff (c : ReadClient) (s : State) :
    inEngine c s = true ↔ ∃ x, s.exp.engine = some x ∧ x.client = c := by
  simp [inEngine, Option.any_eq_true]

theorem expanding_iff (c : ReadClient) (s : State) :
    expanding c s = true ↔ ∃ x, s.exp.engine = some x ∧ x.client = c ∧ x.request.abandoned = false := by
  simp [expanding, Option.any_eq_true]

theorem awaiting_iff (c : ReadClient) (s : State) :
    awaiting c s = true ↔ ∃ q, clientSlot c s = some q ∧ q.abandoned = false := by
  simp [awaiting, Option.any_eq_true]

theorem clientBusy_iff (c : ReadClient) (s : State) :
    clientBusy c s = true ↔ clientSlot c s ≠ none ∨ ∃ x, s.exp.engine = some x ∧ x.client = c := by
  rw [clientBusy, Bool.or_eq_true, inEngine_iff, Option.isSome_iff_ne_none]

theorem emptySlot_none (h : clientSlot c s = none) : emptySlot c s = s := by
  rw [emptySlot, h]

section
variable {q : ExpandRequest} {k : Nat}

theorem emptySlot_some (h : clientSlot c s = some q) :
    emptySlot c s = freeRead q.keptPages (modSlot c (fun _ => none) s) := by
  rw [emptySlot, h]

theorem surrenderPages_expanding {x : Expansion} (hx : s.exp.engine = some x) (hc : x.client = c)
    (ha : x.request.abandoned = false) : surrenderPages c k s =
      modExp (fun e => { e with engine := some { x with request := x.request.giveUp k } }) s := by
  rw [surrenderPages, if_pos ((expanding_iff c s).2 ⟨x, hx, hc, ha⟩), modExp, hx]
  rfl

theorem surrenderPages_awaiting (he : ¬ expanding c s = true) (hq : clientSlot c s = some q)
    (ha : q.abandoned = false) :
    surrenderPages c k s = modSlot c (Option.map (ExpandRequest.giveUp k)) s :=
  (if_neg he).trans (if_pos ((awaiting_iff c s).2 ⟨q, hq, ha⟩))

theorem surrenderPages_idle (he : ¬ expanding c s = true) (hq : ∀ q, clientSlot c s = some q → q.abandoned = true) :
    surrenderPages c k s = freeRead k s := by
  refine (if_neg he).trans (if_neg fun ha => ?_)
  obtain ⟨q, hs, hn⟩ := (awaiting_iff c s).1 ha
  exact absurd (hq q hs) (by simp [hn])

theorem modSlot_congr {f g : Option ExpandRequest → Option ExpandRequest}
    (h : f (clientSlot c s) = g (clientSlot c s)) : modSlot c f s = modSlot c g s := by
  cases c with
  | restore => exact congrArg (fun q => modExp (fun e => { e with restoreSlot := q }) s) h
  | verify n => exact congrArg (fun v => modExp (fun e => { e with verifySlots := v }) s) (upd_congr _ n f g h)

@[simp] theorem clientSlot_freeRead (c : ReadClient) (k : Nat) (s : State) :
    clientSlot c (freeRead k s) = clientSlot c s := by
  cases c <;> rw [clientSlot, clientSlot, freeRead_exp]

theorem expanding_congr {t : State} (h : t.exp.engine = s.exp.engine) : expanding c t = expanding c s := by
  rw [expanding, expanding, h]

theorem abandonPages_none (he : ¬ expanding c s = true) (h : clientSlot c s = none) :
    abandonPages c k s = freeRead k s := by
  rw [abandonPages, emptySlot_none h]
  exact surrenderPages_idle he (by simp [h])

theorem abandonPages_some (he : ¬ expanding c s = true) (h : clientSlot c s = some q) :
    abandonPages c k s = freeRead k (freeRead q.keptPages (modSlot c (fun _ => none) s)) := by
  rw [abandonPages, emptySlot_some h]
  refine surrenderPages_idle ?_ (by simp)
  rwa [expanding_congr (s := s) (by simp)]

end

/-! ## The raw bytes and the outcome (R33 to R35) -/

section
variable {r : WalkedRecord} {bs : List Byte}

theorem expand_damaged (hr : rawBytes r = some bs) (hd : crc32 bs ≠ r.digest) : expand r = .damaged := by
  rw [expand, hr]
  exact if_neg hd

theorem expand_corrupt (hr : rawBytes r = none) : expand r = .corrupt := by
  rw [expand, hr]

theorem rawBytes_unknown (hm : r.method = 0 ∨ 3 < r.method) : rawBytes r = none := by
  rw [rawBytes, if_neg (by omega), if_neg (by omega), if_neg (by omega)]

theorem rawBytes_end (hm : r.method = 3) :
    rawBytes r = if r.rawLength = 0 ∧ r.codedLength = 0 then some [] else none := if_pos hm

end

end Sys2Proof.Machine

namespace Sys2Proof.Proofs

open Sys2Proof Sys2Proof.Machine Sys2Proof.Machine.Packing

/-- Settles O30: the take by which slot is occupied, the grants by the room for the front request. -/
theorem expanderAndReadGrants : Obligations.ExpanderAndReadGrants := by
  refine ⟨fun s => ?_, fun s => ?_, fun c s => ⟨withdrawRead_waiting, withdrawRead_none⟩⟩
  · intro u done
    have took : ∀ {t}, expanderTake u = t → done t := commanded_congr (d := .expanderTake)
    exact ⟨fun busy => took (expanderTake_busy busy), fun q idle hq => took (expanderTake_restore idle hq),
      fun d q idle hr h1 h4 before hq => took (expanderTake_verify idle hr (nextVerify_first h1 h4 before hq)),
      fun idle hr empty => took (expanderTake_none idle hr (nextVerify_none empty))⟩
  · intro u done
    have granted : ∀ {t}, readGrant u = t → done t := commanded_congr (d := .readGrant)
    refine ⟨fun empty => granted (readGrant_none empty), fun w rest front => ⟨fun full => ?_, fun room => ?_⟩⟩
    · exact granted (readGrant_noRoom front full)
    · exact granted (readGrant_front front room)

/-- Settles O31: the outcome by whether the record has been given up and by its client, a client's pages by what stands
in its slot and in the engine, and the expansion by the record's method. -/
theorem expansionComplete : Obligations.ExpansionComplete := by
  intro r s u done
  have back : ∀ {t}, Machine.expansionComplete u = t → done t := outside_congr
  refine ⟨fun idle => back (expansionComplete_idle idle), fun x hx => ?_, fun c k => ?_,
    fun bs => expand_good, fun bs => expand_damaged, expand_corrupt, rawBytes_unknown, rawBytes_end, rawBytes_stored,
    rawBytes_packed⟩
  · intro idle freed
    refine ⟨fun ha hc => ?_, fun n ha hc => back ?_, fun ha hc => back ?_, fun n ha hc => back ?_⟩
    · have gone : Machine.expansionComplete u = offerHeld .restore freed := hc ▸ expansionComplete_abandoned hx ha
      have same : freed.rse = u.rse := freeRead_rse _ _
      refine ⟨fun a active output page => back (gone.trans ?_), fun held => back (gone.trans ?_)⟩
      · exact offerHeld_restore (same ▸ active) output page
      · exact offerHeld_restore_none (same ▸ held)
    · have same : freed.vfy = u.vfy := freeRead_vfy _ _
      rw [expansionComplete_abandoned hx ha, hc, ← same]
      rfl
    · rw [expansionComplete_returned hx ha, hc]
      rfl
    · rw [expansionComplete_returned hx ha, hc]
      rfl
  · intro slot filled free live
    have slot_eq : clientSlot c s = slot := rfl
    have filled_eq : ∀ q, modSlot c (fun _ => q) s = filled q := fun q => rfl
    have notExpanding (h : ∀ x, s.exp.engine = some x → ¬ live x) : ¬ expanding c s = true := fun he => by
      obtain ⟨x, hx, hl⟩ := (expanding_iff c s).1 he
      exact h x hx hl
    refine ⟨clientBusy_iff c s, fun x hx hl => surrenderPages_expanding hx hl.1 hl.2, fun hn => ?_, emptySlot_none,
      fun q hq => ?_⟩
    · have he := notExpanding hn
      refine ⟨fun q hq ha => ?_, surrenderPages_idle he, abandonPages_none he, fun q hq => ?_⟩
      · rw [surrenderPages_awaiting he hq ha, ← filled_eq]
        exact modSlot_congr (by rw [slot_eq, hq]; rfl)
      · exact (abandonPages_some he hq).trans (by rw [filled_eq]; rfl)
    · exact (emptySlot_some hq).trans (by rw [filled_eq]; rfl)

end Sys2Proof.Proofs
end

section
/-! PROOFS. Tables: the reads that take no argument, and TABLE_WRITE of the pool split and of the lane roles (R39, R40,
R58, R128, R137). -/

namespace Sys2Proof.Machine

variable {h : Hdr} {s : State}

/-! ## Figures of the reads (R38, R128, R137) -/

theorem readPoolSplit_eq : readPoolSplit h s = answer h 7 .ok (.poolSplit s.pool.quotas s.pool.held
    (2048 - (s.pool.held.ingest + s.pool.held.assembly.toList.sum + s.pool.held.read))) s := rfl

theorem loaderQuery_eq : loaderQuery h s = answer h 17 .ok (.loader
    { loader := s.ldr, held := namedAt .picker s,
      heldLabel := (namedAt .picker s).bind fun i => (s.cdr.records[i]).map Cart.label, mounts := s.mounts }) s := rfl

theorem catQuery_eq : catQuery h s = answer h 24 .ok (.catalog
    { count := s.cat.entries.length,
      freeRoom := 4096 - s.cat.entries.length - (s.cat.places.toList.filter id).length, places := s.cat.places,
      high := decide (3584 ≤ s.cat.entries.length), fullReported := s.cat.fullReported,
      oldest := s.cat.entries.head?.map CatEntry.serial, nextSerial := s.cat.nextSerial,
      unverified := (s.cat.entries.filter fun e => decide (e.status = .unverified)).length,
      verified := (s.cat.entries.filter fun e => decide (e.status = .verified)).length,
      bad := (s.cat.entries.filter fun e => decide (e.status = .bad)).length }) s := rfl

/-! ## Pool split (R39) -/

section
variable {a : QuotaArg}

/-- Check 1 of R39: each quota at its minimum or above, and no more than the pool together. -/
def QuotasFit (a : QuotaArg) : Prop :=
  32 ≤ a.ingest ∧ 16 ≤ a.lane0 ∧ 16 ≤ a.lane1 ∧ 16 ≤ a.lane2 ∧ 16 ≤ a.lane3 ∧ 32 ≤ a.read ∧
    a.ingest + a.lane0 + a.lane1 + a.lane2 + a.lane3 + a.read ≤ 2048

theorem quotasOf_none (hq : ¬ QuotasFit a) : quotasOf a = none := if_neg hq

theorem quotasOf_some (hq : QuotasFit a) : quotasOf a =
    some { ingest := a.ingest, assembly := #v[a.lane0, a.lane1, a.lane2, a.lane3], read := a.read } := if_pos hq

theorem sum_toList_eq_zero_iff (v : Vector Nat 4) : v.toList.sum = 0 ↔ ∀ n : LaneId, v[n] = 0 := by
  rw [List.sum_eq_zero_iff]
  constructor
  · intro hv n
    exact hv _ (Vector.mem_toList_iff.2 (Vector.getElem_mem n.2))
  · intro hv x hx
    obtain ⟨k, hk, rfl⟩ := Vector.mem_iff_getElem.1 (Vector.mem_toList_iff.1 hx)
    exact hv ⟨k, hk⟩

/-- The pool is in use when a region holds a page: the free pages are all 2,048 only when no region holds one (R39). -/
theorem poolInUse_iff : poolInUse s = true ↔
    s.pool.held.ingest ≠ 0 ∨ (∃ n : LaneId, s.pool.held.assembly[n] ≠ 0) ∨ s.pool.held.read ≠ 0 := by
  have total : Config.poolPages = 2048 := rfl
  have lanes : (∃ n : LaneId, s.pool.held.assembly[n] ≠ 0) ↔ s.pool.held.assembly.toList.sum ≠ 0 := by
    rw [Ne, sum_toList_eq_zero_iff, not_forall]
  rw [lanes, poolInUse, decide_eq_true_iff, freePages, total]
  omega

theorem writePoolSplit_badArgument (hq : ¬ QuotasFit a) : writePoolSplit h a s = refuse h 6 .badArgument s := by
  rw [writePoolSplit, quotasOf_none hq]

theorem writePoolSplit_busy (hq : QuotasFit a) (hu : poolInUse s = true) :
    writePoolSplit h a s = refuse h 6 .busy s := by
  rw [writePoolSplit, quotasOf_some hq]
  exact if_pos hu

theorem writePoolSplit_ok (hq : QuotasFit a) (hu : ¬ poolInUse s = true) :
    writePoolSplit h a s = post .readGrant (post .compressorTake (checkAllResumes (answer h 6 .ok .none
      (modPool (fun p => { p with quotas :=
        { ingest := a.ingest, assembly := #v[a.lane0, a.lane1, a.lane2, a.lane3], read := a.read } }) s)))) := by
  rw [writePoolSplit, quotasOf_some hq]
  exact if_neg hu

end

/-! ## Lane roles (R58) -/

theorem allLanes_any_iff (f : LaneId → Bool) : allLanes.any f = true ↔ ∃ n, f n = true := by
  simp [List.any_eq_true, mem_allLanes]

theorem Role.isWrite_iff (r : Role) : r.isWrite = true ↔ ∃ p, r = .write p := by
  cases r <;> simp [Role.isWrite]

theorem LaneState.onTape_iff (x : LaneState) :
    x.onTape = true ↔ x = .locating ∨ x = .writing ∨ x = .hold ∨ x = .reading := by
  cases x <;> simp [LaneState.onTape]

theorem roleOf_none {a : RoleArg} (hr : (a.kind = 0 ∧ 7 < a.pool) ∨ 1 < a.kind) : roleOf a = none := by
  unfold roleOf
  rcases hr with ⟨kind, pool⟩ | kind
  · rw [if_pos kind, finOf_none (by omega)]
    rfl
  · rw [if_neg (by omega), if_neg (by omega)]

/-- Two lanes are WRITE for one pool when the table fails the test of its entries (R58). -/
theorem rolesDistinct_false_iff (r : Vector Role 4) : rolesDistinct r = false ↔
    ∃ m n : LaneId, m ≠ n ∧ ∃ p, r[m] = .write p ∧ r[n] = .write p := by
  have twice (m n : LaneId) : (r[m].isWrite = true ∧ r[m] = r[n]) ↔ ∃ p, r[m] = .write p ∧ r[n] = .write p := by
    rw [Role.isWrite_iff]
    constructor
    · rintro ⟨⟨p, hp⟩, same⟩
      exact ⟨p, hp, same ▸ hp⟩
    · rintro ⟨p, hm, hn⟩
      exact ⟨⟨p, hm⟩, hm.trans hn.symm⟩
  simp only [← twice]
  simp [rolesDistinct, mem_allLanes, and_assoc]

/-- A lane's entry cannot change now: it does change, and the lane is on tape or, as a
WRITE lane, serves a stream that is not CLOSED (R58). -/
theorem roleBusy_iff (n : LaneId) (r : Role) (s : State) : roleBusy n r s = true ↔
    s.lanes[n].role ≠ r ∧
      (s.lanes[n].state = .locating ∨ s.lanes[n].state = .writing ∨ s.lanes[n].state = .hold ∨
        s.lanes[n].state = .reading ∨
        ((∃ p, s.lanes[n].role = .write p) ∧
          ∃ i : StreamId, s.streams[i].state ≠ .closed ∧ s.streams[i].lane = n)) := by
  have streams : (allStreams.any fun i => decide (s.streams[i].state ≠ .closed) && decide (s.streams[i].lane = n)) =
      true ↔ ∃ i : StreamId, s.streams[i].state ≠ .closed ∧ s.streams[i].lane = n := by
    simp [allStreams]
  rw [roleBusy, Bool.and_eq_true, Bool.or_eq_true, Bool.and_eq_true, decide_eq_true_iff, LaneState.onTape_iff,
    Role.isWrite_iff, streams]
  simp only [or_assoc]

section
variable {r0 r1 r2 r3 : RoleArg} {r : Vector Role 4}

theorem writeLaneRole_unread
    (hr : roleOf r0 = none ∨ roleOf r1 = none ∨ roleOf r2 = none ∨ roleOf r3 = none) :
    writeLaneRole h r0 r1 r2 r3 s = refuse h 6 .badArgument s := by
  unfold writeLaneRole
  split
  · next h0 h1 h2 h3 => simp [h0, h1, h2, h3] at hr
  · rfl

/-- The four entries of a lane role write that are in their ranges make the table that the two tests are about (R58). -/
theorem writeLaneRole_read (hr : #v[roleOf r0, roleOf r1, roleOf r2, roleOf r3] = r.map some) :
    writeLaneRole h r0 r1 r2 r3 s =
      if rolesDistinct r = false then refuse h 6 .badArgument s
      else if allLanes.any (fun n => roleBusy n r[n] s) = true then refuse h 6 .busy s
      else post .serveTest (forEach allLanes (setRole r) (answer h 6 .ok .none s)) := by
  have entry (n : LaneId) :
      (#v[roleOf r0, roleOf r1, roleOf r2, roleOf r3] : Vector (Option Role) 4)[n] = some r[n] := by
    rw [hr]
    exact Vector.getElem_map some n.2
  have table : (#v[r[(0 : LaneId)], r[(1 : LaneId)], r[(2 : LaneId)], r[(3 : LaneId)]] : Vector Role 4) = r :=
    Vector.ext fun
      | 0, _ => rfl
      | 1, _ => rfl
      | 2, _ => rfl
      | 3, _ => rfl
  have e0 : roleOf r0 = some r[(0 : LaneId)] := entry 0
  have e1 : roleOf r1 = some r[(1 : LaneId)] := entry 1
  have e2 : roleOf r2 = some r[(2 : LaneId)] := entry 2
  have e3 : roleOf r3 = some r[(3 : LaneId)] := entry 3
  rw [writeLaneRole, e0, e1, e2, e3]
  dsimp only
  rw [table]

theorem writeLaneRole_twice (hr : #v[roleOf r0, roleOf r1, roleOf r2, roleOf r3] = r.map some)
    (hd : rolesDistinct r = false) : writeLaneRole h r0 r1 r2 r3 s = refuse h 6 .badArgument s :=
  (writeLaneRole_read hr).trans (if_pos hd)

theorem writeLaneRole_busy (hr : #v[roleOf r0, roleOf r1, roleOf r2, roleOf r3] = r.map some)
    (hd : ¬ rolesDistinct r = false) (hb : ∃ n : LaneId, roleBusy n r[n] s = true) :
    writeLaneRole h r0 r1 r2 r3 s = refuse h 6 .busy s := by
  rw [writeLaneRole_read hr, if_neg hd, if_pos ((allLanes_any_iff _).2 hb)]

theorem writeLaneRole_ok (hr : #v[roleOf r0, roleOf r1, roleOf r2, roleOf r3] = r.map some)
    (hd : ¬ rolesDistinct r = false) (hb : ¬ ∃ n : LaneId, roleBusy n r[n] s = true) :
    writeLaneRole h r0 r1 r2 r3 s = post .serveTest (forEach allLanes (setRole r) (answer h 6 .ok .none s)) := by
  rw [writeLaneRole_read hr, if_neg hd, if_neg (mt (allLanes_any_iff _).1 hb)]

end

end Sys2Proof.Machine

namespace Sys2Proof.Proofs

open Sys2Proof Sys2Proof.Machine

/-- Settles O20: both writes check by check, each check by the lemma that says when it fails. -/
theorem writePoolSplitAndLaneRoles : Obligations.WritePoolSplitAndLaneRoles := by
  constructor
  · intro h q s hc u done good inUse
    have used : poolInUse u = true ↔ inUse := poolInUse_iff
    refine ⟨fun hg => ?_, fun hg hu => ?_, fun hg hu => ?_⟩
    · exact exec_taken hc rfl (writePoolSplit_badArgument hg)
    · exact exec_taken hc rfl (writePoolSplit_busy hg (used.2 hu))
    · exact exec_taken hc rfl (writePoolSplit_ok hg (mt used.1 hu))
  · intro h r0 r1 r2 r3 s hc u done bad
    refine ⟨fun hb => ?_, fun r hr => ?_⟩
    · exact exec_taken hc rfl (writeLaneRole_unread
        (hb.imp roleOf_none (Or.imp roleOf_none (Or.imp roleOf_none roleOf_none))))
    intro twice busy
    have repeated : rolesDistinct r = false ↔ twice := rolesDistinct_false_iff r
    have held : (∃ n : LaneId, roleBusy n r[n] u = true) ↔ busy := exists_congr fun n => roleBusy_iff n r[n] u
    refine ⟨fun ht => ?_, fun ht hb => ?_, fun ht hb => ?_⟩
    · exact exec_taken hc rfl (writeLaneRole_twice hr (repeated.2 ht))
    · exact exec_taken hc rfl (writeLaneRole_busy hr (mt repeated.1 ht) (held.2 hb))
    · exact exec_taken hc rfl (writeLaneRole_ok hr (mt repeated.1 ht) (mt held.1 hb))

/-- Settles O23: a read's own effect is its answer; the pool split, the loader and the catalog give computed figures. -/
theorem readsAnswerAtAnyTime : Obligations.ReadsAnswerAtAnyTime := by
  intro h s hc u gives
  have read {c : Instr} {code : Nat} {body : ReplyBody} (hf : isFrame c = true)
      (answers : heldEffect c u = answer h code .ok body u) : gives c code body := exec_taken hc hf answers
  refine ⟨?speed, ?ramp, ?positions, ?poolSplit, ?laneRole, ?triggers, ?captures, ?compares, ?settings,
    ?loader, ?catalog⟩
  case poolSplit => exact read rfl readPoolSplit_eq
  case loader => exact read rfl loaderQuery_eq
  case catalog => exact read rfl catQuery_eq
  all_goals exact read rfl rfl

end Sys2Proof.Proofs
end

section
/-! PROOFS. Drive lane rules: what each operation of a lane changes and what it leaves (R43, R44, R56, R63, R73, R77,
R133, R157). -/

namespace Sys2Proof.Machine

variable {n : LaneId} {s t : State}

/-! ## Updates of one lane -/

/-- Two changes of one lane agree when they agree on the context that stands there. -/
theorem modLane_congr {f g : Lane → Lane} (h : f s.lanes[n] = g s.lanes[n]) : modLane n f s = modLane n g s := by
  rw [modLane, modLane, upd_congr _ _ f g h]

/-- Of two changes of one lane the second is made on the first's outcome. -/
theorem modLane_modLane (f g : Lane → Lane) : modLane n g (modLane n f s) = modLane n (fun l => g (f l)) s := by
  simp [modLane]

/-- An update that writes back what stands there changes nothing. -/
theorem upd_self {α : Type} {k : Nat} (v : Vector α k) (i : Fin k) (f : α → α) (h : f v[i] = v[i]) : upd v i f = v :=
  (upd_congr v i f id h).trans (upd_id v i)

/-! ## The mounted cartridge's record (R56, R90) -/

theorem mountedRecord_eq (n : LaneId) (s : State) :
    mountedRecord n s = s.lanes[n].mounted.bind fun i => (s.cdr.records[i]).map fun c => (i, c) := by
  rw [mountedRecord]
  cases s.lanes[n].mounted <;> rfl

theorem mountedRecord_some {i : CartId} {c : Cart} (hm : s.lanes[n].mounted = some i) (hc : s.cdr.records[i] = some c) :
    mountedRecord n s = some (i, c) := by
  rw [mountedRecord_eq, hm, Option.bind_some, hc, Option.map_some]

theorem mountedRecord_iff (n : LaneId) (s : State) (i : CartId) (c : Cart) :
    mountedRecord n s = some (i, c) ↔ s.lanes[n].mounted = some i ∧ s.cdr.records[i] = some c := by
  rw [mountedRecord_eq]
  simp only [Option.bind_eq_some_iff, Option.map_eq_some_iff, Prod.mk.injEq]
  constructor
  · rintro ⟨_, hm, _, hc, rfl, rfl⟩
    exact ⟨hm, hc⟩
  · rintro ⟨hm, hc⟩
    exact ⟨i, hm, c, hc, rfl, rfl⟩

/-- A change of a record that is there. -/
theorem modRecord_some {i : CartId} {c : Cart} (f : Cart → Cart) (hc : s.cdr.records[i] = some c) :
    modRecord i f s = { s with cdr := { s.cdr with records := s.cdr.records.set i (some (f c)) } } := by
  rw [modRecord, modCdr, upd, hc, Option.map_some]

theorem modRecord_records (i j : CartId) (f : Cart → Cart) (s : State) :
    (modRecord i f s).cdr.records[j] = if i = j then (s.cdr.records[j]).map f else s.cdr.records[j] := by
  show (upd s.cdr.records i (Option.map f))[j] = _
  rw [upd_get]
  by_cases h : j = i
  · subst h
    simp only [if_true]
  · rw [if_neg h, if_neg (Ne.symm h)]

theorem setNeedsLocate_none {b : Bool} (hm : s.lanes[n].mounted = none) : setNeedsLocate n b s = s := by
  rw [setNeedsLocate, hm]

theorem setNeedsLocate_some {b : Bool} {i : CartId} (hm : s.lanes[n].mounted = some i) :
    setNeedsLocate n b s = modRecord i (fun c => { c with needsLocate := b }) s := by
  rw [setNeedsLocate, hm]

/-- The needs locate flag is written in the directory's records and nowhere else (R56). -/
theorem setNeedsLocate_frame (n : LaneId) (b : Bool) (s : State) :
    setNeedsLocate n b s = { s with cdr := { s.cdr with records := (setNeedsLocate n b s).cdr.records } } := by
  cases hm : s.lanes[n].mounted with
  | none => rw [setNeedsLocate_none hm]
  | some i => rw [setNeedsLocate_some hm]; rfl

section
variable (n : LaneId) (b : Bool) (s : State)

@[simp] theorem setNeedsLocate_lanes : (setNeedsLocate n b s).lanes = s.lanes := by rw [setNeedsLocate_frame]
@[simp] theorem setNeedsLocate_map : (setNeedsLocate n b s).cdr.map = s.cdr.map := by rw [setNeedsLocate_frame]
@[simp] theorem setNeedsLocate_cat : (setNeedsLocate n b s).cat = s.cat := by rw [setNeedsLocate_frame]
@[simp] theorem setNeedsLocate_asm : (setNeedsLocate n b s).asm = s.asm := by rw [setNeedsLocate_frame]
@[simp] theorem setNeedsLocate_gov : (setNeedsLocate n b s).gov = s.gov := by rw [setNeedsLocate_frame]
@[simp] theorem setNeedsLocate_vfy : (setNeedsLocate n b s).vfy = s.vfy := by rw [setNeedsLocate_frame]
@[simp] theorem setNeedsLocate_rse : (setNeedsLocate n b s).rse = s.rse := by rw [setNeedsLocate_frame]
@[simp] theorem setNeedsLocate_due : (setNeedsLocate n b s).due = s.due := by rw [setNeedsLocate_frame]

/-- Of all records the mounted cartridge's alone hears of it (R56). -/
theorem setNeedsLocate_records (i : CartId) : (setNeedsLocate n b s).cdr.records[i] =
    if s.lanes[n].mounted = some i then (s.cdr.records[i]).map (fun c => { c with needsLocate := b })
    else s.cdr.records[i] := by
  cases hm : s.lanes[n].mounted with
  | none => simp [setNeedsLocate_none hm]
  | some j =>
    rw [setNeedsLocate_some hm, modRecord_records]
    exact if_congr (Option.some_inj (a := j) (b := i)).symm rfl rfl

end

/-! ## Tests owed (log entry 2) -/

/-- `t` is `s` with further tests owed behind those already there. -/
def OwesMore (s t : State) : Prop := ∃ more, t = { s with due := s.due ++ more }

theorem OwesMore.refl (s : State) : OwesMore s s := ⟨[], by rw [List.append_nil]⟩

theorem OwesMore.trans {u : State} (h : OwesMore s t) (k : OwesMore t u) : OwesMore s u := by
  obtain ⟨l, rfl⟩ := h
  obtain ⟨m, rfl⟩ := k
  exact ⟨l ++ m, by simp⟩

theorem owesMore_post (d : Due) (s : State) : OwesMore s (post d s) := ⟨[d], rfl⟩

theorem owesMore_forEach {α : Type} (l : List α) (f : α → State → State) (hf : ∀ x t, OwesMore t (f x t)) (s : State) :
    OwesMore s (forEach l f s) := by
  unfold forEach
  induction l generalizing s with
  | nil => exact .refl s
  | cons x l ih => exact (hf x s).trans (ih (f x s))

theorem owesMore_roomReport (s : State) : OwesMore s (roomReport s) := by
  unfold roomReport
  split
  · refine owesMore_forEach _ _ (fun m t => ?_) s
    split
    · exact owesMore_post _ t
    · exact .refl t
  · exact .refl s

theorem owesMore_checkComplete (i : StreamId) (s : State) : OwesMore s (checkComplete i s) := by
  unfold checkComplete
  repeat' split
  all_goals first | exact owesMore_post _ s | exact .refl s

/-! ## Notices (R188) -/

/-- A notice touches the link alone (R188). -/
theorem offerNotice_frame (b : NoticeBody) (s : State) :
    offerNotice b s = { s with link := (offerNotice b s).link } := by
  unfold offerNotice
  split <;> rfl

section
variable (b : NoticeBody) (s : State)

@[simp] theorem offerNotice_lanes : (offerNotice b s).lanes = s.lanes := by rw [offerNotice_frame]
@[simp] theorem offerNotice_cdr : (offerNotice b s).cdr = s.cdr := by rw [offerNotice_frame]
@[simp] theorem offerNotice_cat : (offerNotice b s).cat = s.cat := by rw [offerNotice_frame]
@[simp] theorem offerNotice_asm : (offerNotice b s).asm = s.asm := by rw [offerNotice_frame]
@[simp] theorem offerNotice_gov : (offerNotice b s).gov = s.gov := by rw [offerNotice_frame]
@[simp] theorem offerNotice_vfy : (offerNotice b s).vfy = s.vfy := by rw [offerNotice_frame]
@[simp] theorem offerNotice_rse : (offerNotice b s).rse = s.rse := by rw [offerNotice_frame]
@[simp] theorem offerNotice_due : (offerNotice b s).due = s.due := by rw [offerNotice_frame]

end

/-! ## A lane's state (R77) -/

/-- A lane that enters a state changes its own context, its governor and the tests owed. -/
theorem setLaneState_frame (n : LaneId) (st : LaneState) (s : State) : setLaneState n st s =
    { s with
      lanes := upd s.lanes n fun l => { l with state := st, holdReason := none }
      gov := (setLaneState n st s).gov
      due := s.due ++ [.restoreLane n, .verifyResume n, .ejectAsk n, .serveTest, .verifyStart] } := by
  unfold setLaneState windowTimer laneReport startWindow
  cases st with
  | writing => dsimp only; split <;> simp [post, modGov, modLane]
  | _ => simp [post, modGov, modLane]

section
variable (n : LaneId) (st : LaneState) (s : State)

@[simp] theorem setLaneState_cdr : (setLaneState n st s).cdr = s.cdr := by rw [setLaneState_frame]
@[simp] theorem setLaneState_cat : (setLaneState n st s).cat = s.cat := by rw [setLaneState_frame]
@[simp] theorem setLaneState_asm : (setLaneState n st s).asm = s.asm := by rw [setLaneState_frame]
@[simp] theorem setLaneState_vfy : (setLaneState n st s).vfy = s.vfy := by rw [setLaneState_frame]
@[simp] theorem setLaneState_rse : (setLaneState n st s).rse = s.rse := by rw [setLaneState_frame]

theorem setLaneState_context :
    (setLaneState n st s).lanes = upd s.lanes n fun l => { l with state := st, holdReason := none } := by
  rw [setLaneState_frame]

theorem setLaneState_due : (setLaneState n st s).due =
    s.due ++ [.restoreLane n, .verifyResume n, .ejectAsk n, .serveTest, .verifyStart] := by
  rw [setLaneState_frame]

/-- In HOLD the window runs on (R77). -/
theorem setLaneState_hold_gov : (setLaneState n .hold s).gov = s.gov := rfl

/-- Out of WRITING and HOLD the window is discarded (R77). -/
theorem setLaneState_fault_gov :
    (setLaneState n .fault s).gov = upd s.gov n fun g => { g with window := none } := rfl

theorem setLaneState_offline_gov :
    (setLaneState n .offline s).gov = upd s.gov n fun g => { g with window := none } := rfl

end

/-! ## A catalog place (R133) -/

/-- A place given up is free, whether the lane held one or not; the rest of the catalog stands (R133). -/
theorem releasePlace_frame (n : LaneId) (s : State) : ∃ more, releasePlace n s =
    { s with cat := { s.cat with places := upd s.cat.places n fun _ => false }, due := s.due ++ more } := by
  unfold releasePlace
  split
  · obtain ⟨more, h⟩ := owesMore_roomReport (modCat (fun c => { c with places := upd c.places n fun _ => false }) s)
    exact ⟨more, h⟩
  · next free => exact ⟨[], by rw [upd_self _ _ _ (Bool.eq_false_iff.2 free).symm, List.append_nil]⟩

section
variable (n : LaneId) (s : State)

@[simp] theorem releasePlace_lanes : (releasePlace n s).lanes = s.lanes := by
  obtain ⟨_, h⟩ := releasePlace_frame n s; rw [h]
@[simp] theorem releasePlace_cdr : (releasePlace n s).cdr = s.cdr := by
  obtain ⟨_, h⟩ := releasePlace_frame n s; rw [h]
@[simp] theorem releasePlace_asm : (releasePlace n s).asm = s.asm := by
  obtain ⟨_, h⟩ := releasePlace_frame n s; rw [h]
@[simp] theorem releasePlace_gov : (releasePlace n s).gov = s.gov := by
  obtain ⟨_, h⟩ := releasePlace_frame n s; rw [h]
@[simp] theorem releasePlace_vfy : (releasePlace n s).vfy = s.vfy := by
  obtain ⟨_, h⟩ := releasePlace_frame n s; rw [h]
@[simp] theorem releasePlace_rse : (releasePlace n s).rse = s.rse := by
  obtain ⟨_, h⟩ := releasePlace_frame n s; rw [h]
@[simp] theorem releasePlace_entries : (releasePlace n s).cat.entries = s.cat.entries := by
  obtain ⟨_, h⟩ := releasePlace_frame n s; rw [h]

theorem releasePlace_place : (releasePlace n s).cat.places[n] = false := by
  obtain ⟨_, h⟩ := releasePlace_frame n s
  rw [h]
  exact upd_same _ _ _

theorem releasePlace_due : s.due ⊆ (releasePlace n s).due := by
  obtain ⟨_, h⟩ := releasePlace_frame n s
  rw [h]
  exact List.subset_append_left _ _

end

/-- Whether a place is granted or not, asking for one leaves the lanes, their governors, the directory and the time. -/
theorem askPlace_frame (n : LaneId) (s : State) :
    (askPlace n s).2 = { s with link := (askPlace n s).2.link, cat := (askPlace n s).2.cat } := by
  unfold askPlace
  repeat' split
  · rfl
  · rfl
  · rfl
  · dsimp only
    rw [offerNotice_frame]
    rfl

end Sys2Proof.Machine
end

section
/-! PROOFS. Commit: the answers to WRITE and STEP, the commit of a block, and how the lane goes on (R13, R60, R67 to R70,
R78, R81, R105, R134, R135). -/

namespace Sys2Proof.Machine

variable {n : LaneId} {s : State} {i : CartId} {c : Cart} {b : Nat}

/-! ## The answers to WRITE and STEP (R60, R67, R69, R70, R81) -/

theorem writeDone_write {early : Bool} (hk : inFlight n s = some (.write b)) : writeDone n early s =
    continueWriting n (earlyWarning n early (commitHead n b (modLane n (fun l => { l with command := none }) s))) := by
  rw [writeDone, hk]
  rfl

theorem writeMediaEnd_write (hk : inFlight n s = some (.write b)) : writeMediaEnd n s =
    endCartridge n (releasePlace n (modLane n (fun l => { l with command := none, tapePosition := none }) s)) := by
  rw [writeMediaEnd, hk]
  dsimp only
  rw [clearCommand, modLane_modLane]

theorem writeFail_unmounted (hk : inFlight n s = some (.write b)) (hm : s.lanes[n].mounted = none) :
    writeFail n s = failCommand n .writeFail s := by
  rw [writeFail, hk]
  dsimp only
  rw [hm]

theorem writeFail_mounted (hk : inFlight n s = some (.write b)) (hm : s.lanes[n].mounted = some i)
    (hc : s.cdr.records[i] = some c) : writeFail n s = failCommand n .writeFail
      { s with cdr := { s.cdr with records := s.cdr.records.set i (some { c with state := .suspect }) } } := by
  rw [writeFail, hk]
  dsimp only
  rw [hm]
  exact congrArg (failCommand n .writeFail) (modRecord_some _ hc)

theorem stepDone_step {k : Nat} (hk : inFlight n s = some (.step k)) : stepDone n s =
    sendHead n (modLane n (fun l => { l with command := none, driveStep := some k }) s) := by
  rw [stepDone, hk]
  dsimp only
  rw [clearCommand, modLane_modLane]

theorem stepFail_step {k : Nat} (hk : inFlight n s = some (.step k)) :
    stepFail n s = failCommand n .mechanism s := by
  rw [stepFail, hk]

/-! ## What a stream hears of a commit (R13) -/

/-- A stream context that has heard of its run in a block committed as `b` on cartridge `i` (R13). -/
def heardRun (i : CartId) (b : Nat) (r : Run) (st : Stream) : Stream :=
  { st with uncommitted := st.uncommitted - r.count, lastCommitted := some r.last, spans := (extendSpans i b st.spans).1,
            spanOverflow := st.spanOverflow || (extendSpans i b st.spans).2 }

/-- The contexts after every run of a block has been heard. -/
def heardRuns (i : CartId) (b : Nat) (runs : List Run) (v : Vector Stream 32) : Vector Stream 32 :=
  runs.foldl (fun v r => upd v r.stream (heardRun i b r)) v

theorem commitRun_frame (i : CartId) (b : Nat) (r : Run) (s : State) : ∃ more, commitRun i b r s =
    { s with streams := upd s.streams r.stream (heardRun i b r), due := s.due ++ more } := by
  obtain ⟨more, h⟩ := owesMore_checkComplete r.stream (modStream r.stream (heardRun i b r) s)
  exact ⟨more, h⟩

theorem commitRuns_frame (i : CartId) (b : Nat) (runs : List Run) (s : State) :
    ∃ more, forEach runs (commitRun i b) s =
      { s with streams := heardRuns i b runs s.streams, due := s.due ++ more } := by
  induction runs generalizing s with
  | nil => exact ⟨[], by rw [List.append_nil]; rfl⟩
  | cons r runs ih =>
    obtain ⟨first, h⟩ := commitRun_frame i b r s
    obtain ⟨later, k⟩ := ih (commitRun i b r s)
    refine ⟨first ++ later, k.trans ?_⟩
    rw [h, ← List.append_assoc]
    rfl

/-- A stream with no run in the block hears nothing of it. -/
theorem heardRuns_other {runs : List Run} {k : StreamId} (hk : k ∉ runs.map Run.stream) (v : Vector Stream 32) :
    (heardRuns i b runs v)[k] = v[k] := by
  induction runs generalizing v with
  | nil => rfl
  | cons r runs ih =>
    rw [List.map_cons, List.mem_cons, not_or] at hk
    exact (ih hk.2 _).trans (upd_other _ _ _ _ hk.1)

/-- A stream that the block lists once hears of its run (R13). -/
theorem heardRuns_listed {runs : List Run} (once : (runs.map Run.stream).Nodup) {r : Run} (hr : r ∈ runs)
    (v : Vector Stream 32) : (heardRuns i b runs v)[r.stream] = heardRun i b r v[r.stream] := by
  induction runs generalizing v with
  | nil => cases hr
  | cons x runs ih =>
    rw [List.map_cons, List.nodup_cons] at once
    obtain rfl | hr := List.mem_cons.1 hr
    · exact (heardRuns_other once.1 _).trans (upd_same _ _ _)
    · have ne : r.stream ≠ x.stream := fun e => once.1 (e ▸ List.mem_map_of_mem hr)
      exact (ih once.2 hr _).trans (congrArg (heardRun i b r) (upd_other _ _ _ _ ne))

/-- The last span grows when it is on the same cartridge (R13). -/
theorem extendSpans_grows (front : List Span) {sp : Span} (hs : sp.cart = i) :
    extendSpans i b (front ++ [sp]) = (front ++ [{ sp with last := b }], false) := by
  simp [extendSpans, hs]

/-- Otherwise a span of the block is added, and of four the oldest is dropped (R13). -/
theorem extendSpans_adds {l : List Span} (hs : ∀ sp, l.getLast? = some sp → sp.cart ≠ i) :
    extendSpans i b l =
      if 4 ≤ l.length then (l.tail ++ [{ cart := i, first := b, last := b }], true)
      else (l ++ [{ cart := i, first := b, last := b }], false) := by
  unfold extendSpans
  cases hl : l.getLast? with
  | none =>
    rw [List.getLast?_eq_none_iff.1 hl]
    rfl
  | some sp =>
    dsimp only
    rw [if_neg (hs sp hl), List.drop_one]

theorem heardRun_grows {st : Stream} {front : List Span} {sp : Span} (r : Run) (h : st.spans = front ++ [sp])
    (hs : sp.cart = i) : heardRun i b r st = { st with
      uncommitted := st.uncommitted - r.count
      lastCommitted := some r.last
      spans := front ++ [{ sp with last := b }]
      spanOverflow := st.spanOverflow } := by
  rw [heardRun, h, extendSpans_grows front hs, Bool.or_false]

theorem heardRun_adds {st : Stream} (r : Run) (hs : ∀ sp, st.spans.getLast? = some sp → sp.cart ≠ i)
    (room : st.spans.length < 4) : heardRun i b r st = { st with
      uncommitted := st.uncommitted - r.count
      lastCommitted := some r.last
      spans := st.spans ++ [{ cart := i, first := b, last := b }]
      spanOverflow := st.spanOverflow } := by
  rw [heardRun, extendSpans_adds hs, if_neg (Nat.not_le.2 room), Bool.or_false]

theorem heardRun_drops {st : Stream} (r : Run) (hs : ∀ sp, st.spans.getLast? = some sp → sp.cart ≠ i)
    (full : 4 ≤ st.spans.length) : heardRun i b r st = { st with
      uncommitted := st.uncommitted - r.count
      lastCommitted := some r.last
      spans := st.spans.tail ++ [{ cart := i, first := b, last := b }]
      spanOverflow := true } := by
  rw [heardRun, extendSpans_adds hs, if_pos full, Bool.or_true]

/-! ## The commit (R67, R105, R134) -/

/-- A record whose end of data has risen by a commit: SCRATCH becomes FILLING, and FILLING at the limit FULL (R90, R105;
log entry 11). -/
def advanced (c : Cart) : Cart :=
  { c with
    endOfData := min 4294967295 (c.endOfData + 1)
    state :=
      if min 4294967295 (c.endOfData + 1) = 4294967295 ∧ (if c.state = .scratch then .filling else c.state) = .filling then
        .full
      else if c.state = .scratch then .filling else c.state }

theorem commitRecord_eq (hc : s.cdr.records[i] = some c) :
    commitRecord i s = { s with cdr := { s.cdr with records := s.cdr.records.set i (some (advanced c)) } } := by
  rw [commitRecord, recordAt, hc]
  exact modRecord_some _ hc

/-- The catalog's entry of a block committed on lane `n` (R134). -/
def newEntry (n : LaneId) (i : CartId) (label : List Byte) (block : Nat) (runs : List Run) (s : State) : CatEntry :=
  { serial := s.cat.nextSerial, cart := i, label := label, block := block, lane := n, commitTime := s.ttu.time,
    runs := runs.map fun r => { stream := r.stream, first := r.first, last := r.last }, status := .unverified }

/-- The state with the block's entry in the catalog and the lane's place used (R134). -/
def entered (n : LaneId) (i : CartId) (label : List Byte) (block : Nat) (runs : List Run) (s : State) : State :=
  { s with cat := { s.cat with
    entries := s.cat.entries ++ [newEntry n i label block runs s]
    nextSerial := s.cat.nextSerial + 1
    places := upd s.cat.places n fun _ => false } }

section
variable (n : LaneId) (i : CartId) (label : List Byte) (block : Nat) (runs : List Run) (s : State)

theorem insertEntry_eq : insertEntry n i label block runs s =
    let e := entered n i label block runs s
    if e.cat.entries.length = 3584 then
      offerNotice (.catalogHigh e.cat.entries.length ((e.cat.entries.head?.map CatEntry.serial).getD 0) e.cat.nextSerial) e
    else e := rfl

theorem entered_length : (entered n i label block runs s).cat.entries.length = s.cat.entries.length + 1 :=
  List.length_append

/-- Beside the entry the link alone may change (R135). -/
theorem insertEntry_frame : insertEntry n i label block runs s =
    { entered n i label block runs s with link := (insertEntry n i label block runs s).link } := by
  rw [insertEntry_eq]
  dsimp only
  split
  · exact offerNotice_frame _ _
  · rfl

theorem insertEntry_quiet (h : s.cat.entries.length ≠ 3583) : (insertEntry n i label block runs s).link = s.link := by
  rw [insertEntry_eq]
  dsimp only
  rw [if_neg (by rw [entered_length]; omega)]
  rfl

/-- What a notice makes of the link depends on the link and the time alone (R188). -/
theorem offerNotice_link_congr {s t : State} (b : NoticeBody) (hl : t.link = s.link) (ht : t.ttu = s.ttu) :
    (offerNotice b t).link = (offerNotice b s).link := by
  unfold offerNotice
  rw [hl]
  split
  · exact congrArg (fun l : Link => { l with overflow := true }) hl
  · rw [modLink_link, modLink_link, hl, ht]

theorem insertEntry_high {old : CatEntry} (h : s.cat.entries.length = 3583) (ho : s.cat.entries.head? = some old) :
    (insertEntry n i label block runs s).link =
      (offerNotice (.catalogHigh 3584 old.serial (s.cat.nextSerial + 1)) s).link := by
  have oldest : (entered n i label block runs s).cat.entries.head? = some old := by
    rw [entered, List.head?_append, ho]
    rfl
  rw [insertEntry_eq]
  dsimp only
  rw [entered_length, h, if_pos rfl, oldest]
  exact offerNotice_link_congr _ rfl rfl

end

/-- The verify engine's tests are all that an empty sealed queue leads to (R146, R154). -/
theorem owesMore_reportEmpty (n : LaneId) (s : State) : OwesMore s (reportEmpty n s) := by
  unfold reportEmpty
  split
  · exact (owesMore_post _ s).trans (owesMore_post _ _)
  · exact .refl s

/-- A commit counts 65,536 bytes as delivered while the window timer runs (R78). -/
def countBlock (g : Governor) : Governor :=
  { g with delivered := if g.window.isSome = true then min 4294967295 (g.delivered + 65536) else g.delivered }

/-- The tape position becomes the record's end of data, and needs locate is cleared (R67 step 3). -/
theorem positioned {d : Cart} (hm : s.lanes[n].mounted = some i) (hd : s.cdr.records[i] = some d) :
    setNeedsLocate n false (modLane n (fun l => { l with tapePosition := (recordAt i s).map Cart.endOfData }) s) =
      { s with
        lanes := upd s.lanes n fun l => { l with tapePosition := some d.endOfData }
        cdr := { s.cdr with records := s.cdr.records.set i (some { d with needsLocate := false }) } } := by
  have mounted (f : Option Nat) : (modLane n (fun l => { l with tapePosition := f }) s).lanes[n].mounted = some i := by
    rw [modLane_lanes, upd_same]
    exact hm
  rw [recordAt, hd, setNeedsLocate_some (mounted _)]
  exact modRecord_some _ hd

/-- Steps 1 and 2 of a commit: the record's end of data and the catalog's entry (R67). -/
theorem insertEntry_commitRecord (hc : s.cdr.records[i] = some c) (runs : List Run) :
    insertEntry n i c.label b runs (commitRecord i s) =
      { entered n i c.label b runs s with
        link := (insertEntry n i c.label b runs (commitRecord i s)).link
        cdr := { s.cdr with records := s.cdr.records.set i (some (advanced c)) } } := by
  have inserted := insertEntry_frame n i c.label b runs (commitRecord i s)
  rw [commitRecord_eq hc] at inserted ⊢
  exact inserted

/-- The state behind steps 1 to 3 of a commit: the record, the catalog's entry, the tape position (R67). -/
def catalogued (n : LaneId) (i : CartId) (c : Cart) (b : Nat) (runs : List Run) (link : Link) (s : State) : State :=
  { entered n i c.label b runs s with
    link := link
    lanes := upd s.lanes n fun l => { l with tapePosition := some (advanced c).endOfData }
    cdr := { s.cdr with records := s.cdr.records.set i (some { advanced c with needsLocate := false }) } }

theorem catalogued_eq (hm : s.lanes[n].mounted = some i) (hc : s.cdr.records[i] = some c) (runs : List Run) :
    let x := insertEntry n i c.label b runs (commitRecord i s)
    setNeedsLocate n false (modLane n (fun l => { l with tapePosition := (recordAt i x).map Cart.endOfData }) x) =
      catalogued n i c b runs x.link s := by
  intro x
  have inserted : x = _ := insertEntry_commitRecord hc runs
  have mounted : x.lanes[n].mounted = some i := by rw [inserted]; exact hm
  have record : x.cdr.records[i] = some (advanced c) := by rw [inserted]; exact Vector.getElem_set_self _
  rw [positioned mounted record, inserted]
  dsimp only
  rw [Vector.set_set]
  rfl

/-- The last step of a commit: the verify engine hears of an empty queue, and the block counts as delivered. -/
theorem countDelivered_reportEmpty (n : LaneId) (s : State) : ∃ more,
    countDelivered n (reportEmpty n s) = { s with gov := upd s.gov n countBlock, due := s.due ++ more } := by
  obtain ⟨more, h⟩ := owesMore_reportEmpty n s
  exact ⟨more, by rw [h]; rfl⟩

section
variable {head : SealedBlock} {rest : List SealedBlock}

/-- The whole commit of a lane's head block: everything it changes is named, but for the tests that follow (R67). -/
theorem commitHead_frame (hm : s.lanes[n].mounted = some i) (hc : s.cdr.records[i] = some c)
    (hq : s.asm[n].sealedQueue = head :: rest) : ∃ more, commitHead n b s =
      { s with
        link := (insertEntry n i c.label b head.runs (commitRecord i s)).link
        streams := heardRuns i b head.runs s.streams
        pool := { s.pool with held := { s.pool.held with assembly := upd s.pool.held.assembly n (· - 16) } }
        asm := upd s.asm n fun a => { a with sealedQueue := rest }
        lanes := upd s.lanes n fun l => { l with tapePosition := some (advanced c).endOfData }
        gov := upd s.gov n countBlock
        cdr := { s.cdr with records := s.cdr.records.set i (some { advanced c with needsLocate := false }) }
        cat := (entered n i c.label b head.runs s).cat
        due := s.due ++ more } := by
  rw [commitHead, mountedRecord_some hm hc, hq]
  dsimp only
  rw [catalogued_eq hm hc]
  generalize (insertEntry n i c.label b head.runs (commitRecord i s)).link = link
  obtain ⟨heard, told⟩ := commitRuns_frame i b head.runs (catalogued n i c b head.runs link s)
  rw [told]
  obtain ⟨later, counted⟩ := countDelivered_reportEmpty n (freeAssembly n (modAsm n
    (fun a => { a with sealedQueue := rest })
    { catalogued n i c b head.runs link s with
      streams := heardRuns i b head.runs s.streams
      due := s.due ++ heard }))
  refine ⟨heard ++ ([.compressorTake] ++ later), counted.trans ?_⟩
  rw [← List.append_assoc, ← List.append_assoc]
  rfl

end

/-! ## What follows a commit (R67, R68, R69) -/

theorem earlyWarning_later {early : Bool} {k : Nat} (h : s.lanes[n].allowance = some k) :
    earlyWarning n early s = modLane n (fun l => { l with allowance := some (k - 1) }) s := by
  rw [earlyWarning, h]

theorem earlyWarning_first (h : s.lanes[n].allowance = none) : earlyWarning n true s =
    raise .laneEw (some n) (modLane n (fun l => { l with allowance := some s.asm[n].sealedQueue.length }) s) := by
  rw [earlyWarning, h]
  rfl

theorem earlyWarning_none (h : s.lanes[n].allowance = none) : earlyWarning n false s = s := by
  rw [earlyWarning, h]
  rfl

/-- The allowance is spent, or no block waits for what is left of it (R68). -/
def allowanceSpent (n : LaneId) (s : State) : Prop :=
  ∃ k, s.lanes[n].allowance = some k ∧ (k = 0 ∨ s.asm[n].sealedQueue = [])

/-- The mounted cartridge is FULL at the limit of its end of data (R105). -/
def atLimit (n : LaneId) (s : State) : Prop :=
  ∃ i c, s.lanes[n].mounted = some i ∧ s.cdr.records[i] = some c ∧ c.endOfData = 4294967295 ∧ c.state = .full

theorem cartridgeEnded_iff (n : LaneId) (s : State) :
    cartridgeEnded n s = true ↔ allowanceSpent n s ∨ atLimit n s := by
  rw [cartridgeEnded, Bool.or_eq_true]
  refine or_congr ?spent ?limit
  case spent =>
    rw [allowanceSpent]
    cases s.lanes[n].allowance with
    | none => simp
    | some k => simp
  case limit =>
    have read : atLimit n s ↔ ∃ p, mountedRecord n s = some p ∧ p.2.endOfData = 4294967295 ∧ p.2.state = .full := by
      constructor
      · rintro ⟨i, c, hm, hc, full⟩
        exact ⟨(i, c), mountedRecord_some hm hc, full⟩
      · rintro ⟨⟨i, c⟩, hr, full⟩
        obtain ⟨hm, hc⟩ := (mountedRecord_iff n s i c).1 hr
        exact ⟨i, c, hm, hc, full⟩
    rw [read]
    cases mountedRecord n s with
    | none => simp
    | some p =>
      refine ((Bool.and_eq_true_iff).trans (and_congr decide_eq_true_iff decide_eq_true_iff)).trans ?_
      simp [max32]

theorem continueWriting_ends (h : allowanceSpent n s ∨ atLimit n s) : continueWriting n s = endCartridge n s :=
  if_pos ((cartridgeEnded_iff n s).2 h)

/-- The lane goes on with a cartridge that is not ended (R67). -/
theorem continueWriting_goes (hs : ¬ allowanceSpent n s) (hl : ¬ atLimit n s) : continueWriting n s =
    if s.lanes[n].claim = .restore then grantRestore n s
    else if s.asm[n].sealedQueue = [] then enterHold n .queueEmpty s
    else sendHead n s :=
  if_neg (mt (cartridgeEnded_iff n s).1 (not_or.2 ⟨hs, hl⟩))

/-- A cartridge ended: FULL, the lane's allowance absent, the notice and the event (R68, R69). -/
def cartridgeTold (n : LaneId) (i : CartId) (c : Cart) (s : State) : State :=
  raise .laneFull (some n) (offerNotice (.cartridgeFull n i c.label c.endOfData) { s with
    cdr := { s.cdr with records := s.cdr.records.set i (some { c with
      state := if c.state = .scratch ∨ c.state = .filling then .full else c.state }) }
    lanes := upd s.lanes n fun l => { l with allowance := none } })

/-- Behind its end the lane ejects the cartridge, or grants a pending restore claim first (R68, R69). -/
theorem endCartridge_eq (hm : s.lanes[n].mounted = some i) (hc : s.cdr.records[i] = some c) :
    endCartridge n s =
      if s.lanes[n].claim = .restore then
        grantRestore n (modLane n (fun l => { l with ejectPending := true }) (cartridgeTold n i c s))
      else sendEject n (cartridgeTold n i c s) := by
  have claim : (cartridgeTold n i c s).lanes[n].claim = s.lanes[n].claim := by
    rw [cartridgeTold, raise, post_lanes, offerNotice_lanes, upd_same]
  rw [endCartridge, mountedRecord_some hm hc, ← claim]
  dsimp only
  rw [modRecord_some _ hc]
  rfl

end Sys2Proof.Machine

namespace Sys2Proof.Proofs

open Sys2Proof Sys2Proof.Machine

/-- Settles O37: the answers by the command in flight, the commit by what `commitHead` changes, its sequel by whether the
cartridge is ended. -/
theorem writeAnswersAndCommit : Obligations.WriteAnswersAndCommit := by
  refine ⟨fun n early r s => ?answers, fun n b i c head rest s hm hc hq once => ?commit, fun n early s => ?sequel⟩
  case answers =>
    intro u kind answered mediaEnd
    refine ⟨fun b hk => ⟨?_, ?_, fun hr => ?_, fun hr hm => ?_, fun i c hr hm hc => ?_⟩, fun k hk => ⟨?_, ?_⟩⟩
    · exact outside_congr (writeDone_write hk)
    · exact outside_congr (writeMediaEnd_write hk)
    · exact outside_congr (f := if r = .mediaEnd then writeMediaEnd n else writeFail n)
        (by rw [if_pos hr]; exact writeMediaEnd_write hk)
    · exact outside_congr (f := if r = .mediaEnd then writeMediaEnd n else writeFail n)
        (by rw [if_neg hr]; exact writeFail_unmounted hk hm)
    · exact outside_congr (f := if r = .mediaEnd then writeMediaEnd n else writeFail n)
        (by rw [if_neg hr]; exact writeFail_mounted hk hm hc)
    · exact outside_congr (stepDone_step hk)
    · exact outside_congr (stepFail_step hk)
  case commit =>
    intro t eod state entry
    obtain ⟨more, committed⟩ := commitHead_frame (b := b) hm hc hq
    have ht : t = _ := committed
    clear_value t
    subst ht
    refine ⟨?record, fun j hj => ?others, rfl, rfl, rfl, ?place, fun below => ?quiet, fun old full oldest => ?high, rfl,
      rfl, rfl, rfl, fun r hr => ?listed, fun k hk => ?unlisted⟩
    case record => exact Vector.getElem_set_self _
    case others => exact upd_other s.cdr.records i j (fun _ => _) hj
    case place => exact upd_same _ _ _
    case quiet =>
      rw [commitRecord_eq hc]
      exact insertEntry_quiet _ _ _ _ _ _ below
    case high =>
      rw [commitRecord_eq hc]
      refine (insertEntry_high n i c.label b head.runs _ (old := old) ?_ ?_).trans (offerNotice_link_congr _ rfl rfl)
      · exact full
      · exact oldest
    case listed =>
      intro st span heard
      have hears : (heardRuns i b head.runs s.streams)[r.stream] = heardRun i b r st := heardRuns_listed once hr _
      exact ⟨fun front sp hf hs => hears.trans (heardRun_grows r hf hs), fun hs =>
        ⟨fun room => hears.trans (heardRun_adds r hs room), fun full => hears.trans (heardRun_drops r hs full)⟩⟩
    case unlisted => exact heardRuns_other hk _
  case sequel =>
    intro l allow event spent limit
    refine ⟨fun k hk => earlyWarning_later hk, fun ha he => ?_, fun ha he => ?_, continueWriting_ends,
      fun hs hl => ⟨fun hr => ?_, fun hr hq => ?_, fun hr hq => ?_⟩, fun i c hm hc => ⟨fun hr => ?_, fun hr => ?_⟩⟩
    · rw [he]
      exact earlyWarning_first ha
    · rw [he]
      exact earlyWarning_none ha
    · rw [continueWriting_goes hs hl, if_pos hr]
    · rw [continueWriting_goes hs hl, if_neg hr, if_pos hq]
    · rw [continueWriting_goes hs hl, if_neg hr, if_neg hq]
    · exact (endCartridge_eq hm hc).trans (if_pos hr)
    · exact (endCartridge_eq hm hc).trans (if_neg hr)

end Sys2Proof.Proofs
end

section
/-! PROOFS. Claims: the restore's and the verify engine's claims on a lane, the write claim of a seal, the suspension of
a pass and the release of its lane (R73, R74, R153, R154). -/

namespace Sys2Proof.Machine

variable {n : LaneId} {s : State} {cause : SuspendCause}

/-! ## A claim granted (R73) -/

/-- On a WRITE lane that is given to a reading client the mounted cartridge needs a locate (R73). -/
def markLocate (n : LaneId) (s : State) : State :=
  if s.lanes[n].role.isWrite = true then setNeedsLocate n true s else s

section
variable (n : LaneId) (s : State)

@[simp] theorem markLocate_lanes : (markLocate n s).lanes = s.lanes := by unfold markLocate; split <;> simp
@[simp] theorem markLocate_map : (markLocate n s).cdr.map = s.cdr.map := by unfold markLocate; split <;> simp
@[simp] theorem markLocate_cat : (markLocate n s).cat = s.cat := by unfold markLocate; split <;> simp
@[simp] theorem markLocate_asm : (markLocate n s).asm = s.asm := by unfold markLocate; split <;> simp

theorem markLocate_records (i : CartId) : (markLocate n s).cdr.records[i] =
    if (∃ p, s.lanes[n].role = .write p) ∧ s.lanes[n].mounted = some i then
      (s.cdr.records[i]).map (fun c => { c with needsLocate := true })
    else s.cdr.records[i] := by
  rw [markLocate]
  by_cases hw : s.lanes[n].role.isWrite = true
  · rw [if_pos hw, setNeedsLocate_records]
    exact if_congr (and_iff_right ((Role.isWrite_iff _).1 hw)).symm rfl rfl
  · rw [if_neg hw, if_neg fun h => hw ((Role.isWrite_iff _).2 h.1)]

/-- A lane whose restore claim has been granted (R73). -/
def grantedToRestore (l : Lane) : Lane :=
  { l with state := .reading, holdReason := none, claim := .none, activity := .restore, releasing := false,
           discard := false, readBlock := none }

/-- A lane whose verify claim has been granted (R73). -/
def grantedToVerify (l : Lane) : Lane := { l with state := .reading, holdReason := none, activity := .verify }

theorem grantRestore_eq : grantRestore n s = markLocate n (releasePlace n (setLaneState n .reading (modLane n (fun l =>
    { l with claim := .none, activity := .restore, releasing := false, discard := false, readBlock := none }) s))) := rfl

theorem grantVerify_eq : grantVerify n s =
    markLocate n (setLaneState n .reading (modLane n (fun l => { l with activity := .verify }) s)) := rfl

theorem grantRestore_lanes : (grantRestore n s).lanes = upd s.lanes n grantedToRestore := by
  rw [grantRestore_eq, markLocate_lanes, releasePlace_lanes, setLaneState_context, modLane_lanes, upd_upd]
  rfl

theorem grantVerify_lanes : (grantVerify n s).lanes = upd s.lanes n grantedToVerify := by
  rw [grantVerify_eq, markLocate_lanes, setLaneState_context, modLane_lanes, upd_upd]
  rfl

theorem grantRestore_place : (grantRestore n s).cat.places[n] = false := by
  rw [grantRestore_eq, markLocate_cat]
  exact releasePlace_place _ _

@[simp] theorem grantRestore_map : (grantRestore n s).cdr.map = s.cdr.map := by simp [grantRestore_eq]
@[simp] theorem grantRestore_asm : (grantRestore n s).asm = s.asm := by simp [grantRestore_eq]
@[simp] theorem grantVerify_map : (grantVerify n s).cdr.map = s.cdr.map := by simp [grantVerify_eq]
@[simp] theorem grantVerify_asm : (grantVerify n s).asm = s.asm := by simp [grantVerify_eq]
@[simp] theorem grantVerify_cat : (grantVerify n s).cat = s.cat := by simp [grantVerify_eq]

theorem grantRestore_records (i : CartId) : (grantRestore n s).cdr.records[i] =
    if (∃ p, s.lanes[n].role = .write p) ∧ s.lanes[n].mounted = some i then
      (s.cdr.records[i]).map (fun c => { c with needsLocate := true })
    else s.cdr.records[i] := by
  rw [grantRestore_eq, markLocate_records, releasePlace_lanes, releasePlace_cdr, setLaneState_context, setLaneState_cdr,
    modLane_lanes, modLane_cdr, upd_upd, upd_same]

theorem grantVerify_records (i : CartId) : (grantVerify n s).cdr.records[i] =
    if (∃ p, s.lanes[n].role = .write p) ∧ s.lanes[n].mounted = some i then
      (s.cdr.records[i]).map (fun c => { c with needsLocate := true })
    else s.cdr.records[i] := by
  rw [grantVerify_eq, markLocate_records, setLaneState_context, setLaneState_cdr, modLane_lanes, modLane_cdr, upd_upd,
    upd_same]

end

/-! ## A restore claim (R73) -/

theorem claimRestore_granted (h : s.lanes[n].state = .ready ∨ s.lanes[n].state = .hold) :
    claimRestore n s = grantRestore n s := by
  unfold claimRestore
  obtain h | h := h <;> rw [h]

theorem claimRestore_pends (h : s.lanes[n].state = .writing ∨ s.lanes[n].state = .loading ∨
    (s.lanes[n].state = .locating ∧ s.lanes[n].activity = .none)) : claimRestore n s = pendRestore n s := by
  unfold claimRestore
  obtain h | h | ⟨h, ha⟩ := h
  · rw [h]
  · rw [h]
  · rw [h, ha]

theorem claimRestore_suspends (h : s.lanes[n].state = .locating ∨ s.lanes[n].state = .reading)
    (ha : s.lanes[n].activity = .verify) : claimRestore n s = suspendPass n .restore (pendRestore n s) := by
  unfold claimRestore
  obtain h | h := h <;> rw [h, ha]

theorem claimRestore_refused (h : s.lanes[n].state = .offline ∨ s.lanes[n].state = .empty ∨
    s.lanes[n].state = .unknownMedia ∨ s.lanes[n].state = .unloading ∨ s.lanes[n].state = .ejected ∨
    s.lanes[n].state = .fault) : claimRestore n s = s := by
  unfold claimRestore
  obtain h | h | h | h | h | h := h <;> rw [h]

/-! ## The write claim of a seal (R73) -/

theorem hasMarkSealed_iff (n : LaneId) (s : State) :
    hasMarkSealed n s = true ↔ ∃ b ∈ s.asm[n].sealedQueue, b.cause = .mark := by
  simp [hasMarkSealed]

/-- A write claim arises at a seal: a WRITE lane serves a verify pass with no claim pending, and enough waits (R73). -/
def writeClaimArises (n : LaneId) (s : State) : Prop :=
  (∃ p, s.lanes[n].role = .write p) ∧ s.lanes[n].activity = .verify ∧ s.lanes[n].claim = .none ∧
    (min s.settings.resumeMark (s.pool.quotas.assembly[n] / 16) ≤ s.asm[n].sealedQueue.length ∨
      ∃ b ∈ s.asm[n].sealedQueue, b.cause = .mark)

theorem writeClaimArises_iff (n : LaneId) (s : State) : writeClaimArises n s ↔
    s.lanes[n].role.isWrite = true ∧ s.lanes[n].activity = .verify ∧ s.lanes[n].claim = .none ∧
      (resumeMark n s ≤ s.asm[n].sealedQueue.length ∨ hasMarkSealed n s = true) := by
  rw [Role.isWrite_iff, hasMarkSealed_iff]
  rfl

theorem writeClaim_arises (h : writeClaimArises n s) : writeClaim n s =
    suspendPass n .write (laneReport n (modLane n (fun l => { l with claim := .write }) s)) :=
  if_pos ((writeClaimArises_iff n s).1 h)

theorem writeClaim_none (h : ¬ writeClaimArises n s) : writeClaim n s = s := if_neg (mt (writeClaimArises_iff n s).2 h)

/-! ## The suspension of a pass (R153, R154) -/

/-- The context of a pass that is suspended with a cause, its block in hand as it was. -/
def suspended (n : LaneId) (cause : SuspendCause) (s : State) : State :=
  modCtx n (fun c => { c with state := .suspended, cause := some cause }) s

theorem suspendPass_idle (h : s.vfy.contexts[n].state = .idle) : suspendPass n cause s = releaseLane n s := by
  rw [suspendPass, h]

theorem suspendPass_suspended (h : s.vfy.contexts[n].state = .suspended) :
    suspendPass n cause s = modCtx n (fun c => { c with cause := some cause }) s := by
  rw [suspendPass, h]

theorem suspendPass_pages (h : s.vfy.contexts[n].state = .running) (hs : s.vfy.contexts[n].stage = .pages) :
    suspendPass n cause s = releaseLane n (withdrawRead (.verify n)
      (modCtx n (fun c => { c with stage := .none, inHand := none }) (suspended n cause s))) := by
  rw [suspendPass, h, hs]
  rfl

theorem modCtx_modCtx (f g : VerifyContext → VerifyContext) :
    modCtx n g (modCtx n f s) = modCtx n (fun c => g (f c)) s := by
  simp [modCtx]

theorem suspendPass_read (h : s.vfy.contexts[n].state = .running) (hs : s.vfy.contexts[n].stage = .read)
    (hc : s.lanes[n].command = none) :
    suspendPass n cause s = releaseLane n (freeRead 16 (modCtx n (fun c => { c with pages := false })
      (modCtx n (fun c => { c with stage := .none, inHand := none }) (suspended n cause s)))) := by
  rw [suspendPass, h, hs, modCtx_modCtx]
  dsimp only
  exact if_neg (by rw [modCtx_lanes, hc]; decide)

theorem suspendPass_keeps (h : s.vfy.contexts[n].state = .running) (hs : s.vfy.contexts[n].stage = .none ∨
    s.vfy.contexts[n].stage = .check ∨ (s.vfy.contexts[n].stage = .read ∧ s.lanes[n].command ≠ none)) :
    suspendPass n cause s = releaseLane n (suspended n cause s) := by
  rw [suspendPass, h]
  dsimp only
  obtain hs | hs | ⟨hs, hc⟩ := hs
  · rw [hs]
    rfl
  · rw [hs]
    rfl
  · rw [hs]
    exact if_pos (Option.isSome_iff_ne_none.2 hc)

/-! ## Release (R74) -/

theorem releaseLane_waits (h : s.lanes[n].command ≠ none) :
    releaseLane n s = modLane n (fun l => { l with releasing := true }) s := if_pos (Option.isSome_iff_ne_none.2 h)

theorem releaseLane_free (h : s.lanes[n].command = none) : releaseLane n s = doRelease n s :=
  if_neg (by rw [h]; decide)

/-- What a release does with a lane that serves nobody any more: the claim, the eject, or READY (R74). -/
theorem doRelease_eq : doRelease n s =
    let v := modLane n (fun l => { l with activity := .none, releasing := false, discard := false, readBlock := none }) s
    if s.lanes[n].claim = .restore then grantRestore n v
    else if s.lanes[n].ejectPending = true then sendEject n v
    else becomeReady n (modLane n (fun l => { l with claim := .none }) v) := by
  unfold doRelease
  dsimp only
  rw [modLane_lanes, upd_same]

end Sys2Proof.Machine

namespace Sys2Proof.Proofs

open Sys2Proof Sys2Proof.Machine

/-- Settles O50: the claim by the lane's state, the grants field by field, the suspension by the pass's state and stage,
the release by what is pending. -/
theorem laneClaimsAndRelease : Obligations.LaneClaimsAndRelease := by
  intro n cause s l c onLane pend needs
  refine ⟨claimRestore_granted, claimRestore_pends, fun h => claimRestore_suspends h.1 h.2, claimRestore_refused,
    ⟨?_, grantRestore_place n s, grantRestore_records n s, grantRestore_map n s, grantRestore_asm n s, fun m hm => ?_⟩,
    ⟨?_, grantVerify_records n s, grantVerify_map n s, grantVerify_asm n s, grantVerify_cat n s, fun m hm => ?_⟩,
    ⟨writeClaim_arises, writeClaim_none⟩, suspendPass_idle, suspendPass_suspended, fun h => ?_, releaseLane_waits,
    releaseLane_free, fun hr => ?_, fun hr he => ?_, fun hr he => ?_⟩
  · rw [grantRestore_lanes, upd_same]
    rfl
  · rw [grantRestore_lanes, upd_other _ _ _ _ hm]
  · rw [grantVerify_lanes, upd_same]
    rfl
  · rw [grantVerify_lanes, upd_other _ _ _ _ hm]
  · exact ⟨suspendPass_pages h, suspendPass_read h, suspendPass_keeps h⟩
  · exact doRelease_eq.trans (if_pos hr)
  · exact doRelease_eq.trans ((if_neg hr).trans (if_pos he))
  · exact doRelease_eq.trans ((if_neg hr).trans (if_neg (by rw [he]; decide)))

end Sys2Proof.Proofs
end

section
/-! PROOFS. Giving up: what a pass and the restore let go when their lane is lost, and what the lane's own fields keep
(R31, R36, R43, R44, R157, R168). -/

namespace Sys2Proof.Machine

variable {n : LaneId} {s t u : State} {c : RestoreContext}

/-! ## A read withdrawn (R72) -/

/-- A lane whose client has withdrawn its read: the answer in flight, if there is one, will be discarded (R72). -/
def unread (l : Lane) : Lane :=
  if l.command.isSome = true then { l with discard := true, readBlock := none } else { l with readBlock := none }

theorem withdrawLaneRead_eq (n : LaneId) (s : State) : withdrawLaneRead n s = modLane n unread s := by
  unfold withdrawLaneRead
  split
  · next h => exact modLane_congr (by rw [unread, if_pos h])
  · next h => exact modLane_congr (by rw [unread, if_neg h])

theorem unread_unread (l : Lane) : unread (unread l) = unread l := by
  by_cases h : l.command.isSome = true <;> simp [unread, h]

/-- Without a command in flight and without a read asked for there is nothing to withdraw. -/
theorem unread_idle {l : Lane} (hc : l.command = none) (hr : l.readBlock = none) : unread l = l := by
  rw [unread, if_neg (by rw [hc]; decide), ← hr]

/-- A field that is not of the read stands at a withdrawal. -/
theorem unread_field {α : Type} (f : Lane → α) (hf : ∀ l d r, f { l with discard := d, readBlock := r } = f l) (l : Lane) :
    f (unread l) = f l := by
  unfold unread
  split
  · exact hf l true none
  · exact hf l l.discard none

/-- The lanes with or without lane `n`'s read withdrawn. -/
def ReadLeft (n : LaneId) (v w : Vector Lane 4) : Prop := w = v ∨ w = upd v n unread

theorem ReadLeft.trans {v w x : Vector Lane 4} (h : ReadLeft n v w) (k : ReadLeft n w x) : ReadLeft n v x := by
  obtain rfl | rfl := h
  · exact k
  · refine .inr (k.elim id fun e => e.trans ?_)
    rw [upd_upd]
    exact upd_congr _ _ _ _ (unread_unread _)

/-! ## Pages and slots let go (R31, R43, R44) -/

/-- `t` is `s` but for pages of the pool, the expander's requests, the read that lane `n` expects, and further tests
owed. -/
def LetsGo (n : LaneId) (s t : State) : Prop := ∃ pool exp lanes more, ReadLeft n s.lanes lanes ∧
  t = { s with pool := pool, exp := exp, lanes := lanes, due := s.due ++ more }

/-- A change of pages, of the expander's requests and of the tests owed alone. -/
theorem letsGo_pages {pool : Pool} {exp : Expander} {more : List Due} :
    LetsGo n s { s with pool := pool, exp := exp, due := s.due ++ more } :=
  ⟨pool, exp, s.lanes, more, .inl rfl, rfl⟩

theorem LetsGo.refl (n : LaneId) (s : State) : LetsGo n s s :=
  ⟨s.pool, s.exp, s.lanes, [], .inl rfl, by rw [List.append_nil]⟩

theorem LetsGo.trans (h : LetsGo n s t) (k : LetsGo n t u) : LetsGo n s u := by
  obtain ⟨_, _, _, l, hl, rfl⟩ := h
  obtain ⟨p, e, v, m, kl, rfl⟩ := k
  exact ⟨p, e, v, l ++ m, hl.trans kl, by rw [List.append_assoc]⟩

theorem letsGo_freeRead (n : LaneId) (k : Nat) (s : State) : LetsGo n s (freeRead k s) := by
  unfold freeRead
  split
  · exact .refl n s
  · exact letsGo_pages

theorem letsGo_withdrawRead (n : LaneId) (c : ReadClient) (s : State) : LetsGo n s (withdrawRead c s) := by
  unfold withdrawRead
  split
  · exact letsGo_pages
  · exact .refl n s

theorem letsGo_modExp (n : LaneId) (f : Expander → Expander) (s : State) : LetsGo n s (modExp f s) :=
  ⟨s.pool, f s.exp, s.lanes, [], .inl rfl, by rw [List.append_nil]; rfl⟩

theorem letsGo_modSlot (n : LaneId) (c : ReadClient) (f : Option ExpandRequest → Option ExpandRequest) (s : State) :
    LetsGo n s (modSlot c f s) := by
  cases c with
  | restore => exact letsGo_modExp n (fun e => { e with restoreSlot := f e.restoreSlot }) s
  | verify m => exact letsGo_modExp n (fun e => { e with verifySlots := upd e.verifySlots m f }) s

theorem letsGo_surrenderPages (n : LaneId) (c : ReadClient) (k : Nat) (s : State) :
    LetsGo n s (surrenderPages c k s) := by
  unfold surrenderPages
  split
  · exact letsGo_modExp n _ s
  · split
    · exact letsGo_modSlot n _ _ s
    · exact letsGo_freeRead n k s

theorem letsGo_emptySlot (n : LaneId) (c : ReadClient) (s : State) : LetsGo n s (emptySlot c s) := by
  unfold emptySlot
  split
  · exact .refl n s
  · exact (letsGo_modSlot n c _ s).trans (letsGo_freeRead n _ _)

theorem letsGo_abandonPages (n : LaneId) (c : ReadClient) (k : Nat) (s : State) : LetsGo n s (abandonPages c k s) :=
  (letsGo_emptySlot n c s).trans (letsGo_surrenderPages n c k _)

theorem letsGo_withdrawLaneRead (n : LaneId) (s : State) : LetsGo n s (withdrawLaneRead n s) :=
  ⟨s.pool, s.exp, upd s.lanes n unread, [], .inr rfl, by rw [List.append_nil, withdrawLaneRead_eq]; rfl⟩

theorem letsGo_withdrawPass (n : LaneId) (s : State) : LetsGo n s (withdrawPass n s) := by
  unfold withdrawPass
  dsimp only
  split
  · exact .refl n s
  · exact letsGo_withdrawRead n _ s
  · exact (letsGo_withdrawLaneRead n s).trans (letsGo_freeRead n _ _)
  · exact letsGo_abandonPages n _ _ s

/-! ## What stands when a lane is lost -/

/-- What stands of a state when a pass or a restore that reads on lane `n` is told that the lane is lost: of the lanes
only the read that lane `n` expects may change, and of the tests owed none leaves. -/
structure Stands (n : LaneId) (s t : State) : Prop where
  asm : t.asm = s.asm
  gov : t.gov = s.gov
  cdr : t.cdr = s.cdr
  cat : t.cat = s.cat
  lanes : ReadLeft n s.lanes t.lanes
  due : s.due ⊆ t.due

theorem LetsGo.stands (h : LetsGo n s t) : Stands n s t := by
  obtain ⟨_, _, _, more, hl, rfl⟩ := h
  exact ⟨rfl, rfl, rfl, rfl, hl, List.subset_append_left _ _⟩

theorem Stands.refl (n : LaneId) (s : State) : Stands n s s := (LetsGo.refl n s).stands

theorem Stands.trans (h : Stands n s t) (k : Stands n t u) : Stands n s u :=
  ⟨k.asm.trans h.asm, k.gov.trans h.gov, k.cdr.trans h.cdr, k.cat.trans h.cat, h.lanes.trans k.lanes,
    List.Subset.trans h.due k.due⟩

/-- Another lane's context stands. -/
theorem Stands.other (h : Stands n s t) {m : LaneId} (hm : m ≠ n) : t.lanes[m] = s.lanes[m] := by
  obtain hl | hl := h.lanes
  · rw [hl]
  · rw [hl, upd_other _ _ _ _ hm]

/-- A field of the lane's own context stands, unless it is of the read it expects. -/
theorem Stands.lane {α : Type} (h : Stands n s t) (f : Lane → α)
    (hf : ∀ l d r, f { l with discard := d, readBlock := r } = f l) : f t.lanes[n] = f s.lanes[n] := by
  obtain hl | hl := h.lanes
  · rw [hl]
  · rw [hl, upd_same, unread_field f hf]

/-- With no command in flight and no read asked for the lanes stand as they are. -/
theorem Stands.same (h : Stands n s t) (hc : s.lanes[n].command = none) (hr : s.lanes[n].readBlock = none) :
    t.lanes = s.lanes := by
  obtain hl | hl := h.lanes
  · exact hl
  · rw [hl, upd_self _ _ _ (unread_idle hc hr)]

/-! ## The end of a pass (R157) -/

section
variable {res : VerifyResult}

theorem endPass_of_idle (h : s.vfy.contexts[n].state = .idle) : endPass n res s = s := if_pos h

theorem endPass_of_pass (h : s.vfy.contexts[n].state ≠ .idle) : endPass n res s =
    post .verifyStart (passNotice n s.vfy.contexts[n] res (modCtx n VerifyContext.ended (withdrawPass n s))) := if_neg h

theorem endPass_stands (n : LaneId) (res : VerifyResult) (s : State) : Stands n s (endPass n res s) := by
  by_cases h : s.vfy.contexts[n].state = .idle
  · rw [endPass_of_idle h]
    exact .refl n s
  · have gone := (letsGo_withdrawPass n s).stands
    rw [endPass_of_pass h, passNotice, offerNotice_frame]
    exact ⟨gone.asm, gone.gov, gone.cdr, gone.cat, gone.lanes, List.Subset.trans gone.due (List.subset_append_left _ _)⟩

@[simp] theorem endPass_rse (n : LaneId) (res : VerifyResult) (s : State) : (endPass n res s).rse = s.rse := by
  by_cases h : s.vfy.contexts[n].state = .idle
  · rw [endPass_of_idle h]
  · obtain ⟨_, _, _, _, -, gone⟩ := letsGo_withdrawPass n s
    rw [endPass_of_pass h, passNotice, offerNotice_frame, gone]
    rfl

/-- Whatever stood there, the lane's context is IDLE behind it (R157). -/
theorem endPass_idle (n : LaneId) (res : VerifyResult) (s : State) : (endPass n res s).vfy.contexts[n].state = .idle := by
  by_cases h : s.vfy.contexts[n].state = .idle
  · rw [endPass_of_idle h]
    exact h
  · rw [endPass_of_pass h, passNotice, offerNotice_frame]
    show (upd (withdrawPass n s).vfy.contexts n VerifyContext.ended)[n].state = .idle
    rw [upd_same]
    rfl

end

/-! ## The restore told of a lane lost (R168) -/

/-- The active restore, having given up its block in hand: everything of the block is gone from its context. -/
def withoutBlock (c : RestoreContext) : RestoreContext :=
  { c with pages := false, outputPage := false, segment := none, todo := [], damage := none, stage := .start }

/-- Giving up its block the restore lets pages and its read go, and its context forgets the block (R168). -/
theorem giveUp_frame (ends : Bool) (hc : s.rse.active = some c) (hl : c.lane = some n) :
    ∃ v, LetsGo n s v ∧ giveUp ends s = modActive withoutBlock v := by
  let unread := if c.stage = .read ∧ servesRestore n s = true then withdrawLaneRead n s else s
  let kept := withdrawRead .restore unread
  have read : LetsGo n s unread := by
    dsimp only [unread]
    split
    · exact letsGo_withdrawLaneRead n s
    · exact .refl n s
  have pages : LetsGo n kept ((if ends = true then abandonPages .restore c.pageCount
      else surrenderPages .restore c.pageCount) kept) := by
    split
    · exact letsGo_abandonPages n _ _ kept
    · exact letsGo_surrenderPages n _ _ kept
  refine ⟨_, (read.trans (letsGo_withdrawRead n _ unread)).trans pages, ?_⟩
  rw [giveUp, hc]
  dsimp only
  rw [hl]
  rfl

/-- The restore after a lane fault that it survives: without lane and block, FINDING again (R168). -/
def survivor (c : RestoreContext) : RestoreContext :=
  { withoutBlock c with lane := none, laneFaults := 1, state := .finding }

/-- A lane fault reaches the restore: a first one it survives, a further one ends it; beside its context it lets go its
block and may place its notice (R168). -/
theorem restoreLaneFault_frame (hc : s.rse.active = some c) (hl : c.lane = some n) :
    ∃ v link, LetsGo n s v ∧ restoreLaneFault s =
      { v with
        link := link
        rse := { v.rse with active := if c.laneFaults = 0 then some (survivor c) else none }
        due := v.due ++ [if c.laneFaults = 0 then .restoreGo else .restoreActivate] } := by
  obtain ⟨v, gone, given⟩ := giveUp_frame (decide (c.laneFaults ≠ 0)) hc hl
  have held : v.rse.active = some c := by
    obtain ⟨_, _, _, _, -, rfl⟩ := gone
    exact hc
  have without : modActive (fun c => { c with lane := none }) (modActive withoutBlock v) =
      modRse (fun x => { x with active := some { withoutBlock c with lane := none } }) v := by
    simp [modActive, modRse, held]
  rw [restoreLaneFault, hc]
  dsimp only
  rw [given, without]
  by_cases h0 : c.laneFaults = 0
  · simp only [if_pos h0]
    exact ⟨v, v.link, gone, rfl⟩
  · simp only [if_neg h0]
    rw [finishRestore]
    dsimp only [modRse]
    rw [restoreNotice, offerNotice_frame]
    exact ⟨v, _, gone, rfl⟩

theorem restoreLaneFault_stands (hc : s.rse.active = some c) (hl : c.lane = some n) : Stands n s (restoreLaneFault s) := by
  obtain ⟨v, link, gone, told⟩ := restoreLaneFault_frame hc hl
  have stands := gone.stands
  rw [told]
  exact ⟨stands.asm, stands.gov, stands.cdr, stands.cat, stands.lanes,
    List.Subset.trans stands.due (List.subset_append_left _ _)⟩

theorem restoreLaneFault_vfy (hc : s.rse.active = some c) (hl : c.lane = some n) : (restoreLaneFault s).vfy = s.vfy := by
  obtain ⟨v, link, gone, told⟩ := restoreLaneFault_frame hc hl
  obtain ⟨_, _, _, _, -, rfl⟩ := gone
  rw [told]

/-- The restore reads on lane `n`, or its claim is pending there (R63, R75; log entry 29). -/
def RestoreOn (n : LaneId) (s : State) : Prop := ∃ c, s.rse.active = some c ∧ c.lane = some n ∧
  ((s.lanes[n].activity = .restore ∧ s.lanes[n].releasing = false) ∨ s.lanes[n].claim = .restore)

theorem restoreOn_iff (n : LaneId) (s : State) : restoreOn n s = true ↔ RestoreOn n s := by
  rw [restoreOn, RestoreOn]
  cases s.rse.active with
  | none => simp
  | some c => simp [servesRestore]

/-- What the loss of lane `n` makes of the restore: nothing when it was not on the lane; a first time FINDING without
lane and block, a second time its end (R63, R75, R168). -/
def RestoreTold (n : LaneId) (s t : State) : Prop :=
  (¬ RestoreOn n s → t.rse = s.rse) ∧
  ∀ c, RestoreOn n s → s.rse.active = some c → t.rse.queue = s.rse.queue ∧
    (c.laneFaults = 0 → .restoreGo ∈ t.due ∧ t.rse.active = some (survivor c)) ∧
    (c.laneFaults ≠ 0 → .restoreActivate ∈ t.due ∧ t.rse.active = none)

/-- What follows leaves the restore as it is and owes its tests on. -/
theorem RestoreTold.later (h : RestoreTold n s t) (hr : u.rse = t.rse) (hd : t.due ⊆ u.due) : RestoreTold n s u := by
  refine ⟨fun off => hr.trans (h.1 off), fun c on hc => ?_⟩
  rw [hr]
  obtain ⟨queue, first, again⟩ := h.2 c on hc
  exact ⟨queue, fun h0 => (first h0).imp_left (hd ·), fun h0 => (again h0).imp_left (hd ·)⟩

/-- The restore is told of a lane lost, if it was on it. -/
def tellRestore (told : Bool) (s : State) : State := if told = true then restoreLaneFault s else s

/-! A restore that was, or was not, on the lane in state `s` is told in a later state `u`. -/

section
variable (hu : u.rse = s.rse)
include hu

theorem tellRestore_cases (n : LaneId) :
    (¬ RestoreOn n s ∧ tellRestore (restoreOn n s) u = u) ∨
    ∃ c, RestoreOn n s ∧ u.rse.active = some c ∧ c.lane = some n ∧
      tellRestore (restoreOn n s) u = restoreLaneFault u := by
  by_cases h : restoreOn n s = true
  · have on := (restoreOn_iff n s).1 h
    obtain ⟨c, hc, hl, -⟩ := id on
    exact .inr ⟨c, on, by rw [hu, hc], hl, if_pos h⟩
  · exact .inl ⟨mt (restoreOn_iff n s).2 h, if_neg h⟩

theorem tellRestore_stands (n : LaneId) : Stands n u (tellRestore (restoreOn n s) u) := by
  obtain ⟨-, same⟩ | ⟨c, -, hc, hl, told⟩ := tellRestore_cases hu n
  · rw [same]
    exact .refl n u
  · rw [told]
    exact restoreLaneFault_stands hc hl

theorem tellRestore_vfy (n : LaneId) : (tellRestore (restoreOn n s) u).vfy = u.vfy := by
  obtain ⟨-, same⟩ | ⟨c, -, hc, hl, told⟩ := tellRestore_cases hu n
  · rw [same]
  · rw [told]
    exact restoreLaneFault_vfy hc hl

theorem restoreTold_tellRestore (n : LaneId) : RestoreTold n s (tellRestore (restoreOn n s) u) := by
  obtain ⟨off, same⟩ | ⟨c, on, hc, hl, told⟩ := tellRestore_cases hu n
  · rw [same]
    exact ⟨fun _ => hu, fun _ on _ => absurd on off⟩
  · obtain ⟨v, link, ⟨_, _, _, _, -, rfl⟩, hv⟩ := restoreLaneFault_frame hc hl
    rw [told, hv]
    refine ⟨fun off => absurd on off, fun d _ hd => ?_⟩
    obtain rfl : c = d := Option.some.inj (by rw [← hc, hu, hd])
    have queue : u.rse.queue = s.rse.queue := by rw [hu]
    refine ⟨queue, fun h0 => ?_, fun h0 => ?_⟩
    · simp [h0]
    · simp [h0]

end

end Sys2Proof.Machine
end

section
/-! PROOFS. Lane losses: the eject, the reset of a lane, its entry into FAULT, the drive's reports and its answers to
THREAD, LOCATE and EJECT (R59 to R65, R70 to R72, R75, R78, R89). -/

namespace Sys2Proof.Machine

variable {n : LaneId} {s : State} {h : Hdr} {code : FaultCode}

/-! ## The eject (R62, R64) -/

theorem ejectable_iff (n : LaneId) (s : State) : ejectable n s = true ↔
    (s.lanes[n].state = .ready ∧ s.lanes[n].claim = .none) ∨ s.lanes[n].state = .hold ∨
      s.lanes[n].state = .unknownMedia := by
  simp [ejectable, or_assoc]

theorem laneEject_badArgument (hs : 3 < h.subject) : laneEject h s = refuse h 9 .badArgument s := by
  rw [laneEject, finOf_none (by omega)]

theorem laneEject_ok (hn : h.subject = n) (he : ejectable n s = true) : laneEject h s =
    sendEject n (modLane n (fun l => { l with serverEject := true }) (answer h 9 .ok .none s)) := by
  rw [laneEject, hn, finOf_val]
  exact if_pos he

theorem laneEject_busy (hn : h.subject = n) (he : ¬ ejectable n s = true) (hc : s.lanes[n].command ≠ none) :
    laneEject h s = refuse h 9 .busy s := by
  rw [laneEject, hn, finOf_val]
  refine (if_neg he).trans ?_
  rw [laneRefusal, if_pos (Option.isSome_iff_ne_none.2 hc)]

theorem laneEject_badState (hn : h.subject = n) (he : ¬ ejectable n s = true) (hc : s.lanes[n].command = none) :
    laneEject h s = refuse h 9 .badState s := by
  rw [laneEject, hn, finOf_val]
  refine (if_neg he).trans ?_
  rw [laneRefusal, if_neg (by rw [hc]; decide)]

/-- A command sent, as it stands in its lane's context (R59). -/
def sentNow (k : DriveCommand) (s : State) : InFlight :=
  { command := k, sentAt := s.ttu.time, limit := s.settings.laneTimeout * 100000 }

section
variable (n : LaneId) (s : State)

theorem sendEject_stands :
    Stands n (setLaneState n .unloading (sendCommand n .eject s)) (sendEject n s) := endPass_stands n _ _

theorem sendEject_state : (sendEject n s).lanes[n].state = .unloading := by
  rw [(sendEject_stands n s).lane Lane.state fun _ _ _ => rfl, setLaneState_context, upd_same]

theorem sendEject_command : (sendEject n s).lanes[n].command = some (sentNow .eject s) := by
  rw [(sendEject_stands n s).lane Lane.command fun _ _ _ => rfl, setLaneState_context, upd_same]
  exact congrArg Lane.command (upd_same s.lanes n _)

theorem sendEject_asm : (sendEject n s).asm = s.asm := by
  rw [(sendEject_stands n s).asm, setLaneState_asm]
  rfl

theorem sendEject_idle : (sendEject n s).vfy.contexts[n].state = .idle := endPass_idle n _ _

end

/-! ## LANE_RESET (R75, R89) -/

theorem laneReset_badArgument (hs : 3 < h.subject) : laneResetRequest h s = refuse h 10 .badArgument s := by
  rw [laneResetRequest, finOf_none (by omega)]

theorem laneReset_ok (hn : h.subject = n) : laneResetRequest h s = laneReset n (answer h 10 .ok .none s) := by
  rw [laneResetRequest, hn, finOf_val]

/-- A lane's reset as far as its pass goes: the command is forgotten, the pass ended (R75). -/
def resetPass (n : LaneId) (s : State) : State := endPass n .laneReset (modLane n (fun l => { l with command := none }) s)

theorem resetPass_rse (n : LaneId) (s : State) : (resetPass n s).rse = s.rse := endPass_rse n .laneReset _

/-- The lane's clients told of the reset: the pass, then the restore (R75). -/
def resetTold (n : LaneId) (s : State) : State := tellRestore (restoreOn n s) (resetPass n s)

/-- What a lane keeps over its reset (R75). -/
def keptAtReset (l : Lane) : Lane :=
  { Lane.reset with state := l.state, role := l.role, allowance := l.allowance, fillWanted := l.fillWanted,
                    pickNoRoom := l.pickNoRoom }

section
variable (n : LaneId) (s : State)

theorem laneReset_eq : laneReset n s = modGov n (fun _ => Governor.laneReset) (setLaneState n .offline
    (modLane n keptAtReset (releasePlace n (setNeedsLocate n true (resetTold n s))))) := rfl

theorem resetTold_stands : Stands n (modLane n (fun l => { l with command := none }) s) (resetTold n s) :=
  (endPass_stands n .laneReset _).trans (tellRestore_stands (resetPass_rse n s) n)

/-- A field of the lane but its command and the read it expects is the same when its clients have been told. -/
theorem resetTold_field {α : Type} (f : Lane → α)
    (hf : ∀ l c d r, f { l with command := c, discard := d, readBlock := r } = f l) :
    f (resetTold n s).lanes[n] = f s.lanes[n] := by
  rw [(resetTold_stands n s).lane f fun l d r => hf l l.command d r, modLane_lanes, upd_same]
  exact hf _ none _ _

theorem laneReset_lanes : (laneReset n s).lanes =
    upd (resetTold n s).lanes n fun l => { keptAtReset l with state := .offline, holdReason := none } := by
  rw [laneReset_eq, modGov_lanes, setLaneState_context, modLane_lanes, releasePlace_lanes, setNeedsLocate_lanes, upd_upd]

theorem laneReset_lane : (laneReset n s).lanes[n] =
    { Lane.reset with role := s.lanes[n].role, allowance := s.lanes[n].allowance, fillWanted := s.lanes[n].fillWanted,
                      pickNoRoom := s.lanes[n].pickNoRoom } := by
  rw [laneReset_lanes, upd_same, keptAtReset, resetTold_field n s Lane.role fun _ _ _ _ => rfl,
    resetTold_field n s Lane.allowance fun _ _ _ _ => rfl, resetTold_field n s Lane.fillWanted fun _ _ _ _ => rfl,
    resetTold_field n s Lane.pickNoRoom fun _ _ _ _ => rfl]
  rfl

theorem laneReset_other {m : LaneId} (hm : m ≠ n) : (laneReset n s).lanes[m] = s.lanes[m] := by
  rw [laneReset_lanes, upd_other _ _ _ _ hm, (resetTold_stands n s).other hm, modLane_lanes, upd_other _ _ _ _ hm]

theorem laneReset_place : (laneReset n s).cat.places[n] = false := by
  rw [laneReset_eq, modGov_cat, setLaneState_cat, modLane_cat]
  exact releasePlace_place _ _

theorem laneReset_idle : (laneReset n s).vfy.contexts[n].state = .idle := by
  rw [laneReset_eq, modGov_vfy, setLaneState_vfy, modLane_vfy, releasePlace_vfy, setNeedsLocate_vfy, resetTold,
    tellRestore_vfy (resetPass_rse n s)]
  exact endPass_idle _ _ _

theorem laneReset_asm : (laneReset n s).asm = s.asm := by
  rw [laneReset_eq, modGov_asm, setLaneState_asm, modLane_asm, releasePlace_asm, setNeedsLocate_asm]
  exact (resetTold_stands n s).asm

theorem laneReset_gov : (laneReset n s).gov = upd s.gov n fun _ => Governor.laneReset := by
  rw [laneReset_eq, modGov_gov, setLaneState_offline_gov, upd_upd, modLane_gov, releasePlace_gov, setNeedsLocate_gov,
    (resetTold_stands n s).gov, modLane_gov]

theorem laneReset_map : (laneReset n s).cdr.map = s.cdr.map := by
  rw [laneReset_eq, modGov_cdr, setLaneState_cdr, modLane_cdr, releasePlace_cdr, setNeedsLocate_map]
  exact congrArg Directory.map (resetTold_stands n s).cdr

theorem laneReset_records (i : CartId) : (laneReset n s).cdr.records[i] =
    if s.lanes[n].mounted = some i then (s.cdr.records[i]).map (fun c => { c with needsLocate := true })
    else s.cdr.records[i] := by
  rw [laneReset_eq, modGov_cdr, setLaneState_cdr, modLane_cdr, releasePlace_cdr, setNeedsLocate_records,
    resetTold_field n s Lane.mounted fun _ _ _ _ => rfl, (resetTold_stands n s).cdr, modLane_cdr]

theorem laneReset_restore : RestoreTold n s (laneReset n s) := by
  refine (restoreTold_tellRestore (resetPass_rse n s) n).later ?rse ?due
  case rse =>
    rw [laneReset_eq, modGov_rse, setLaneState_rse, modLane_rse, releasePlace_rse, setNeedsLocate_rse]
    rfl
  case due =>
    rw [laneReset_eq, modGov_due, setLaneState_due, modLane_due]
    refine List.Subset.trans ?_ (List.subset_append_left _ _)
    refine List.Subset.trans ?_ (releasePlace_due _ _)
    rw [setNeedsLocate_due]
    exact List.Subset.refl _

/-- A reply tells the restore nothing: what the reset behind it tells is of the state before the reply. -/
theorem laneReset_answered (h : Hdr) : RestoreTold n s (laneReset n (answer h 10 .ok .none s)) :=
  laneReset_restore n (answer h 10 .ok .none s)

end

/-! ## Entry into FAULT (R63, R70) -/

/-- A lane's context on entry into FAULT (R63). -/
def faulted (code : FaultCode) (l : Lane) : Lane :=
  { l with state := .fault, faultCode := some code, command := none, claim := .none, activity := .none,
           holdReason := none, serverEject := false, readBlock := none, releasing := false, discard := false }

/-- The lane's own part of an entry into FAULT: its context, its place, its cartridge (R63). -/
def atFault (n : LaneId) (code : FaultCode) (s : State) : State :=
  setNeedsLocate n true (releasePlace n (setLaneState n .fault (modLane n (fun l =>
    { l with faultCode := some code, command := none, claim := .none, activity := .none, serverEject := false,
             readBlock := none, releasing := false, discard := false }) s)))

/-- The lane in FAULT, with its clients told. -/
def faultTold (n : LaneId) (code : FaultCode) (s : State) : State :=
  tellRestore (restoreOn n s) (endPass n .laneFault (atFault n code s))

section
variable (n : LaneId) (code : FaultCode) (s : State)

theorem enterFault_eq : enterFault n code s = offerNotice (.laneFault n code (faultTold n code s).lanes[n].mounted)
    (raise .laneFault (some n) (faultTold n code s)) := rfl

theorem atFault_lanes : (atFault n code s).lanes = upd s.lanes n (faulted code) := by
  rw [atFault, setNeedsLocate_lanes, releasePlace_lanes, setLaneState_context, modLane_lanes, upd_upd]
  rfl

theorem atFault_rse : (atFault n code s).rse = s.rse := by
  rw [atFault, setNeedsLocate_rse, releasePlace_rse, setLaneState_rse, modLane_rse]

theorem faultTold_stands : Stands n (atFault n code s) (faultTold n code s) :=
  (endPass_stands n .laneFault _).trans
    (tellRestore_stands ((endPass_rse n .laneFault _).trans (atFault_rse n code s)) n)

/-- The lane has no read left to withdraw, so its clients leave the lanes as they are. -/
theorem faultTold_lanes : (faultTold n code s).lanes = upd s.lanes n (faulted code) := by
  have lane : (atFault n code s).lanes[n] = faulted code s.lanes[n] := by rw [atFault_lanes, upd_same]
  rw [(faultTold_stands n code s).same (by rw [lane]; rfl) (by rw [lane]; rfl), atFault_lanes]

theorem enterFault_lanes : (enterFault n code s).lanes = upd s.lanes n (faulted code) := by
  rw [enterFault_eq, offerNotice_lanes, raise, post_lanes, faultTold_lanes]

theorem enterFault_lane : (enterFault n code s).lanes[n] = faulted code s.lanes[n] := by
  rw [enterFault_lanes, upd_same]

theorem enterFault_cat : (enterFault n code s).cat = (atFault n code s).cat := by
  rw [enterFault_eq, offerNotice_cat, raise, post_cat, (faultTold_stands n code s).cat]

theorem enterFault_place : (enterFault n code s).cat.places[n] = false := by
  rw [enterFault_cat, atFault, setNeedsLocate_cat]
  exact releasePlace_place _ _

theorem enterFault_entries : (enterFault n code s).cat.entries = s.cat.entries := by
  rw [enterFault_cat, atFault, setNeedsLocate_cat, releasePlace_entries, setLaneState_cat, modLane_cat]

theorem enterFault_idle : (enterFault n code s).vfy.contexts[n].state = .idle := by
  rw [enterFault_eq, offerNotice_vfy, raise, post_vfy, faultTold,
    tellRestore_vfy ((endPass_rse n .laneFault _).trans (atFault_rse n code s))]
  exact endPass_idle _ _ _

theorem enterFault_asm : (enterFault n code s).asm = s.asm := by
  rw [enterFault_eq, offerNotice_asm, raise, post_asm, (faultTold_stands n code s).asm, atFault, setNeedsLocate_asm,
    releasePlace_asm, setLaneState_asm, modLane_asm]

theorem enterFault_gov : (enterFault n code s).gov = upd s.gov n fun g => { g with window := none } := by
  rw [enterFault_eq, offerNotice_gov, raise, post_gov, (faultTold_stands n code s).gov, atFault, setNeedsLocate_gov,
    releasePlace_gov, setLaneState_fault_gov, modLane_gov]

theorem enterFault_records (i : CartId) : (enterFault n code s).cdr.records[i] =
    if s.lanes[n].mounted = some i then (s.cdr.records[i]).map (fun c => { c with needsLocate := true })
    else s.cdr.records[i] := by
  rw [enterFault_eq, offerNotice_cdr, raise, post_cdr, (faultTold_stands n code s).cdr, atFault, setNeedsLocate_records,
    releasePlace_lanes, releasePlace_cdr, setLaneState_context, setLaneState_cdr, modLane_lanes, modLane_cdr, upd_upd,
    upd_same]

theorem enterFault_due : (enterFault n code s).due =
    (faultTold n code s).due ++ [.event { kind := .laneFault, qual := some n.val }] := by
  rw [enterFault_eq, offerNotice_due]
  rfl

theorem enterFault_restore : RestoreTold n s (enterFault n code s) := by
  have told := restoreTold_tellRestore ((endPass_rse n .laneFault _).trans (atFault_rse n code s)) n
  refine told.later ?rse ?due
  case rse =>
    rw [enterFault_eq, offerNotice_rse]
    rfl
  case due =>
    rw [enterFault_due]
    exact List.subset_append_left _ _

theorem enterFault_notice : ∃ v, enterFault n code s = offerNotice (.laneFault n code s.lanes[n].mounted) v := by
  refine ⟨raise .laneFault (some n) (faultTold n code s), ?_⟩
  rw [enterFault_eq, faultTold_lanes, upd_same]
  rfl

theorem failCommand_lanes : (failCommand n code s).lanes =
    upd s.lanes n fun l => faulted code { l with tapePosition := none } := by
  rw [failCommand, enterFault_lanes, modLane_lanes, upd_upd]

end

/-! ## The drive's reports and the deadline (R59 to R62) -/

section
variable {cartridge : Bool}

theorem drivePresent_other (hs : s.lanes[n].state ≠ .offline) : drivePresent n cartridge s = s := if_pos hs

theorem drivePresent_empty (hs : s.lanes[n].state = .offline) : drivePresent n false s = setLaneState n .empty s :=
  if_neg (not_not.2 hs)

theorem drivePresent_placed (hs : s.lanes[n].state = .offline) (hb : namedAt (.bay n) s ≠ none) :
    drivePresent n true s = sendThread n s :=
  (if_neg (not_not.2 hs)).trans (if_pos (Option.isSome_iff_ne_none.2 hb))

theorem drivePresent_unplaced (hs : s.lanes[n].state = .offline) (hb : namedAt (.bay n) s = none) :
    drivePresent n true s = setLaneState n .unknownMedia s := by
  rw [drivePresent, if_neg (not_not.2 hs), if_pos rfl, threadIfPlaced, hb]
  rfl

theorem sendThread_eq : sendThread n s = setLaneState n .loading (modLane n (fun l =>
    { l with fillWanted := false, pickNoRoom := false, command := some (sentNow .thread s) }) s) := by
  rw [sendThread, sendCommand, modLane_modLane]
  rfl

theorem commandTimeout_none (hc : s.lanes[n].command = none) : commandTimeout n s = s := by
  rw [commandTimeout, hc]

theorem commandTimeout_some {f : InFlight} (hc : s.lanes[n].command = some f) : commandTimeout n s =
    if f.limit ≤ (s.ttu.time - f.sentAt).toNat then failCommand n .timeout s else s := by
  rw [commandTimeout, hc]
  rfl

end

end Sys2Proof.Machine

namespace Sys2Proof.Proofs

open Sys2Proof Sys2Proof.Machine

/-- Settles O34: LANE_EJECT by whether the lane accepts it, LANE_RESET field by field; a reply leaves all of them. -/
theorem laneEjectAndReset : Obligations.LaneEjectAndReset := by
  intro h s hc u ejectIs resetIs
  refine ⟨fun hs => ⟨exec_taken hc rfl (laneEject_badArgument hs), exec_taken hc rfl (laneReset_badArgument hs)⟩,
    fun n hn => ?_⟩
  intro l may
  have accepts : ejectable n u = true ↔ may := ejectable_iff n u
  refine ⟨fun hm => ⟨_, ?_, rfl, sendEject_state n _, sendEject_command n _, sendEject_idle n _, sendEject_asm n _⟩,
    fun hm hk => ?_, fun hm hk => ?_, ⟨_, ?_, rfl, laneReset_lane n _, ?_, laneReset_place n _, laneReset_idle n _,
      laneReset_asm n _, ?_, fun m hm => ?_, laneReset_answered n _ h, laneReset_records n _, laneReset_map n _,
      fun m hm => laneReset_other n _ hm⟩⟩
  · exact exec_taken hc rfl (laneEject_ok hn (accepts.2 hm))
  · exact exec_taken hc rfl (laneEject_busy hn (mt accepts.1 hm) hk)
  · exact exec_taken hc rfl (laneEject_badState hn (mt accepts.1 hm) hk)
  · exact exec_taken hc rfl (laneReset_ok hn)
  · rw [laneReset_lane]
    rfl
  · rw [laneReset_gov, upd_same]
    rfl
  · rw [laneReset_gov, upd_other _ _ _ _ hm]
    rfl

/-- Settles O35: each report by its equation, the entry into FAULT field by field. -/
theorem driveReportsAndFaults : Obligations.DriveReportsAndFaults := by
  refine ⟨fun n cartridge s => ?reports, fun n code s => ?fault⟩
  case reports =>
    intro u l presentIs
    refine ⟨fun hs => ?_, fun hs hc => ?_, fun hs hc hb => ?_, fun hs hc hb => ?_, sendThread_eq, outside_congr rfl,
      outside_congr rfl, fun hc => ?_, fun f hf => ⟨fun due => ?_, fun early => ?_⟩⟩
    · exact outside_congr (drivePresent_other hs)
    · exact outside_congr (by rw [hc]; exact drivePresent_empty hs)
    · exact outside_congr (by rw [hc]; exact drivePresent_placed hs hb)
    · exact outside_congr (by rw [hc]; exact drivePresent_unplaced hs hb)
    · exact outside_congr (commandTimeout_none hc)
    · exact outside_congr ((commandTimeout_some hf).trans (if_pos due))
    · exact outside_congr ((commandTimeout_some hf).trans (if_neg (Nat.not_le.2 early)))
  case fault =>
    intro t
    have lane : t.lanes[n] = faulted code s.lanes[n] := enterFault_lane n code s
    have gov : t.gov = upd s.gov n fun g => { g with window := none } := enterFault_gov n code s
    rw [lane, gov, upd_same]
    exact ⟨rfl, rfl, rfl, rfl, rfl, rfl, rfl, rfl, enterFault_place n code s, enterFault_entries n code s,
      enterFault_idle n code s, enterFault_asm n code s, rfl, rfl,
      fun m hm => by rw [show t.lanes = _ from enterFault_lanes n code s, upd_other _ _ _ _ hm],
      enterFault_records n code s, by rw [show t.due = _ from enterFault_due n code s]; simp,
      enterFault_restore n code s, enterFault_notice n code s⟩

end Sys2Proof.Proofs
end

section
/-! PROOFS. Drive answers: an answer without its command, and the answers to THREAD, LOCATE, EJECT and READ (R59, R60, R62,
R64, R65, R71, R72, R74). -/

namespace Sys2Proof.Machine

variable {n : LaneId} {s : State} {r : FailReason}

/-! ## An answer for which no command of its kind is in flight (R59; log entry 9) -/

section
variable (hk : inFlight n s ≠ some .thread)
include hk

theorem threadDone_discarded : threadDone n s = s := if_neg hk

theorem threadFail_discarded : threadFail n r s = s := if_neg hk

end

section
variable (hk : ∀ b p, inFlight n s ≠ some (.locate b p))
include hk

theorem locateDone_discarded : locateDone n s = s := by
  unfold locateDone
  split
  · next b p h => exact absurd h (hk b p)
  · rfl

theorem locateFail_discarded : locateFail n r s = s := by
  unfold locateFail
  split
  · next b p h => exact absurd h (hk b p)
  · rfl

end

section
variable (hk : ∀ b, inFlight n s ≠ some (.write b))
include hk

theorem writeDone_discarded {early : Bool} : writeDone n early s = s := by
  unfold writeDone
  split
  · next b h => exact absurd h (hk b)
  · rfl

theorem writeMediaEnd_discarded : writeMediaEnd n s = s := by
  unfold writeMediaEnd
  split
  · next b h => exact absurd h (hk b)
  · rfl

theorem writeFail_discarded : writeFail n s = s := by
  unfold writeFail
  split
  · next b h => exact absurd h (hk b)
  · rfl

end

section
variable (hk : ∀ b, inFlight n s ≠ some (.read b))
include hk

theorem readDone_discarded {block : List Byte} : readDone n block s = s := by
  unfold readDone
  split
  · next b h => exact absurd h (hk b)
  · rfl

theorem readFail_discarded : readFail n r s = s := by
  unfold readFail
  split
  · next b h => exact absurd h (hk b)
  · rfl

end

section
variable (hk : ∀ k, inFlight n s ≠ some (.step k))
include hk

theorem stepDone_discarded : stepDone n s = s := by
  unfold stepDone
  split
  · next k h => exact absurd h (hk k)
  · rfl

theorem stepFail_discarded : stepFail n s = s := by
  unfold stepFail
  split
  · next k h => exact absurd h (hk k)
  · rfl

end

section
variable (hk : inFlight n s ≠ some .eject)
include hk

theorem ejectDone_discarded : ejectDone n s = s := if_neg hk

theorem ejectFail_discarded : ejectFail n r s = s := if_neg hk

end

/-! ## THREAD answered (R60, R62) -/

section
variable (hk : inFlight n s = some .thread)
include hk

theorem threadDone_unknown (hb : namedAt (.bay n) s = none) : threadDone n s = setLaneState n .unknownMedia
    (modLane n (fun l => { l with tapePosition := some 0, driveStep := none, mounted := none, command := none }) s) := by
  rw [threadDone, if_pos hk]
  dsimp only
  rw [clearCommand, modLane_modLane]
  have bay (f : Lane → Lane) : namedAt (.bay n) (modLane n f s) = none := hb
  rw [bay]
  dsimp only
  rw [modLane_modLane]

/-- The record at the bay is mounted; then the lane is granted to a pending restore claim, or READY (R62). -/
theorem threadDone_mounts {i : CartId} (hb : namedAt (.bay n) s = some i) : threadDone n s =
    let v := modLane n (fun l =>
      { l with tapePosition := some 0, driveStep := none, mounted := some i, command := none }) s
    if s.lanes[n].claim = .restore then grantRestore n v else becomeReady n v := by
  rw [threadDone, if_pos hk]
  dsimp only
  rw [clearCommand, modLane_modLane]
  have bay (f : Lane → Lane) : namedAt (.bay n) (modLane n f s) = some i := hb
  rw [bay]
  dsimp only
  rw [modLane_modLane, modLane_lanes, upd_same]

theorem threadFail_thread : threadFail n r s = failCommand n (if r = .loadError then .loadFail else .mechanism) s :=
  if_pos hk

end

/-! ## LOCATE answered (R60, R65, R72) -/

section
variable {b : Nat} {p : Purpose}

theorem locateDone_write (hk : inFlight n s = some (.locate b .write)) : locateDone n s =
    let w := setNeedsLocate n false (modLane n (fun l => { l with tapePosition := some b, command := none }) s)
    if s.lanes[n].claim = .restore then grantRestore n w else sendHead n (setLaneState n .writing w) := by
  rw [locateDone, hk]
  dsimp only
  rw [clearCommand, modLane_modLane, locatedWrite]
  dsimp only
  rw [setNeedsLocate_lanes, modLane_lanes, upd_same]
  rfl

theorem locateDone_read (hk : inFlight n s = some (.locate b .read)) (hr : s.lanes[n].releasing = false) :
    locateDone n s = post (.readAgain n) (sendCommand n (.read b) (setLaneState n .reading
      (modLane n (fun l => { l with tapePosition := some b, command := none }) s))) := by
  rw [locateDone, hk]
  dsimp only
  rw [clearCommand, modLane_modLane, locatedRead, modLane_lanes, upd_same, if_neg (by rw [hr]; decide)]

theorem locateDone_released (hk : inFlight n s = some (.locate b .read)) :
    locateDone n s = post (.readAgain n) (locatedRead n b
      (modLane n (fun l => { l with tapePosition := some b, command := none }) s)) := by
  rw [locateDone, hk]
  dsimp only
  rw [clearCommand, modLane_modLane]

theorem locateFail_locate (hk : inFlight n s = some (.locate b p)) : locateFail n r s =
    failCommand n (if r = .readError ∨ r = .mediaEnd then .readFail else .mechanism) s := by
  rw [locateFail, hk]

end

/-! ## EJECT answered (R60, R62, R64, R71; log entry 45) -/

theorem ejectDone_eject (hk : inFlight n s = some .eject) : ejectDone n s =
    let v := ejectAgain n (setLaneState n .ejected (modLane n (fun l =>
      { l with tapePosition := none, driveStep := none, allowance := none, ejectPending := false, serverEject := false,
               command := none }) s))
    if s.lanes[n].serverEject = true then v else fillTest n v := by
  rw [ejectDone, if_pos hk]
  dsimp only
  rw [clearCommand, modLane_modLane]

theorem ejectFail_eject (hk : inFlight n s = some .eject) :
    ejectFail n r s = failCommand n (if r = .loadError then .loadFail else .mechanism) s := if_pos hk

theorem fillTest_written {p : Fin 8} {i : CartId} {c : Cart} (hp : s.lanes[n].role = .write p)
    (hm : s.lanes[n].mounted = some i) (hc : s.cdr.records[i] = some c) : fillTest n s =
      if c.state = .full then post (.scratchPick n) (modLane n (fun l => { l with fillWanted := true }) s) else s := by
  rw [fillTest, hp, mountedRecord_some hm hc]

theorem fillTest_none (h : s.lanes[n].role = .read ∨ s.lanes[n].mounted = none) : fillTest n s = s := by
  unfold fillTest
  split
  · next i c hp hr =>
    obtain role | mounted := h
    · rw [role] at hp
      cases hp
    · rw [mountedRecord_eq, mounted] at hr
      cases hr
  · rfl

/-! ## READ answered, and the request for a block (R59, R60, R72, R74) -/

section
variable {b : Nat} {block : List Byte}

/-- The reading client hears the outcome, unless it has withdrawn (R72). -/
theorem tellReader_eq (n : LaneId) (read : Option (List Byte)) (s : State) : tellReader n read s =
    if s.lanes[n].discard = true then modLane n (fun l => { l with discard := false }) s
    else if s.lanes[n].activity = .verify then passBlock n read s
    else if s.lanes[n].activity = .restore then restoreBlock read s
    else s := by
  rw [tellReader]
  cases s.lanes[n].activity <;> rfl

/-- An answer to READ: the client is told, then a release that waited takes effect (R72, R74). -/
theorem readAnswered_eq (n : LaneId) (position : Option Nat) (read : Option (List Byte)) (s : State) :
    readAnswered n position read s =
      let v := modLane n (fun l => { l with command := none, tapePosition := position, readBlock := none }) s
      let told := if s.lanes[n].discard = true then modLane n (fun l => { l with discard := false }) v
        else if s.lanes[n].activity = .verify then passBlock n read v
        else if s.lanes[n].activity = .restore then restoreBlock read v
        else v
      post (.readAgain n) (if told.lanes[n].releasing = true then doRelease n told else told) := by
  rw [readAnswered]
  dsimp only
  rw [clearCommand, modLane_modLane, tellReader_eq, modLane_lanes, upd_same]
  rfl

theorem readDone_read (hk : inFlight n s = some (.read b)) :
    readDone n block s = readAnswered n (some (b + 1)) (some block) s := by
  rw [readDone, hk]

theorem readFail_read (hk : inFlight n s = some (.read b)) : readFail n r s =
    if r = .readError ∨ r = .mediaEnd then readAnswered n none none s else failCommand n .mechanism s := by
  rw [readFail, hk]

theorem laneRead_busy (hc : s.lanes[n].command ≠ none) : laneRead n b s = s := if_pos (Option.isSome_iff_ne_none.2 hc)

/-- A block asked for of a lane with no command in flight: READ, or LOCATE first (R72). -/
theorem laneRead_free (hc : s.lanes[n].command = none) : laneRead n b s =
    let sent := fun k : DriveCommand => modLane n (fun l => { l with readBlock := some b, command := some (sentNow k s) }) s
    if s.lanes[n].tapePosition = some b then sent (.read b) else setLaneState n .locating (sent (.locate b .read)) := by
  rw [laneRead, if_neg (by rw [hc]; decide)]
  dsimp only
  rw [sendCommand, sendCommand, modLane_modLane, modLane_modLane, modLane_lanes, upd_same]
  rfl

end

end Sys2Proof.Machine

namespace Sys2Proof.Proofs

open Sys2Proof Sys2Proof.Machine

/-- Settles O36: an answer without its command changes nothing; each answer to THREAD, LOCATE and EJECT by its equation;
a failed command by its entry into FAULT. -/
theorem threadLocateEjectAnswers : Obligations.ThreadLocateEjectAnswers := by
  refine ⟨fun n early r block s => ?discarded, fun n r s => ?answered, fun n code s => ⟨rfl, failCommand_lanes n code s⟩⟩
  case discarded =>
    intro u kind discarded
    refine ⟨fun hk => ⟨?_, ?_⟩, fun hk => ⟨?_, ?_⟩, fun hk => ⟨?_, ?_, ?_⟩, fun hk => ⟨?_, ?_⟩, fun hk => ⟨?_, ?_⟩,
      fun hk => ⟨?_, ?_⟩⟩
    · exact outside_congr (threadDone_discarded hk)
    · exact outside_congr (threadFail_discarded hk)
    · exact outside_congr (locateDone_discarded hk)
    · exact outside_congr (locateFail_discarded hk)
    · exact outside_congr (writeDone_discarded hk)
    · exact outside_congr (writeMediaEnd_discarded hk)
    · refine outside_congr (f := if r = .mediaEnd then writeMediaEnd n else writeFail n) ?_
      split
      · exact writeMediaEnd_discarded hk
      · exact writeFail_discarded hk
    · exact outside_congr (readDone_discarded hk)
    · exact outside_congr (readFail_discarded hk)
    · exact outside_congr (stepDone_discarded hk)
    · exact outside_congr (stepFail_discarded hk)
    · exact outside_congr (ejectDone_discarded hk)
    · exact outside_congr (ejectFail_discarded hk)
  case answered =>
    intro u kind onLane
    refine ⟨fun hk => ⟨fun i hb => ⟨fun hr => ?_, fun hr => ?_⟩, fun hb => ?_, ?_⟩,
      fun b p hk => ⟨fun hp => ?_, fun hp hr => ?_, fun hp hr => ?_, ?_⟩,
      fun hk => ⟨?_, fun v => ⟨fun p i c hp hm hc => ⟨fun hf => ?_, fun hf => ?_⟩, fillTest_none⟩, ?_⟩⟩
    · exact outside_congr ((threadDone_mounts hk hb).trans (if_pos hr))
    · exact outside_congr ((threadDone_mounts hk hb).trans (if_neg hr))
    · exact outside_congr (threadDone_unknown hk hb)
    · exact outside_congr (threadFail_thread hk)
    · subst hp
      exact outside_congr (locateDone_write hk)
    · subst hp
      exact outside_congr (locateDone_read hk hr)
    · subst hp
      exact outside_congr (locateDone_released hk)
    · exact outside_congr (locateFail_locate hk)
    · exact outside_congr (ejectDone_eject hk)
    · exact (fillTest_written hp hm hc).trans (if_pos hf)
    · exact (fillTest_written hp hm hc).trans (if_neg hf)
    · exact outside_congr (ejectFail_eject hk)

/-- Settles O38: the answers to READ by their reason, the request by the tape position. -/
theorem readAnswers : Obligations.ReadAnswers := by
  refine ⟨fun n b r block s => ?answered, fun n b s => ⟨laneRead_busy, fun hc ht => ?_, fun hc ht => ?_⟩⟩
  case answered =>
    intro u hk after
    refine ⟨?_, fun hr => ?_, fun h1 h2 => ?_⟩
    · exact outside_congr ((readDone_read hk).trans (readAnswered_eq n _ _ u))
    · exact outside_congr ((readFail_read hk).trans ((if_pos hr).trans (readAnswered_eq n _ _ u)))
    · exact outside_congr ((readFail_read hk).trans (if_neg (not_or.2 ⟨h1, h2⟩)))
  · exact (laneRead_free hc).trans (if_pos ht)
  · exact (laneRead_free hc).trans (if_neg ht)

end Sys2Proof.Proofs
end

section
/-! PROOFS. Write tests: the tests of a lane that may write, the sending of the head, HOLD, and the scratch pick (R65, R66,
R71, R81, R83 to R85, R106). -/

namespace Sys2Proof.Machine

variable {n : LaneId} {s : State} {c : Cart}

/-! ## The tests (R65, R84) -/

theorem writeStarts_iff (n : LaneId) (s : State) : writeStarts n s = true ↔
    ∃ p i c, s.lanes[n].role = .write p ∧ s.lanes[n].state = .ready ∧ s.lanes[n].claim = .none ∧
      s.lanes[n].ejectPending = false ∧ s.lanes[n].mounted = some i ∧ s.cdr.records[i] = some c ∧
      (c.state = .scratch ∨ c.state = .filling) ∧ c.pool = p ∧ s.asm[n].sealedQueue ≠ [] := by
  unfold writeStarts
  constructor
  · intro h
    split at h
    · next p i c role record =>
      obtain ⟨mounted, here⟩ := (mountedRecord_iff n s i c).1 record
      simp only [Bool.and_eq_true, Bool.or_eq_true, Bool.not_eq_true', decide_eq_true_eq, List.isEmpty_eq_false_iff] at h
      obtain ⟨⟨⟨⟨⟨ready, claim⟩, eject⟩, state⟩, pool⟩, queue⟩ := h
      exact ⟨p, i, c, role, ready, claim, eject, mounted, here, state, pool, queue⟩
    · cases h
  · rintro ⟨p, i, c, role, ready, claim, eject, mounted, here, state, pool, queue⟩
    rw [role, mountedRecord_some mounted here]
    simp only [Bool.and_eq_true, Bool.or_eq_true, Bool.not_eq_true', decide_eq_true_eq, List.isEmpty_eq_false_iff]
    exact ⟨⟨⟨⟨⟨ready, claim⟩, eject⟩, state⟩, pool⟩, queue⟩

theorem resumes_iff (n : LaneId) (s : State) : resumes n s = true ↔
    min s.settings.resumeMark (s.pool.quotas.assembly[n] / 16) ≤ s.asm[n].sealedQueue.length ∨
      ∃ b ∈ s.asm[n].sealedQueue, b.cause = .mark ∨
        ∃ r ∈ b.runs, s.streams[r.stream].state = .flushing ∨ s.streams[r.stream].state = .aborted := by
  have urgent : hasUrgentStream n s = true ↔ ∃ b ∈ s.asm[n].sealedQueue, ∃ r ∈ b.runs,
      s.streams[r.stream].state = .flushing ∨ s.streams[r.stream].state = .aborted := by simp [hasUrgentStream]
  rw [resumes, Bool.or_eq_true, Bool.or_eq_true, decide_eq_true_iff, hasMarkSealed_iff, urgent, or_assoc, resumeMark]
  refine or_congr_right ?_
  simp only [and_or_left, exists_or]

/-! ## Writing starts (R65, R84) -/

theorem startWriting_none (h : (s.lanes[n].mounted.bind fun i => s.cdr.records[i]) = none) : startWriting n s = s := by
  rw [← mountedRecord_snd, Option.map_eq_none_iff] at h
  rw [startWriting, h]

/-- The lane writes where its position is known, and locates to end of data otherwise (R65). -/
theorem startWriting_some (h : (s.lanes[n].mounted.bind fun i => s.cdr.records[i]) = some c) : startWriting n s =
    if s.lanes[n].tapePosition = some c.endOfData ∧ c.needsLocate = false then
      sendHead n (setLaneState n .writing s)
    else setLaneState n .locating (sendCommand n (.locate c.endOfData .write) s) := by
  rw [← mountedRecord_snd, Option.map_eq_some_iff] at h
  obtain ⟨⟨i, d⟩, record, rfl⟩ := h
  rw [startWriting, record]
  exact if_congr (by simp [positionKnown]) rfl rfl

theorem writeStart_passes (h : writeStarts n s = true) : writeStart n s = startWriting n s := if_pos h

theorem writeStart_fails (h : ¬ writeStarts n s = true) : writeStart n s = s := if_neg h

theorem catalogResume_other (h : s.lanes[n].holdReason ≠ some .catalogFull) : catalogResume n s = s := if_neg h

/-- A lane in HOLD for catalog room asks again (R85). -/
theorem catalogResume_asks (h : s.lanes[n].holdReason = some .catalogFull) : catalogResume n s =
    if (askPlace n s).1 = true then startWriting n (askPlace n s).2 else (askPlace n s).2 := if_pos h

/-! ## The sending of the head (R66, R81) -/

section
variable (n : LaneId) (s : State)

theorem askPlace_gov : (askPlace n s).2.gov = s.gov := by rw [askPlace_frame]
theorem askPlace_cdr : (askPlace n s).2.cdr = s.cdr := by rw [askPlace_frame]

theorem sentNow_askPlace (k : DriveCommand) : sentNow k (askPlace n s).2 = sentNow k s := by
  rw [askPlace_frame]
  rfl

theorem askPlace_mountedRecord : mountedRecord n (askPlace n s).2 = mountedRecord n s := by
  rw [mountedRecord_eq, mountedRecord_eq, askPlace_lanes, askPlace_cdr]

end

theorem sendHead_claimed (h : s.lanes[n].claim = .restore) : sendHead n s = grantRestore n s := if_pos h

theorem sendHead_refused (h : s.lanes[n].claim ≠ .restore) (ha : (askPlace n s).1 = false) :
    sendHead n s = enterHold n .catalogFull (askPlace n s).2 :=
  (if_neg h).trans (if_neg (by rw [ha]; decide))

theorem sendHead_placed (h : s.lanes[n].claim ≠ .restore) (ha : (askPlace n s).1 = true) :
    sendHead n s = sendBlock n (askPlace n s).2 := (if_neg h).trans (if_pos ha)

/-- STEP goes first while the drive's step is not the governor's (R81). -/
theorem sendHead_step (h : s.lanes[n].claim ≠ .restore) (ha : (askPlace n s).1 = true)
    (hs : s.lanes[n].driveStep ≠ some s.gov[n].step) : sendHead n s =
      modLane n (fun l => { l with command := some (sentNow (.step s.gov[n].step) s) }) (askPlace n s).2 := by
  rw [sendHead_placed h ha, sendBlock, askPlace_lanes, askPlace_gov, if_neg hs, ← sentNow_askPlace n s]
  rfl

/-- WRITE goes with the end of data as its block, the tape position absent until the answer (R66). -/
theorem sendHead_write {i : CartId} (h : s.lanes[n].claim ≠ .restore) (ha : (askPlace n s).1 = true)
    (hs : s.lanes[n].driveStep = some s.gov[n].step) (hm : s.lanes[n].mounted = some i)
    (hc : s.cdr.records[i] = some c) : sendHead n s = modLane n (fun l =>
      { l with tapePosition := none, command := some (sentNow (.write c.endOfData) s) }) (askPlace n s).2 := by
  rw [sendHead_placed h ha, sendBlock, askPlace_lanes, askPlace_gov, if_pos hs, askPlace_mountedRecord,
    mountedRecord_some hm hc, ← sentNow_askPlace n s]
  dsimp only
  rw [sendCommand, modLane_modLane]
  rfl

/-! ## HOLD (R83) -/

section
variable (n : LaneId) (r : HoldReason) (s : State)

theorem enterHold_lanes :
    (enterHold n r s).lanes = upd s.lanes n fun l => { l with state := .hold, holdReason := some r } := by
  rw [enterHold, raise, post_lanes, modLane_lanes, setLaneState_context, upd_upd]

theorem enterHold_asm : (enterHold n r s).asm = s.asm := by
  rw [enterHold, raise, post_asm, modLane_asm, setLaneState_asm]

theorem enterHold_gov : (enterHold n r s).gov = s.gov := by
  rw [enterHold, raise, post_gov, modLane_gov, setLaneState_hold_gov]

theorem enterHold_event : .event { kind := .laneHold, qual := some n.val } ∈ (enterHold n r s).due :=
  List.mem_append_right _ (List.mem_singleton.2 rfl)

end

/-! ## The scratch pick (R71, R106) -/

/-- Of a vector's indices in order the first for which `f` answers gives `findSome?` its answer. -/
theorem findSome?_finRange_first {α : Type} {m : Nat} {f : Fin m → Option α} {k : Fin m} {a : α} (hk : f k = some a)
    (before : ∀ j < k, f j = none) : (List.finRange m).findSome? f = some a := by
  refine List.findSome?_eq_some_iff.2 ⟨(List.finRange m).take k, k, (List.finRange m).drop (k + 1), ?_, hk, ?_⟩
  · have here : (List.finRange m)[k.val]'(by simp) = k := by simp
    conv_lhs => rw [← List.take_append_drop k (List.finRange m), List.drop_eq_getElem_cons (by simp), here]
  · intro j hj
    obtain ⟨i, hi, rfl⟩ := List.mem_take_iff_getElem.1 hj
    refine before _ (Fin.lt_def.2 ?_)
    simp only [List.getElem_finRange, Fin.val_cast]
    omega

/-- Slot `k` holds a candidate of a scratch pick for pool `p`: SCRATCH, of the pool, not named by the mount queue (R106). -/
def Candidate (p : Fin 8) (s : State) (k : Fin 48) (i : CartId) : Prop :=
  namedAt (.slot k) s = some i ∧
    ∃ c, s.cdr.records[i] = some c ∧ c.state = .scratch ∧ c.pool = p ∧ ∀ m ∈ s.mounts, m.cart ≠ some i

theorem namedByQueue_false_iff (i : CartId) (s : State) :
    namedByQueue i s = false ↔ ∀ m ∈ s.mounts, m.cart ≠ some i := by
  simp [namedByQueue]

/-- The record at a slot, if it is a candidate. -/
def slotCandidate (p : Fin 8) (s : State) (k : Fin 48) : Option CartId :=
  (namedAt (.slot k) s).bind fun i => (s.cdr.records[i]).bind fun c =>
    if c.state = .scratch ∧ c.pool = p ∧ namedByQueue i s = false then some i else none

theorem slotCandidate_iff (p : Fin 8) (s : State) (k : Fin 48) (i : CartId) :
    slotCandidate p s k = some i ↔ Candidate p s k i := by
  simp only [slotCandidate, Candidate, Option.bind_eq_some_iff, ← namedByQueue_false_iff]
  constructor
  · rintro ⟨j, named, c, here, picked⟩
    split at picked
    · next fits =>
      cases picked
      exact ⟨named, c, here, fits⟩
    · cases picked
  · rintro ⟨named, c, here, fits⟩
    exact ⟨i, named, c, here, if_pos fits⟩

theorem scratchCandidate_eq (p : Fin 8) (s : State) :
    scratchCandidate p s = (List.finRange 48).findSome? (slotCandidate p s) := by
  unfold scratchCandidate
  refine congrArg (fun f => (List.finRange 48).findSome? f) (funext fun k => ?_)
  rw [slotCandidate]
  cases namedAt (.slot k) s with
  | none => rfl
  | some i =>
    dsimp only [recordAt, Option.bind_some]
    cases s.cdr.records[i] <;> rfl

section
variable {p : Fin 8}

theorem scratchCandidate_none (h : ∀ k i, ¬ Candidate p s k i) : scratchCandidate p s = none := by
  rw [scratchCandidate_eq, List.findSome?_eq_none_iff]
  exact fun k _ => Option.eq_none_iff_forall_ne_some.2 fun i => mt (slotCandidate_iff p s k i).1 (h k i)

/-- The candidate at the lowest slot (R106). -/
theorem scratchCandidate_lowest {k : Fin 48} {i : CartId} (h : Candidate p s k i)
    (lower : ∀ k' < k, ∀ j, ¬ Candidate p s k' j) : scratchCandidate p s = some i := by
  rw [scratchCandidate_eq]
  exact findSome?_finRange_first ((slotCandidate_iff p s k i).2 h) fun k' hk =>
    Option.eq_none_iff_forall_ne_some.2 fun j => mt (slotCandidate_iff p s k' j).1 (lower k' hk j)

theorem pickScratch_idle (h : s.lanes[n].role = .read ∨ s.lanes[n].fillWanted = false) : pickScratch n s = s := by
  unfold pickScratch
  split
  · rfl
  · next p hp =>
    refine if_pos (h.resolve_left fun hr => ?_)
    rw [hr] at hp
    cases hp

section
variable (hp : s.lanes[n].role = .write p) (hw : s.lanes[n].fillWanted = true)
include hp hw

theorem pickScratch_none (hc : scratchCandidate p s = none) : pickScratch n s =
    offerNotice (.noScratch n p) (modLane n (fun l => { l with pickNoRoom := false }) s) := by
  rw [pickScratch, hp]
  refine (if_neg (by rw [hw]; decide)).trans ?_
  rw [hc]

/-- A candidate found is offered to the mount queue (R71, R121). -/
theorem pickScratch_offers {i : CartId} (hc : scratchCandidate p s = some i) : pickScratch n s =
    let a := offerMount i (.lane n) .normal .laneFill 0 (some n) s
    if a.1 = true then modLane n (fun l => { l with fillWanted := false, pickNoRoom := false }) a.2
    else modLane n (fun l => { l with pickNoRoom := true }) a.2 := by
  rw [pickScratch, hp]
  refine (if_neg (by rw [hw]; decide)).trans ?_
  rw [hc]

end

section
variable {i : CartId} {target : MountTarget} {cls : MountClass} {r : Requester} {tag : Nat} {fill : Option LaneId}

/-- A record the queue does not name joins it while there is room (R121). -/
theorem offerMount_joins (h : namedByQueue i s = false) (room : s.mounts.length < 8) :
    offerMount i target cls r tag fill s =
      (true, enqueueMount { kind := .mount, cart := some i, target := target, cls := cls, requesters := [(r, tag)],
                            tag := tag, fillLane := fill, inService := false, rebuilt := none } s) :=
  (if_neg (by rw [h]; decide)).trans (if_neg (Nat.not_le.2 room))

theorem offerMount_full (h : namedByQueue i s = false) (full : 8 ≤ s.mounts.length) :
    offerMount i target cls r tag fill s = (false, s) :=
  (if_neg (by rw [h]; decide)).trans (if_pos full)

end

end

end Sys2Proof.Machine

namespace Sys2Proof.Proofs

open Sys2Proof Sys2Proof.Machine

/-- Settles O39: each test by what it asks, the head by the claim, the place and the drive's step. -/
theorem writeTests : Obligations.WriteTests := by
  intro n s go
  have starts (v : State) : startWriting n v = go v := by
    cases h : v.lanes[n].mounted.bind fun i => v.cdr.records[i] with
    | none => simp only [go, h, startWriting_none h]
    | some c => simp only [go, h, startWriting_some h]
  refine ⟨⟨fun hp => ?_, fun hp => ?_⟩, ⟨fun hp => ?_, fun hp => ?_⟩, ⟨fun hh => ?_, fun hh ha => ?_, fun hh ha => ?_⟩,
    ⟨sendHead_claimed, sendHead_refused, fun hr ha => ⟨fun hs => ?_, fun i c hs hm hc => ?_⟩, fun r => ?_⟩⟩
  · rw [← starts]
    exact commanded_congr (d := .writeStart n) (writeStart_passes ((writeStarts_iff n _).2 hp))
  · exact commanded_congr (d := .writeStart n) (writeStart_fails (mt (writeStarts_iff n _).1 hp))
  · rw [← starts]
    exact commanded_congr (d := .holdResume n) (if_pos ⟨hp.1, (resumes_iff n _).2 hp.2⟩)
  · exact commanded_congr (d := .holdResume n) (if_neg fun h => hp ⟨h.1, (resumes_iff n _).1 h.2⟩)
  · exact commanded_congr (d := .catalogHold n) (catalogResume_other hh)
  · rw [← starts]
    exact commanded_congr (d := .catalogHold n) ((catalogResume_asks hh).trans (if_pos ha))
  · exact commanded_congr (d := .catalogHold n) ((catalogResume_asks hh).trans (if_neg (by rw [ha]; decide)))
  · exact sendHead_step hr ha hs
  · exact sendHead_write hr ha hs hm hc
  · intro t
    have lanes : t.lanes = _ := enterHold_lanes n r s
    exact ⟨by rw [lanes, upd_same], enterHold_asm n r s, enterHold_gov n r s, enterHold_event n r s,
      fun m hm => by rw [lanes, upd_other _ _ _ _ hm]⟩

/-- Settles O26: no pick without fill wanted; else the lowest candidate, offered to a queue with room or without. -/
theorem scratchPick : Obligations.ScratchPick := by
  intro n s u done candidate
  have picked : ∀ {t}, pickScratch n u = t → done t := commanded_congr (d := .scratchPick n)
  refine ⟨fun h => picked (pickScratch_idle h), fun p hp hw => ⟨fun none => ?_, fun k i here lower => ?_⟩⟩
  · exact picked (pickScratch_none hp hw (scratchCandidate_none none))
  · have offers := pickScratch_offers hp hw (scratchCandidate_lowest here lower)
    obtain ⟨-, c, -, -, -, unnamed⟩ := id here
    have free := (namedByQueue_false_iff i u).2 unnamed
    refine ⟨fun room => picked ?_, fun full => picked ?_⟩
    · rw [offers, offerMount_joins free room]
      rfl
    · rw [offers, offerMount_full free full]
      rfl

end Sys2Proof.Proofs
end

section
/-! PROOFS. Speed and travel: TABLE_WRITE of the speed, ramp and positions tables, the governor's window and its timer at a
change of the lane's state (R77, R79, R80, R82, R88, R111, R112). -/

namespace Sys2Proof.Machine

variable {h : Hdr} {s : State} {n : LaneId}

/-! ## Tables of numbers (R82, R112) -/

/-- A test of each number against the one before it. -/
theorem all_zip_drop_iff {α : Type} {r : α → α → Prop} [DecidableRel r] (l : List α) :
    (l.zip (l.drop 1)).all (fun p => decide (r p.1 p.2)) = true ↔ ∀ k (hk : k + 1 < l.length), r l[k] l[k + 1] := by
  rw [List.all_iff_forall_prop, List.forall_mem_iff_forall_getElem]
  simp only [List.length_zip, List.length_drop, List.getElem_zip, List.getElem_drop, Nat.add_comm 1]
  exact forall_congr' fun k => ⟨fun ht hk => ht (by omega), fun ht hk => ht (by omega)⟩

theorem speedOk_iff (rates : List Nat) : speedOk rates = true ↔
    1 ≤ rates.length ∧ rates.length ≤ 8 ∧ (∀ r ∈ rates, 1 ≤ r ∧ r ≤ 65535) ∧
      ∀ k (hk : k + 1 < rates.length), rates[k] < rates[k + 1] := by
  rw [speedOk, Bool.and_eq_true, Bool.and_eq_true, decide_eq_true_iff, List.all_iff_forall_prop,
    all_zip_drop_iff (r := (· < ·)), and_assoc, and_assoc]

theorem rampOk_iff (intervals : List Nat) : rampOk intervals = true ↔
    1 ≤ intervals.length ∧ intervals.length ≤ 32 ∧ (∀ t ∈ intervals, 1 ≤ t ∧ t ≤ 65535) ∧
      ∀ k (hk : k + 1 < intervals.length), intervals[k + 1] ≤ intervals[k] := by
  rw [rampOk, Bool.and_eq_true, Bool.and_eq_true, decide_eq_true_iff, List.all_iff_forall_prop,
    all_zip_drop_iff (r := fun a b => b ≤ a), and_assoc, and_assoc]

theorem loaderMoving_iff (s : State) : loaderMoving s = true ↔
    s.ldr.state = .homing ∨ s.ldr.state = .running ∨ s.ldr.state = .stopping := by
  simp [loaderMoving, or_assoc]

theorem each_modGov_map (f : Governor → Governor) (s : State) :
    forEach allLanes (fun n => modGov n f) s = { s with gov := s.gov.map f } := by
  obtain ⟨v, hv, each⟩ := each_modGov f s
  have mapped : v = s.gov.map f := Vector.ext fun k hk => (each ⟨k, hk⟩).trans (Vector.getElem_map f hk).symm
  rw [hv, mapped]

theorem writeSpeed_ok {rates : List Nat} (good : speedOk rates = true) : writeSpeed h rates s = answer h 6 .ok .none
    { s with tables := { s.tables with speed := rates }, gov := s.gov.map (clampStep (rates.length - 1)) } := by
  rw [writeSpeed, if_pos good, each_modGov_map]
  rfl

theorem writeSpeed_refused {rates : List Nat} (bad : ¬ speedOk rates = true) :
    writeSpeed h rates s = refuse h 6 .badArgument s := if_neg bad

section
variable {intervals : List Nat}

theorem writeRamp_refused (bad : ¬ rampOk intervals = true) : writeRamp h intervals s = refuse h 6 .badArgument s :=
  if_pos (Bool.eq_false_iff.2 bad)

theorem writeRamp_good (good : rampOk intervals = true) : writeRamp h intervals s =
    if loaderMoving s = true then refuse h 6 .busy s
    else answer h 6 .ok .none { s with tables := { s.tables with ramp := intervals } } :=
  if_neg (by rw [good]; decide)

end

/-! ## A payload's items (Section 12.2) -/

section
variable {α β γ : Type} {f : α → Option β}

/-- One item that does not read spoils the list. -/
theorem readAll_none {l : List α} {a : α} (ha : a ∈ l) (hf : f a = none) : readAll f l = none := by
  have spoiled : l.mapM f = none := by
    induction l with
    | nil => cases ha
    | cons x l ih =>
      rw [List.mapM_cons]
      rcases List.mem_cons.1 ha with rfl | later
      · rw [hf]; rfl
      · rw [ih later]; cases f x <;> rfl
  rw [readAll, spoiled, ite_self]

/-- Items that all read, one or more of them, give what they spell. -/
theorem readAll_map {g : γ → α} {k : γ → β} (hf : ∀ x, f (g x) = some (k x)) {l : List γ} (hl : l ≠ []) :
    readAll f (l.map g) = some (l.map k) := by
  have spelled : f ∘ g = fun x => pure (k x) := funext hf
  rw [readAll, if_neg (by simpa using hl), List.mapM_map, spelled, List.mapM_pure]
  rfl

end

/-! ## Positions (R111, R192) -/

/-- Location codes 1 to 54 are the entries of the positions table in order (R111, R192). -/
theorem travel_locationOf (i : Fin 54) : (locationOf (i + 1)).bind Location.travel = some i := by
  revert i
  decide

/-- Code 0 and the codes above 54 name no entry: none at all, or PICKER, OUTSIDE or MISSING (R111, R192). -/
theorem travel_locationOf_none {k : Nat} (hk : k = 0 ∨ 54 < k) : (locationOf k).bind Location.travel = none := by
  rcases hk with rfl | hk
  · rfl
  · rw [locationOf, if_neg (by omega), dif_neg (by omega), dif_neg (by omega), dif_neg (by omega)]
    split_ifs <;> rfl

theorem positionOf_eq (p : Nat × Option Nat) : positionOf p =
    ((locationOf p.1).bind Location.travel).bind fun i =>
      if ∃ x, p.2 = some x ∧ 65535 < x then none else some (i, p.2) := by
  obtain ⟨code, value⟩ := p
  unfold positionOf
  cases locationOf code with
  | none => rfl
  | some l =>
    cases hl : l.travel with
    | none => simp [hl]
    | some i =>
      cases value with
      | none => simp [hl]
      | some x => by_cases high : 65535 < x <;> simp [hl, high]

theorem positionOf_none {p : Nat × Option Nat} (hp : p.1 = 0 ∨ 54 < p.1 ∨ ∃ x, p.2 = some x ∧ 65535 < x) :
    positionOf p = none := by
  rw [positionOf_eq]
  rcases or_assoc.2 hp with code | high
  · rw [travel_locationOf_none code]
    rfl
  · simp [if_pos high]

theorem positionOf_some (p : Fin 54 × Option (Fin 65536)) :
    positionOf (p.1.val + 1, p.2.map Fin.val) = some (p.1, p.2.map Fin.val) := by
  have inRange : ¬ ∃ x, p.2.map Fin.val = some x ∧ 65535 < x := by
    rintro ⟨x, hx, high⟩
    obtain ⟨y, -, rfl⟩ := Option.map_eq_some_iff.1 hx
    omega
  rw [positionOf_eq, travel_locationOf, Option.bind_some, if_neg inRange]

/-- The entries are written in the order of the list, so a later one for a location prevails (log entry 46). -/
theorem each_setPosition (ps : List (Fin 54 × Option Nat)) (s : State) : forEach ps setPosition s =
    { s with tables := { s.tables with positions := ps.foldl (fun v p => v.set p.1 p.2) s.tables.positions } } := by
  induction ps generalizing s with
  | nil => rfl
  | cons p ps ih => exact ih (setPosition p s)

section
variable {pairs : List (Nat × Option Nat)} {ps : List (Fin 54 × Option Nat)}

theorem writePositions_unread (hp : readAll positionOf pairs = none) :
    writePositions h pairs s = refuse h 6 .badArgument s := by
  rw [writePositions, hp]

theorem writePositions_read (hp : readAll positionOf pairs = some ps) : writePositions h pairs s =
    if loaderMoving s = true then refuse h 6 .busy s
    else answer h 6 .ok .none { s with tables := { s.tables with
      positions := ps.foldl (fun v p => v.set p.1 p.2) s.tables.positions } } := by
  rw [writePositions, hp]
  dsimp only
  rw [each_setPosition]

end

/-! ## A window's end (R77, R79, R80, R88) -/

/-- The target is the last step of the first run of steps that the supply meets (R79). -/
theorem target_eq {rates : List Nat} {w sup m : Nat} (hm : m ≤ rates.length)
    (met : ∀ k (hk : k < rates.length), k < m → rates[k] * 2 ^ w ≤ sup)
    (unmet : ∀ hm : m < rates.length, sup < rates[m] * 2 ^ w) : target rates w sup = m - 1 := by
  have run : (rates.findIdx fun r => !decide (r * 2 ^ w ≤ sup)) = m := by
    rcases hm.lt_or_eq with inside | rfl
    · exact (List.findIdx_eq inside).2
        ⟨by simpa using unmet inside, fun k hk => by simpa using met k (hk.trans inside) hk⟩
    · exact List.findIdx_eq_length.2 fun r hr => by
        obtain ⟨k, hk, rfl⟩ := List.getElem_of_mem hr
        simpa using met k hk hk
  rw [target, List.takeWhile_eq_take_findIdx_not, run, List.length_take_of_le hm]

section
variable (limit repositions t c stable : Nat)

theorem stepDecision_step : (stepDecision limit repositions t c stable).1 =
    if limit ≤ repositions ∧ 0 < c then c - 1
    else if t = c ∨ stable ≠ 1 then c
    else if c < t then c + 1 else c - 1 := by
  unfold stepDecision
  split_ifs <;> omega

theorem stepDecision_stable : (stepDecision limit repositions t c stable).2 =
    if (limit ≤ repositions ∧ 0 < c) ∨ t = c ∨ stable = 1 then 0 else stable + 1 := by
  unfold stepDecision
  split_ifs <;> omega

end

theorem windowExpiry_idle (hw : s.gov[n].window = none) : windowExpiry n s = s := by
  rw [windowExpiry, hw]

section
variable {w : Window} {t : Nat}

theorem windowExpiry_early (hw : s.gov[n].window = some w) (early : (s.ttu.time - w.start).toNat < 2 ^ w.exponent) :
    windowExpiry n s = s := by
  rw [windowExpiry, hw]
  exact if_neg early.not_ge

theorem windowExpiry_due (hw : s.gov[n].window = some w) (due : 2 ^ w.exponent ≤ (s.ttu.time - w.start).toNat) :
    windowExpiry n s = windowEnd n s := by
  rw [windowExpiry, hw]
  exact if_pos due

/-- A window's end changes the lane's governor only. -/
theorem windowEnd_some (hw : s.gov[n].window = some w)
    (ht : target s.tables.speed w.exponent
      (supply (smooth s.gov[n].smoothed s.gov[n].inflow) s.asm[n].sealedQueue.length) = t) :
    windowEnd n s = { s with gov := upd s.gov n fun g => { g with
      smoothed := smooth g.smoothed g.inflow
      step := (stepDecision s.settings.reposLimit g.repositions t g.step g.stable).1
      stable := (stepDecision s.settings.reposLimit g.repositions t g.step g.stable).2
      meter := { inflow := g.inflow, delivered := g.delivered, repositions := g.repositions, exponent := w.exponent }
      window := some { start := s.ttu.time, exponent := s.settings.govWindow }
      inflow := 0
      repositions := 0
      delivered := 0 } } := by
  subst ht
  rw [windowEnd, hw]
  dsimp only
  rw [startWindow, modGov, modGov]
  dsimp only
  rw [upd_upd]
  exact congrArg (fun v => { s with gov := v }) (upd_congr _ _ _ _ rfl)

end

/-! ## The window timer at a change of state (R77) -/

theorem windowTimer_enters {old : LaneState} (ho : old ≠ .writing) : windowTimer n old .writing s = startWindow n s := by
  simp only [windowTimer, if_neg ho]

theorem windowTimer_stays : windowTimer n .writing .writing s = s := by
  simp only [windowTimer, if_true]

theorem windowTimer_stops {old new : LaneState} (hw : new ≠ .writing) (hh : new ≠ .hold) :
    windowTimer n old new s = modGov n (fun g => { g with window := none }) s := by
  cases new with
  | writing => exact absurd rfl hw
  | hold => exact absurd rfl hh
  | _ => rfl

/-- The window timer does not look at the lane's context. -/
theorem windowTimer_modLane_gov (old new : LaneState) (f : Lane → Lane) :
    (windowTimer n old new (modLane n f s)).gov = (windowTimer n old new s).gov := by
  cases new with
  | writing =>
    by_cases ho : old = .writing
    · rw [ho, windowTimer_stays, windowTimer_stays, modLane_gov]
    · rw [windowTimer_enters ho, windowTimer_enters ho]
      rfl
  | _ => rfl

/-- A change of state does to the governors what the window timer does. -/
theorem setLaneState_gov (new : LaneState) (s : State) :
    (setLaneState n new s).gov = (windowTimer n s.lanes[n].state new s).gov := by
  rw [setLaneState, laneReport, post_gov, post_gov, post_gov, post_gov, post_gov, windowTimer_modLane_gov]

end Sys2Proof.Machine

namespace Sys2Proof.Proofs

open Sys2Proof Sys2Proof.Machine

/-- Settles O19: each table by the test of its list, then by whether the loader moves. -/
theorem writeMotionTables : Obligations.WriteMotionTables := by
  refine ⟨?speed, ?ramp, ?positions⟩
  case speed =>
    intro h rates s hc u last good
    have ok : speedOk rates = true ↔ good := speedOk_iff rates
    refine ⟨fun hg => ?_, fun hg => ?_⟩
    · exact exec_taken hc rfl (writeSpeed_ok (ok.2 hg))
    · exact exec_taken hc rfl (writeSpeed_refused (mt ok.1 hg))
  case ramp =>
    intro h intervals s hc u done good moving
    have ok : rampOk intervals = true ↔ good := rampOk_iff intervals
    have moves : loaderMoving u = true ↔ moving := loaderMoving_iff u
    refine ⟨fun hg => ?_, fun hg hm => ?_, fun hg hm => ?_⟩
    · exact exec_taken hc rfl (writeRamp_refused (mt ok.1 hg))
    · exact exec_taken hc rfl ((writeRamp_good (ok.2 hg)).trans (if_pos (moves.2 hm)))
    · exact exec_taken hc rfl ((writeRamp_good (ok.2 hg)).trans (if_neg (mt moves.1 hm)))
  case positions =>
    intro h pairs s hc u done moving
    have moves : loaderMoving u = true ↔ moving := loaderMoving_iff u
    refine ⟨fun bad => exec_taken hc rfl (writePositions_unread ?_), fun ps hne hp => ?_⟩
    · rcases bad with rfl | ⟨p, hp, bad⟩
      · rfl
      · exact readAll_none hp (positionOf_none bad)
    · have read : readAll positionOf pairs = some (ps.map fun p => (p.1, p.2.map Fin.val)) :=
        hp ▸ readAll_map positionOf_some hne
      refine ⟨fun hm => ?_, fun hm => ?_⟩
      · exact exec_taken hc rfl ((writePositions_read read).trans (if_pos (moves.2 hm)))
      · refine exec_taken hc rfl (((writePositions_read read).trans (if_neg (mt moves.1 hm))).trans ?_)
        rw [List.foldl_map]

/-- Settles O40: the end by whether a window runs and is over, the target by the first run of steps that the supply meets;
the window timer by the state entered. -/
theorem windowEnds : Obligations.WindowEnds := by
  refine ⟨?atEnd, ?atChange⟩
  case atEnd =>
    intro n s u g
    refine ⟨fun hw => ?_, fun w hw early => ?_, ?_⟩
    · exact outside_congr (windowExpiry_idle hw)
    · exact outside_congr (windowExpiry_early hw early)
    · intro w t hw due sm sup rates isTarget ht
      have reached : target rates w.exponent sup = t := by
        rcases ht with ⟨inside, met, unmet⟩ | ⟨rfl, unmet⟩
        · exact target_eq inside (fun k hk hkt => met k hk (Nat.lt_succ_iff.1 hkt)) unmet
        · exact target_eq (Nat.zero_le _) (fun _ _ hk => absurd hk (Nat.not_lt_zero _)) unmet
      refine outside_congr ((windowExpiry_due hw due).trans ((windowEnd_some hw reached).trans ?_))
      simp only [stepDecision_step, stepDecision_stable]
      exact congrArg (fun v => { u with gov := v }) (upd_congr _ _ _ _ rfl)
  case atChange =>
    intro n new s old timed
    have follows {f : Governor → Governor} (hf : (windowTimer n old new s).gov = upd s.gov n f) : timed f := by
      show setLaneState n new s = _
      rw [setLaneState_frame, setLaneState_gov, hf]
    refine ⟨fun hw ho => ?_, fun stays => ?_, fun hw hh => ?_⟩
    · subst hw
      exact follows (by rw [windowTimer_enters ho]; rfl)
    · refine follows (.trans ?_ (upd_id _ _).symm)
      rcases stays with ⟨rfl, writing⟩ | rfl
      · rw [writing, windowTimer_stays]
      · rfl
    · exact follows (by rw [windowTimer_stops hw hh]; rfl)

end Sys2Proof.Proofs
end

section
/-! PROOFS. Directory rules: what the location map names after each change of a record, and the tests that a changed record
makes due (R92, R93, R97, R102, R103). -/

namespace Sys2Proof.Machine

variable {i j : CartId} {l x : Location} {c : Cart} {n : LaneId} {s t : State}

/-! ## Locations and their places (R90, R92, R192) -/

theorem locationOf_code (l : Location) : locationOf l.code = some l := by
  cases l with
  | slot k => revert k; decide
  | mail m => revert m; decide
  | bay n => revert n; decide
  | _ => rfl

theorem place_eq_none_iff (l : Location) : l.place = none ↔ l = .outside ∨ l = .missing := by
  cases l <;> simp [Location.place]

/-- The slots, the mail slots, the bays and the picker follow each other in the map in the order of their codes (R92). -/
theorem place_val {p : Fin 55} (hp : l.place = some p) : p.val + 1 = l.code := by
  cases l <;> cases hp <;> simp only [Location.code] <;> omega

/-- Two locations with a place share it only if they are one (R92). -/
theorem place_injective {p : Fin 55} (hx : x.place = some p) (hl : l.place = some p) : x = l := by
  have codes : x.code = l.code := (place_val hx).symm.trans (place_val hl)
  exact Option.some.inj ((locationOf_code x).symm.trans (codes ▸ locationOf_code l))

/-! ## What the map names (R92) -/

theorem namedAt_eq (l : Location) (s : State) : namedAt l s = l.place.bind fun p => s.cdr.map[p] := by
  rw [namedAt]
  cases l.place <;> rfl

theorem namedAt_congr (hm : t.cdr.map = s.cdr.map) : namedAt l t = namedAt l s := by
  rw [namedAt_eq, namedAt_eq, hm]

theorem namedAt_setPlace_same (r : Option CartId) (ho : l ≠ .outside) (hm : l ≠ .missing) :
    namedAt l (setPlace l r s) = r := by
  rw [namedAt_eq]
  cases hp : l.place with
  | none => exact absurd ((place_eq_none_iff l).1 hp) (not_or.2 ⟨ho, hm⟩)
  | some p => rw [Option.bind_some, map_setPlace, if_pos hp]

theorem namedAt_setPlace_other (r : Option CartId) (hx : x ≠ l) : namedAt x (setPlace l r s) = namedAt x s := by
  rw [namedAt_eq, namedAt_eq]
  cases hp : x.place with
  | none => rfl
  | some p => rw [Option.bind_some, map_setPlace, if_neg fun hl => hx (place_injective hp hl)]; rfl

/-- Record `i` stands at a location, and the map names it there. -/
def StandsAt (i : CartId) (x : Location) (s : State) : Prop :=
  (s.cdr.records[i]).map Cart.location = some x ∧ namedAt x s = some i

theorem standsAt_iff (hc : s.cdr.records[i] = some c) : StandsAt i x s ↔ x = c.location ∧ namedAt x s = some i := by
  rw [StandsAt, hc, Option.map_some, Option.some.injEq, eq_comm (a := c.location)]

/-! ## The place given up (R97) -/

theorem namedAt_clearPlace_left (h : StandsAt i x s) : namedAt x (clearPlace i s) = none := by
  obtain ⟨stands, named⟩ := h
  obtain ⟨c, hc, rfl⟩ := Option.map_eq_some_iff.1 stands
  have placed : ¬ (c.location = .outside ∨ c.location = .missing) := fun hp => by
    rw [namedAt_eq, (place_eq_none_iff _).2 hp] at named
    cases named
  rw [not_or] at placed
  rw [clearPlace, recordAt, hc]
  dsimp only
  rw [if_pos named, namedAt_setPlace_same none placed.1 placed.2]

theorem namedAt_clearPlace_other (h : ¬ StandsAt i x s) : namedAt x (clearPlace i s) = namedAt x s := by
  rw [clearPlace, recordAt]
  cases hc : s.cdr.records[i] with
  | none => rfl
  | some c =>
    dsimp only
    by_cases named : namedAt c.location s = some i
    · rw [if_pos named, namedAt_setPlace_other]
      rintro rfl
      exact h ((standsAt_iff hc).2 ⟨rfl, named⟩)
    · rw [if_neg named]

/-! ## A record displaced, and a record that moves (R93; log entry 17) -/

theorem displaceOther_map (i : CartId) (l : Location) (s : State) : (displaceOther i l s).cdr.map = s.cdr.map := by
  unfold displaceOther
  split
  · rfl
  · split <;> rfl

theorem displaceOther_named (hj : j ≠ i) (hn : namedAt l s = some j) :
    (displaceOther i l s).cdr.records[j] = (s.cdr.records[j]).map fun x => { x with location := .missing } := by
  rw [displaceOther, hn]
  dsimp only
  rw [if_neg hj, modRecord_records, if_pos rfl]

theorem displaceOther_unnamed (hj : j = i ∨ namedAt l s ≠ some j) :
    (displaceOther i l s).cdr.records[j] = s.cdr.records[j] := by
  unfold displaceOther
  split
  · rfl
  · next k hk =>
    split
    · rfl
    · next other =>
      rw [modRecord_records, if_neg]
      rintro rfl
      exact hj.elim other fun hn => hn hk

theorem moveRecord_records_same (hc : s.cdr.records[i] = some c) :
    (moveRecord i l s).cdr.records[i] = some { c with location := l } := by
  rw [moveRecord, records_setPlace, modRecord_records, if_pos rfl, records_clearPlace, displaceOther_unnamed (.inl rfl), hc,
    Option.map_some]

theorem moveRecord_records_other (hj : j ≠ i) :
    (moveRecord i l s).cdr.records[j] = (displaceOther i l s).cdr.records[j] := by
  rw [moveRecord, records_setPlace, modRecord_records, if_neg hj.symm, records_clearPlace]

theorem namedAt_moveRecord_same (ho : l ≠ .outside) (hm : l ≠ .missing) : namedAt l (moveRecord i l s) = some i :=
  namedAt_setPlace_same (some i) ho hm

/-- Away from where it goes, a record that moves leaves the map as its place given up leaves it. -/
theorem namedAt_moveRecord_other (hx : x ≠ l) :
    namedAt x (moveRecord i l s) = namedAt x (clearPlace i (displaceOther i l s)) :=
  (namedAt_setPlace_other (some i) hx).trans (namedAt_congr rfl)

theorem standsAt_displaceOther (i : CartId) (l : Location) (s : State) :
    StandsAt i x (displaceOther i l s) ↔ StandsAt i x s := by
  rw [StandsAt, StandsAt, displaceOther_unnamed (.inl rfl), namedAt_congr (displaceOther_map i l s)]

theorem namedAt_moveRecord_left (hx : x ≠ l) (h : StandsAt i x s) : namedAt x (moveRecord i l s) = none :=
  (namedAt_moveRecord_other hx).trans (namedAt_clearPlace_left ((standsAt_displaceOther i l s).2 h))

theorem namedAt_moveRecord_stays (hx : x ≠ l) (h : ¬ StandsAt i x s) : namedAt x (moveRecord i l s) = namedAt x s := by
  rw [namedAt_moveRecord_other hx, namedAt_clearPlace_other (mt (standsAt_displaceOther i l s).1 h),
    namedAt_congr (displaceOther_map i l s)]

theorem CdrOnly.lanes (h : CdrOnly s t) : t.lanes = s.lanes := by
  rw [CdrOnly] at h
  rw [h]

/-! ## A record written, and an index emptied (R96, R97, R104) -/

theorem putRecord_records (i : CartId) (c : Cart) (s : State) :
    (putRecord i c s).cdr.records = s.cdr.records.set i (some c) := by
  rw [putRecord, records_setPlace, ← records_clearPlace i s]
  rfl

theorem dropRecord_records (i : CartId) (s : State) : (dropRecord i s).cdr.records = s.cdr.records.set i none := by
  rw [← records_clearPlace i s]
  rfl

theorem namedAt_putRecord_same (ho : c.location ≠ .outside) (hm : c.location ≠ .missing) :
    namedAt c.location (putRecord i c s) = some i := namedAt_setPlace_same (some i) ho hm

/-- Away from where it is written, a record leaves the map as its place given up leaves it. -/
theorem namedAt_putRecord_other (hx : x ≠ c.location) : namedAt x (putRecord i c s) = namedAt x (clearPlace i s) :=
  (namedAt_setPlace_other (some i) hx).trans (namedAt_congr rfl)

theorem namedAt_dropRecord (x : Location) (i : CartId) (s : State) :
    namedAt x (dropRecord i s) = namedAt x (clearPlace i s) := namedAt_congr rfl

/-! ## The tests that a changed record makes due (R65, R71, R97, R106) -/

theorem askPickFor_none (hc : s.cdr.records[i] = some c)
    (h : c.state ≠ .scratch ∨ (∀ k, c.location ≠ .slot k) ∨ ∀ m : LaneId, s.lanes[m].role ≠ .write c.pool) :
    askPickFor i s = s := by
  rw [askPickFor, recordAt, hc]
  dsimp only
  split
  · next k scratch here =>
    rcases h with state | location | roles
    · exact absurd scratch state
    · exact absurd here (location k)
    · rw [askPick, writeLane_eq_none roles]
  · rfl

theorem askPickFor_scratch {k : Fin 48} (hc : s.cdr.records[i] = some c) (state : c.state = .scratch)
    (here : c.location = .slot k) : askPickFor i s = askPick c.pool s := by
  rw [askPickFor, recordAt, hc]
  dsimp only
  rw [state, here]

theorem askPick_some {p : Fin 8} (hw : writeLane p s = some n) :
    askPick p s = if s.lanes[n].fillWanted = true then { s with due := s.due ++ [.scratchPick n] } else s := by
  rw [askPick, hw]
  rfl

/-- The write-start tests of the lanes of a list on which a record is mounted join the front, the last lane's first. -/
theorem forEach_writeTest (i : CartId) (lanes : List LaneId) (s : State) :
    forEach lanes (fun n s => if s.lanes[n].mounted = some i then postFirst (.writeStart n) s else s) s =
      { s with due := ((lanes.filter fun n => decide (s.lanes[n].mounted = some i)).map .writeStart).reverse ++ s.due } := by
  induction lanes generalizing s with
  | nil => rfl
  | cons n lanes ih =>
    rw [forEach, List.foldl_cons, ← forEach]
    by_cases hm : s.lanes[n].mounted = some i
    · rw [if_pos hm, ih]
      simp [hm, -Fin.getElem_fin]
      rfl
    · rw [if_neg hm, ih]
      simp [hm, -Fin.getElem_fin]

theorem writeTestFor_none (h : ∀ m : LaneId, s.lanes[m].mounted ≠ some i) : writeTestFor i s = s := by
  have no : allLanes.filter (fun m => decide (s.lanes[m].mounted = some i)) = [] :=
    List.filter_eq_nil_iff.2 fun m _ hm => h m (of_decide_eq_true hm)
  rw [writeTestFor, forEach_writeTest, no]
  rfl

theorem filter_allLanes_eq (n : LaneId) : allLanes.filter (fun m => decide (m = n)) = [n] := by
  revert n
  decide

theorem writeTestFor_one (h : ∀ m : LaneId, s.lanes[m].mounted = some i ↔ m = n) :
    writeTestFor i s = { s with due := .writeStart n :: s.due } := by
  rw [writeTestFor, forEach_writeTest]
  simp only [h, filter_allLanes_eq]
  rfl

end Sys2Proof.Machine
end

section
/-! PROOFS. Directory table: TABLE_WRITE of the directory, its record and its removal (R95 to R97). -/

namespace Sys2Proof.Machine

variable {h : Hdr} {i : CartId} {c o : Cart} {n : LaneId} {s : State}

/-! ## The fields of a written record (R90, R95, R192) -/

theorem finOf_eq_some_iff {k m : Nat} (x : Fin k) : finOf k m = some x ↔ m = x := by
  constructor
  · intro read
    unfold finOf at read
    split at read
    · cases read; rfl
    · cases read
  · rintro rfl
    exact finOf_val x

theorem word32Of_eq_some_iff (m x : Nat) : word32Of m = some x ↔ m ≤ max32 ∧ x = m := by
  by_cases fits : m ≤ max32 <;> simp [word32Of, fits, eq_comm]

theorem flagOf_eq_some_iff (m : Nat) (b : Bool) : flagOf m = some b ↔ (m = 0 ∧ b = false) ∨ (m = 1 ∧ b = true) := by
  unfold flagOf
  split_ifs <;> simp [*, eq_comm]

theorem cartStateOf_eq_some_iff (m : Nat) (x : CartState) : cartStateOf m = some x ↔
    (m = 0 ∧ x = .scratch) ∨ (m = 1 ∧ x = .filling) ∨ (m = 2 ∧ x = .full) ∨ (m = 3 ∧ x = .suspect) := by
  unfold cartStateOf
  split_ifs <;> simp [*, eq_comm]

theorem locationOf_eq_some_iff (m : Nat) (l : Location) : locationOf m = some l ↔ m = l.code := by
  constructor
  · intro read
    unfold locationOf at read
    split_ifs at read <;> cases read <;> simp only [Location.code] <;> omega
  · rintro rfl
    exact locationOf_code l

theorem slotOf_eq_some_iff (m : Nat) (k : Fin 48) : slotOf m = some k ↔ m = k + 1 := by
  rw [show (k : Nat) + 1 = (Location.slot k).code from rfl, ← locationOf_eq_some_iff, slotOf]
  cases locationOf m with
  | none => simp
  | some l => cases l <;> simp

theorem labelOk_iff (l : List Byte) : labelOk l = true ↔
    l.length = 8 ∧ (∀ b ∈ l, 32 ≤ b.toNat ∧ b.toNat ≤ 126) ∧ ∃ b ∈ l, b ≠ 32#8 := by
  simp [labelOk, and_assoc]

/-- The codes of the locations at which a record can be written (R95). -/
theorem writtenLocation_iff (m : Nat) (l : Location) : (locationOf m = some l ∧ l ≠ .picker) ↔
    (∃ k : Fin 48, m = k.val + 1 ∧ l = .slot k) ∨ (∃ k : Fin 2, m = k.val + 49 ∧ l = .mail k) ∨
      (∃ n : LaneId, m = n.val + 51 ∧ l = .bay n) ∨ (m = 56 ∧ l = .outside) ∨ (m = 57 ∧ l = .missing) := by
  rw [locationOf_eq_some_iff]
  cases l <;> simp [Location.code]

/-- A record body is read field by field, then tested as a whole (R95). -/
theorem recordOf_eq_some_iff (a : RecordArg) (c : Cart) : recordOf a = some c ↔
    finOf 8 a.pool = some c.pool ∧ cartStateOf a.state = some c.state ∧ locationOf a.location = some c.location ∧
      slotOf a.home = some c.home ∧ word32Of a.endOfData = some c.endOfData ∧ flagOf a.worm = some c.worm ∧
      (labelOk a.label = true ∧ c.location ≠ .picker ∧ a.floor ≤ c.endOfData ∧ a.verifiedTo ≤ c.endOfData) ∧
      c.label = a.label ∧ c.floor = a.floor ∧ c.verifiedTo = a.verifiedTo ∧ c.needsLocate = false := by
  simp only [recordOf, Option.bind_eq_bind, Option.bind_eq_some_iff, Option.ite_none_right_eq_some, Option.some.injEq]
  constructor
  · rintro ⟨pool, hp, state, hs, location, hl, home, hh, eod, he, worm, hw, tested, rfl⟩
    exact ⟨hp, hs, hl, hh, he, hw, tested, rfl, rfl, rfl, rfl⟩
  · rintro ⟨hp, hs, hl, hh, he, hw, tested, label, floor, verified, locate⟩
    refine ⟨_, hp, _, hs, _, hl, _, hh, _, he, _, hw, tested, ?_⟩
    rw [← label, ← floor, ← verified, ← locate]

/-! ## The tests of a write (R95, R96) -/

theorem recordConflicts_iff (i : CartId) (c : Cart) (s : State) : recordConflicts i c s = true ↔
    ∃ (j : CartId) (x : Cart), j ≠ i ∧ s.cdr.records[j] = some x ∧
      (x.label = c.label ∨ namedAt c.location s = some j) := by
  rw [recordConflicts, List.any_eq_true]
  refine exists_congr fun j => ?_
  rw [recordAt]
  cases s.cdr.records[j] <;> simp [-Fin.getElem_fin]

theorem writeProtected_iff (old new : Cart) : writeProtected old new = true ↔
    (old.worm = true ∧ new.worm = false) ∨ new.floor < old.floor ∨ new.endOfData < old.floor ∨
      (old.worm = true ∧ new.endOfData < old.endOfData) := by
  simp [writeProtected, or_assoc]

theorem hasEntries_iff (i : CartId) (s : State) : hasEntries i s = true ↔ ∃ e ∈ s.cat.entries, e.cart = i := by
  simp [hasEntries]

theorem writeLosesEntries_iff (i : CartId) (old new : Cart) (s : State) : writeLosesEntries i old new s = true ↔
    (∃ e ∈ s.cat.entries, e.cart = i) ∧ (new.label ≠ old.label ∨ new.endOfData < old.endOfData) := by
  rw [writeLosesEntries, Bool.and_eq_true, hasEntries_iff]
  simp

theorem usingLane_isSome_iff (i : CartId) (s : State) :
    (usingLane i s).isSome = true ↔ ∃ n : LaneId, inUseBy i n s = true := by
  simp [usingLane, List.find?_isSome, mem_allLanes]

theorem namedByQueue_iff (i : CartId) (s : State) : namedByQueue i s = true ↔ ∃ m ∈ s.mounts, m.cart = some i := by
  simp [namedByQueue]

theorem recordBusy_iff (i : CartId) (o : Cart) (s : State) : recordBusy i o s = true ↔
    o.location = .picker ∨ (∃ n : LaneId, inUseBy i n s = true) ∨ ∃ m ∈ s.mounts, m.cart = some i := by
  rw [recordBusy, Bool.or_eq_true, Bool.or_eq_true, decide_eq_true_iff, usingLane_isSome_iff, namedByQueue_iff, or_assoc]

theorem bayBusy_iff (c : Cart) (s : State) : bayBusy c s = true ↔
    ∃ n : LaneId, c.location = .bay n ∧ (s.lanes[n].state = .loading ∨ s.lanes[n].state = .unloading) := by
  rw [bayBusy]
  cases c.location <;> simp

/-! ## The refusals in their order (R96) -/

theorem writeRefusal_new (hn : s.cdr.records[i] = none) :
    writeRefusal i c s = if bayBusy c s = true then some .busy else none := by
  rw [writeRefusal, recordAt, hn]

theorem writeRefusal_present (hs : s.cdr.records[i] = some o) : writeRefusal i c s =
    if writeProtected o c = true then some .prot
    else if writeLosesEntries i o c s = true then some .badState
    else if recordBusy i o s = true ∨ bayBusy c s = true then some .busy
    else none := by
  rw [writeRefusal, recordAt, hs]

theorem removeRefusal_present (hs : s.cdr.records[i] = some o) : removeRefusal i s =
    if o.worm = true then some .prot
    else if hasEntries i s = true then some .badState
    else if recordBusy i o s = true then some .busy
    else none := by
  rw [removeRefusal, recordAt, hs]

/-! ## The write (R95 to R97) -/

section
variable {index : Nat} {body : RecordArg}

theorem writeRecord_unread (hr : 63 < index ∨ recordOf body = none) :
    writeRecord h index body s = refuse h 6 .badArgument s := by
  unfold writeRecord
  split
  · next i c hi hb =>
    rcases hr with high | unread
    · rw [finOf_none high] at hi; cases hi
    · rw [unread] at hb; cases hb
  · rfl

section
variable (hb : recordOf body = some c)
include hb

theorem writeRecord_read : writeRecord h i body s =
    if recordConflicts i c s = true then refuse h 6 .badArgument s
    else (writeRefusal i c s).elim
      (afterWrite i (recordAt i s) c (answer h 6 .ok .none
        (putRecord i { c with needsLocate := writtenLocate (recordAt i s) c } s)))
      fun st => refuse h 6 st s := by
  rw [writeRecord, finOf_val, hb]
  dsimp only
  cases writeRefusal i c s <;> rfl

theorem writeRecord_conflict (hc : recordConflicts i c s = true) :
    writeRecord h i body s = refuse h 6 .badArgument s := (writeRecord_read hb).trans (if_pos hc)

theorem writeRecord_refused {st : Status} (hc : ¬ recordConflicts i c s = true) (hr : writeRefusal i c s = some st) :
    writeRecord h i body s = refuse h 6 st s := by
  rw [writeRecord_read hb, if_neg hc, hr, Option.elim_some]

theorem writeRecord_placed (hc : ¬ recordConflicts i c s = true) (hr : writeRefusal i c s = none) :
    writeRecord h i body s = afterWrite i (recordAt i s) c (answer h 6 .ok .none
      (putRecord i { c with needsLocate := writtenLocate (recordAt i s) c } s)) := by
  rw [writeRecord_read hb, if_neg hc, hr, Option.elim_none]

end

/-! ## The removal (R95, R96) -/

theorem removeRecord_unread (hi : 63 < index) : removeRecord h index s = refuse h 6 .badArgument s := by
  rw [removeRecord, finOf_none hi]

theorem removeRecord_refused {st : Status} (hr : removeRefusal i s = some st) :
    removeRecord h i s = refuse h 6 st s := by
  rw [removeRecord, finOf_val]
  dsimp only
  rw [hr]

theorem removeRecord_removed (hr : removeRefusal i s = none) :
    removeRecord h i s = answer h 6 .ok .none (dropRecord i s) := by
  rw [removeRecord, finOf_val]
  dsimp only
  rw [hr]

theorem removeRefusal_empty (hn : s.cdr.records[i] = none) : removeRefusal i s = none := by
  rw [removeRefusal, recordAt, hn]

end

/-! ## The neighbours (R97) -/

section
variable {old : Option Cart}

theorem afterWrite_threads (hl : c.location = .bay n) (hs : s.lanes[n].state = .unknownMedia) :
    afterWrite i old c s = if old.map (fun o => (o.state, o.endOfData)) = some (c.state, c.endOfData)
      then askPickFor i (sendThread n s) else writeTestFor i (askPickFor i (sendThread n s)) := by
  rw [afterWrite, hl]
  dsimp only
  rw [if_pos hs, ite_not]

theorem afterWrite_quiet (h : ∀ m : LaneId, c.location = .bay m → s.lanes[m].state ≠ .unknownMedia) :
    afterWrite i old c s = if old.map (fun o => (o.state, o.endOfData)) = some (c.state, c.endOfData)
      then askPickFor i s else writeTestFor i (askPickFor i s) := by
  rw [afterWrite]
  cases hl : c.location with
  | bay m =>
    dsimp only
    rw [if_neg (h m hl), ite_not]
  | _ =>
    dsimp only
    rw [ite_not]

end

end Sys2Proof.Machine

namespace Sys2Proof.Proofs

open Sys2Proof Sys2Proof.Machine

/-- Settles O21: a write by the reading of its record, then by the conflict, then by the refusals in their order; the map by
whether the index stands at the place it leaves. -/
theorem writeDirectoryTable : Obligations.WriteDirectoryTable := by
  refine ⟨?write, ?remove, ?ranges, ?places, ?neighbours⟩
  case write =>
    intro h index body s hc u done
    refine ⟨fun bad => exec_taken hc rfl (writeRecord_unread bad), ?_⟩
    rintro i c rfl read conflict bay place
    have conflicts : recordConflicts i c u = true ↔ conflict := recordConflicts_iff i c u
    have bays : bayBusy c u = true ↔ bay := bayBusy_iff c u
    have refused {st : Status} (free : ¬ conflict) (hr : writeRefusal i c u = some st) : done (refuse h 6 st u) :=
      exec_taken hc rfl (writeRecord_refused read (mt conflicts.1 free) hr)
    have placed (free : ¬ conflict) (hr : writeRefusal i c u = none) : place (writtenLocate (recordAt i u) c) :=
      exec_taken hc rfl (writeRecord_placed read (mt conflicts.1 free) hr)
    refine ⟨fun clash => exec_taken hc rfl (writeRecord_conflict read (conflicts.2 clash)), fun free empty => ?_, ?_⟩
    · refine ⟨fun hb => refused free ?_, fun hb => ?_⟩
      · rw [writeRefusal_new empty, if_pos (bays.2 hb)]
      · have locate : writtenLocate (recordAt i u) c = false := by rw [recordAt, empty]; rfl
        exact locate ▸ placed free (by rw [writeRefusal_new empty, if_neg (mt bays.1 hb)])
    · intro o free present prot loses busy
      have prots : writeProtected o c = true ↔ prot := writeProtected_iff o c
      have losing : writeLosesEntries i o c u = true ↔ loses := writeLosesEntries_iff i o c u
      have busies : (recordBusy i o u = true ∨ bayBusy c u = true) ↔ busy := by
        rw [recordBusy_iff, bayBusy_iff, or_assoc, or_assoc]
      have refusal := writeRefusal_present (c := c) present
      simp only [prots, losing, busies] at refusal
      refine ⟨fun hp => refused free ?_, fun hp hl => refused free ?_, fun hp hl hb => refused free ?_,
        fun hp hl hb => ?_⟩
      · rw [refusal, if_pos hp]
      · rw [refusal, if_neg hp, if_pos hl]
      · rw [refusal, if_neg hp, if_neg hl, if_pos hb]
      · have locate : writtenLocate (recordAt i u) c =
            if o.label = c.label then o.needsLocate || decide (o.endOfData ≠ c.endOfData) else true := by
          rw [recordAt, present]; rfl
        exact locate ▸ placed free (by rw [refusal, if_neg hp, if_neg hl, if_neg hb])
  case remove =>
    intro h index s hc u done
    refine ⟨fun high => exec_taken hc rfl (removeRecord_unread high), ?_⟩
    rintro i rfl
    have refused {st : Status} (hr : removeRefusal i u = some st) : done (refuse h 6 st u) :=
      exec_taken hc rfl (removeRecord_refused hr)
    have removed (hr : removeRefusal i u = none) : done (answer h 6 .ok .none (dropRecord i u)) :=
      exec_taken hc rfl (removeRecord_removed hr)
    refine ⟨fun empty => removed (removeRefusal_empty empty), ?_⟩
    intro o present held busy
    have refusal := removeRefusal_present present
    simp only [hasEntries_iff, recordBusy_iff] at refusal
    refine ⟨fun worm => refused ?_, fun worm hh => refused ?_, fun worm hh hb => refused ?_, fun worm hh hb => removed ?_⟩
    · rw [refusal, if_pos worm]
    · rw [refusal, if_neg (Bool.eq_false_iff.1 worm), if_pos hh]
    · rw [refusal, if_neg (Bool.eq_false_iff.1 worm), if_neg hh, if_pos hb]
    · rw [refusal, if_neg (Bool.eq_false_iff.1 worm), if_neg hh, if_neg hb]
  case ranges =>
    intro a c
    have word := word32Of_eq_some_iff a.endOfData c.endOfData
    rw [recordOf_eq_some_iff, ← writtenLocation_iff, ← cartStateOf_eq_some_iff, ← flagOf_eq_some_iff, ← labelOk_iff,
      finOf_eq_some_iff, slotOf_eq_some_iff, word]
    constructor
    · rintro ⟨pool, state, location, home, ⟨fits, eod⟩, worm, ⟨label, placed, floor, verified⟩, hl, hf, hv, locate⟩
      exact ⟨label, pool, home, state, ⟨location, placed⟩, worm, fits, eod ▸ floor, eod ▸ verified, hl, eod, hf, hv, locate⟩
    · rintro ⟨label, pool, home, state, ⟨location, placed⟩, worm, fits, floor, verified, hl, eod, hf, hv, locate⟩
      exact ⟨pool, state, location, home, ⟨fits, eod⟩, worm, ⟨label, placed, eod ▸ floor, eod ▸ verified⟩,
        hl, hf, hv, locate⟩
  case places =>
    intro i c s placed dropped left
    refine ⟨cdrOnly_putRecord i c s, putRecord_records i c s, cdrOnly_dropRecord i s, dropRecord_records i s,
      fun l outside missing => ⟨?_, fun other gone => ?_, fun other stays => ?_, fun gone => ?_, fun stays => ?_⟩⟩
    · rintro rfl
      exact namedAt_putRecord_same outside missing
    · exact (namedAt_putRecord_other other).trans (namedAt_clearPlace_left gone)
    · exact (namedAt_putRecord_other other).trans (namedAt_clearPlace_other stays)
    · exact (namedAt_dropRecord l i s).trans (namedAt_clearPlace_left gone)
    · exact (namedAt_dropRecord l i s).trans (namedAt_clearPlace_other stays)
  case neighbours =>
    intro i old c n s present tested
    refine ⟨afterWrite_threads, afterWrite_quiet, askPickFor_none present, fun k scratch here writes only => ?_,
      writeTestFor_none, writeTestFor_one⟩
    rw [askPickFor_scratch present scratch here, askPick_some (writeLane_eq_some writes only)]

end Sys2Proof.Proofs
end

section
/-! PROOFS. Directory requests: PROTECT, SET_WORM, ERASE_FROM, RECYCLE and FORGET, and what leaves the catalog (R99 to R104,
R140). -/

namespace Sys2Proof.Machine

variable {h : Hdr} {i : CartId} {c : Cart} {s : State}

/-! ## The record that a request names (R99) -/

section
variable {code index : Nat} {f : CartId → Cart → State → State}

theorem withRecord_unread (hi : 63 < index) : withRecord h code index f s = refuse h code .badArgument s := by
  rw [withRecord, finOf_none hi]

theorem withRecord_empty (hn : s.cdr.records[i] = none) : withRecord h code i f s = refuse h code .notFound s := by
  rw [withRecord, finOf_val]
  dsimp only
  rw [recordAt, hn]

theorem withRecord_present (hc : s.cdr.records[i] = some c) : withRecord h code i f s = f i c s := by
  rw [withRecord, finOf_val]
  dsimp only
  rw [recordAt, hc]

end

/-! ## PROTECT (R100) -/

section
variable {index floor : Nat}

theorem protect_badArgument (bad : 63 < index ∨ max32 < floor) : protect h index floor s = refuse h 19 .badArgument s := by
  by_cases high : max32 < floor
  · exact if_pos high
  · exact (if_neg high).trans (withRecord_unread (bad.resolve_right high))

theorem protect_notFound (hf : floor ≤ max32) (hn : s.cdr.records[i] = none) :
    protect h i floor s = refuse h 19 .notFound s := (if_neg (not_lt.2 hf)).trans (withRecord_empty hn)

theorem protect_ok (hf : floor ≤ max32) (hc : s.cdr.records[i] = some c) : protect h i floor s =
    answer h 19 .ok (.number (raisedFloor floor c)) { s with cdr := { s.cdr with
      records := s.cdr.records.set i (some { c with floor := raisedFloor floor c }) } } := by
  rw [protect, if_neg (not_lt.2 hf), withRecord_present hc, modRecord_some _ hc]

end

/-! ## SET_WORM (R101) -/

theorem setWorm_badArgument {index : Nat} (hi : 63 < index) : setWorm h index s = refuse h 20 .badArgument s :=
  withRecord_unread hi

theorem setWorm_notFound (hn : s.cdr.records[i] = none) : setWorm h i s = refuse h 20 .notFound s := withRecord_empty hn

theorem setWorm_ok (hc : s.cdr.records[i] = some c) : setWorm h i s =
    answer h 20 .ok .none { s with cdr := { s.cdr with
      records := s.cdr.records.set i (some { c with worm := true }) } } := by
  rw [setWorm, withRecord_present hc, modRecord_some _ hc]

/-! ## What leaves the catalog (R136, R140) -/

section
variable {b : Nat}

theorem keepEntries_shorter {keep : List CatEntry → List CatEntry}
    (hl : (keep s.cat.entries).length < s.cat.entries.length) : keepEntries keep s =
      roomReport { s with cat := { s.cat with entries := keep s.cat.entries } } := if_pos hl

theorem keepEntries_all {keep : List CatEntry → List CatEntry} (hk : keep s.cat.entries = s.cat.entries) :
    keepEntries keep s = s := by
  have kept : modCat (fun c => { c with entries := keep c.entries }) s = s := by rw [modCat, hk]
  rw [keepEntries, kept]
  exact if_neg (lt_irrefl _)

theorem removeEntries_eq (i : CartId) (b : Nat) (s : State) : removeEntries i b s =
    keepEntries (List.filter fun e => !decide (e.cart = i ∧ b ≤ e.block)) s := by
  simp only [removeEntries, Bool.decide_and]

theorem removeEntries_some (hg : ∃ e ∈ s.cat.entries, e.cart = i ∧ b ≤ e.block) : removeEntries i b s =
    roomReport { s with cat := { s.cat with
      entries := s.cat.entries.filter fun e => !decide (e.cart = i ∧ b ≤ e.block) } } := by
  obtain ⟨e, he, goes⟩ := hg
  rw [removeEntries_eq]
  exact keepEntries_shorter (List.length_filter_lt_length_iff_exists.2 ⟨e, he, by simpa using goes⟩)

theorem removeEntries_none (hg : ∀ e ∈ s.cat.entries, ¬ (e.cart = i ∧ b ≤ e.block)) : removeEntries i b s = s := by
  rw [removeEntries_eq]
  exact keepEntries_all (List.filter_eq_self.2 fun e he => by rw [decide_eq_false (hg e he)]; rfl)

end

/-! ## ERASE_FROM (R102) -/

section
variable {index block : Nat}

theorem eraseFrom_badArgument (bad : 63 < index ∨ max32 < block) :
    eraseFrom h index block s = refuse h 21 .badArgument s := by
  by_cases high : max32 < block
  · exact if_pos high
  · exact (if_neg high).trans (withRecord_unread (bad.resolve_right high))

section
variable (hb : block ≤ max32)
include hb

theorem eraseFrom_notFound (hn : s.cdr.records[i] = none) : eraseFrom h i block s = refuse h 21 .notFound s :=
  (if_neg (not_lt.2 hb)).trans (withRecord_empty hn)

theorem eraseFrom_refused {st : Status} (hc : s.cdr.records[i] = some c) (hr : eraseRefusal i c block s = some st) :
    eraseFrom h i block s = refuse h 21 st s := by
  rw [eraseFrom, if_neg (not_lt.2 hb), withRecord_present hc, hr]

theorem eraseFrom_ok (hc : s.cdr.records[i] = some c) (hr : eraseRefusal i c block s = none) : eraseFrom h i block s =
    writeTestFor i (answer h 21 .ok .none (removeEntries i block { s with cdr := { s.cdr with
      records := s.cdr.records.set i (some { c with endOfData := block, verifiedTo := min c.verifiedTo block }) } })) := by
  rw [eraseFrom, if_neg (not_lt.2 hb), withRecord_present hc, hr, modRecord_some _ hc]

end

end

/-! ## RECYCLE (R103) -/

theorem recycle_badArgument {index : Nat} (hi : 63 < index) : recycle h index s = refuse h 22 .badArgument s :=
  withRecord_unread hi

theorem recycle_notFound (hn : s.cdr.records[i] = none) : recycle h i s = refuse h 22 .notFound s := withRecord_empty hn

theorem recycle_refused {st : Status} (hc : s.cdr.records[i] = some c) (hr : recycleRefusal i c s = some st) :
    recycle h i s = refuse h 22 st s := by
  rw [recycle, withRecord_present hc, hr]

theorem recycle_ok (hc : s.cdr.records[i] = some c) (hr : recycleRefusal i c s = none) : recycle h i s =
    askPickFor i (writeTestFor i (answer h 22 .ok .none (removeEntries i 0 { s with cdr := { s.cdr with
      records := s.cdr.records.set i (some { c with state := .scratch, endOfData := 0, verifiedTo := 0 }) } }))) := by
  rw [recycle, withRecord_present hc, hr, modRecord_some _ hc]

/-! ## FORGET (R104) -/

theorem forget_badArgument {index : Nat} (hi : 63 < index) : forget h index s = refuse h 23 .badArgument s :=
  withRecord_unread hi

theorem forget_notFound (hn : s.cdr.records[i] = none) : forget h i s = refuse h 23 .notFound s := withRecord_empty hn

section
variable (hc : s.cdr.records[i] = some c)
include hc

theorem forget_placed (ho : c.location ≠ .outside) (hm : c.location ≠ .missing) :
    forget h i s = refuse h 23 .badState s := by
  rw [forget, withRecord_present hc, if_pos ⟨ho, hm⟩]

theorem forget_gone (hl : c.location = .outside ∨ c.location = .missing) : forget h i s =
    if namedByQueue i s = true then refuse h 23 .busy s else answer h 23 .ok .none (dropRecord i (removeEntries i 0 s)) := by
  rw [forget, withRecord_present hc, if_neg fun placed => hl.elim placed.1 placed.2]

end

end Sys2Proof.Machine

namespace Sys2Proof.Proofs

open Sys2Proof Sys2Proof.Machine

/-- Settles O25: each request by the index and the argument, then by the record found, then by its refusals in their
order. -/
theorem directoryRequests : Obligations.DirectoryRequests := by
  refine ⟨?protection, ?erase, ?recycleForget, ?removal⟩
  case protection =>
    intro h index floor s hc u protectIs wormIs
    refine ⟨fun bad => exec_taken hc rfl (protect_badArgument bad), fun high => exec_taken hc rfl (setWorm_badArgument high),
      ?_⟩
    rintro i rfl
    refine ⟨fun empty => ⟨fun fits => ?_, exec_taken hc rfl (setWorm_notFound empty)⟩, fun c present => ⟨fun fits => ?_, ?_⟩⟩
    · exact exec_taken hc rfl (protect_notFound fits empty)
    · exact exec_taken hc rfl (protect_ok fits present)
    · exact exec_taken hc rfl (setWorm_ok present)
  case erase =>
    intro h index block s hc u done
    refine ⟨fun bad => exec_taken hc rfl (eraseFrom_badArgument bad), ?_⟩
    rintro i rfl fits
    refine ⟨fun empty => exec_taken hc rfl (eraseFrom_notFound fits empty), fun c present => ?_⟩
    have refused {st : Status} (hr : eraseRefusal i c block u = some st) : done (refuse h 21 st u) :=
      exec_taken hc rfl (eraseFrom_refused fits present hr)
    have unprotected (worm : c.worm = false) (floor : c.floor ≤ block) : ¬ (c.worm = true ∨ block < c.floor) := by
      simp [worm, floor]
    refine ⟨fun past => refused (if_pos past), fun within prot => refused ?_, fun within worm floor moving => refused ?_,
      fun within worm floor still => exec_taken hc rfl (eraseFrom_ok fits present ?_)⟩
    · rw [eraseRefusal, if_neg (not_lt.2 within), if_pos prot]
    · rw [eraseRefusal, if_neg (not_lt.2 within), if_neg (unprotected worm floor), if_pos moving]
    · rw [eraseRefusal, if_neg (not_lt.2 within), if_neg (unprotected worm floor), if_neg (Bool.eq_false_iff.1 still)]
  case recycleForget =>
    intro h index s hc u recycleIs forgetIs
    refine ⟨fun high => ⟨exec_taken hc rfl (recycle_badArgument high), exec_taken hc rfl (forget_badArgument high)⟩, ?_⟩
    rintro i rfl
    refine ⟨fun empty => ⟨exec_taken hc rfl (recycle_notFound empty), exec_taken hc rfl (forget_notFound empty)⟩,
      fun c present => ?_⟩
    have refused {st : Status} (hr : recycleRefusal i c u = some st) : recycleIs (refuse h 22 st u) :=
      exec_taken hc rfl (recycle_refused present hr)
    have bare (floor : c.floor = 0) (worm : c.worm = false) : ¬ (0 < c.floor ∨ c.worm = true) := by simp [floor, worm]
    refine ⟨fun prot => refused (if_pos prot), fun floor worm moving => refused ?_,
      fun floor worm still => exec_taken hc rfl (recycle_ok present ?_),
      fun outside missing => exec_taken hc rfl (forget_placed present outside missing),
      fun gone named => exec_taken hc rfl ((forget_gone present gone).trans (if_pos ((namedByQueue_iff i u).2 named))),
      fun gone free => exec_taken hc rfl ((forget_gone present gone).trans (if_neg ?_))⟩
    · rw [recycleRefusal, if_neg (bare floor worm), if_pos moving]
    · rw [recycleRefusal, if_neg (bare floor worm), if_neg (Bool.eq_false_iff.1 still)]
    · exact Bool.eq_false_iff.1 ((namedByQueue_false_iff i u).2 free)
  case removal =>
    intro i block s goes left
    exact ⟨removeEntries_some, removeEntries_none⟩

end Sys2Proof.Proofs
end

section
/-! PROOFS. Probes, grips and sensors: what a PROBE's reading, the held sensor, the door and the mail slots change (R93,
R117, R123, R125, R127). -/

namespace Sys2Proof.Machine

variable {s : State} {l : Location} {i : CartId} {c : Cart}

/-! ## Probes (R93, R117, R126) -/

section
variable {occupied : Bool} {e : Expectation}

theorem probeDone_other (h : ∀ x e, currentStep s ≠ some (.probe x e)) : probeDone occupied s = s := by
  unfold probeDone
  split
  · next x e step => exact absurd step (h x e)
  · rfl

theorem probeDone_probe (h : currentStep s = some (.probe l e)) : probeDone occupied s = probed l e occupied s := by
  rw [probeDone, h]

theorem probed_source_passes (h : s.ldr.state = .stopping ∨ occupied = true) :
    probed l (.source i) occupied s = stepEnds s := if_pos h

theorem probed_source_empty (hs : s.ldr.state ≠ .stopping) :
    probed l (.source i) false s = planFails .sourceEmpty (foundEmpty i l s) :=
  if_neg (by simp [hs])

theorem probed_destination_passes (h : s.ldr.state = .stopping ∨ occupied = false) :
    probed l .destination occupied s = stepEnds s := if_pos h

theorem probed_destination_occupied (hs : s.ldr.state ≠ .stopping) :
    probed l .destination true s = planFails .destOccupied s :=
  if_neg (by simp [hs])

end

/-! ## The held sensor (R117) -/

/-- The held sensor reads the other way, and the serve test that a reading asks for is owed. -/
def sensorTurned (s : State) : State :=
  post .serveTest { s with ldr := { s.ldr with heldSensor := !s.ldr.heldSensor } }

theorem sensorTurned_eq {held : Bool} (hh : held ≠ s.ldr.heldSensor) :
    post .serveTest (modLdr (fun d => { d with heldSensor := held }) s) = sensorTurned s := by
  rw [Bool.eq_not.2 hh]
  rfl

theorem getDone_other (h : (∀ x, currentStep s ≠ some (.get x)) ∨ s.ldr.heldSensor = true) : getDone s = s := by
  unfold getDone
  split
  · next x step sensor =>
    rcases h with other | held
    · exact absurd step (other x)
    · rw [held] at sensor; cases sensor
  · rfl

theorem getDone_get (h : currentStep s = some (.get l)) (hh : s.ldr.heldSensor = false) : getDone s = gripped l s := by
  rw [getDone, h, hh]

theorem putDone_other (h : (∀ x, currentStep s ≠ some (.put x)) ∨ s.ldr.heldSensor = false) : putDone s = s := by
  unfold putDone
  split
  · next x step sensor =>
    rcases h with other | empty
    · exact absurd step (other x)
    · rw [empty] at sensor; cases sensor
  · rfl

theorem putDone_put (h : currentStep s = some (.put l)) (hh : s.ldr.heldSensor = true) : putDone s = released l s := by
  rw [putDone, h, hh]

theorem heldSensorChange_same {held : Bool} (hh : held = s.ldr.heldSensor) : heldSensorChange held s = s :=
  if_pos hh.symm

/-- A change that no grip in progress waits for is recorded only (R117). -/
theorem heldSensorChange_recorded {held : Bool} (hh : held ≠ s.ldr.heldSensor)
    (hg : ∀ x, currentStep s = some (.get x) → held = false) (hp : ∀ x, currentStep s = some (.put x) → held = true) :
    heldSensorChange held s = sensorTurned s := by
  unfold heldSensorChange
  rw [if_neg hh.symm]
  split
  · next x step => cases hg x step
  · next x step => cases hp x step
  · exact sensorTurned_eq hh

theorem heldSensorChange_get (h : currentStep s = some (.get l)) (hh : s.ldr.heldSensor = false) :
    heldSensorChange true s = gripped l s := by
  unfold heldSensorChange
  rw [if_neg (by simp [hh]), h]

theorem heldSensorChange_put (h : currentStep s = some (.put l)) (hh : s.ldr.heldSensor = true) :
    heldSensorChange false s = released l s := by
  unfold heldSensorChange
  rw [if_neg (by simp [hh]), h]

/-! ## What a grip moves (R93, R123) -/

theorem gripped_eq (hh : s.ldr.heldSensor = false) : gripped l s = stepEnds (bayEmptied l
    ((namedAt l s).elim (sensorTurned s) fun i => moveRecord i .picker (sensorTurned s))) := by
  rw [gripped, sensorTurned_eq (held := true) (by simp [hh]), show namedAt l (sensorTurned s) = namedAt l s from rfl]
  cases namedAt l s <;> rfl

/-- The lane at an emptied bay is looked at as it stood before the record moved (R62). -/
theorem bayEmptied_eq {t : State} (hl : t.lanes = s.lanes) : bayEmptied l t = match l with
    | .bay n => if s.lanes[n].state = .ejected ∨ s.lanes[n].state = .unknownMedia then
        setLaneState n .empty (modLane n (fun x => { x with mounted := none }) t) else t
    | _ => t := by
  rw [← hl]
  cases l <;> rfl

theorem released_eq (hh : s.ldr.heldSensor = true) : released l s = stepEnds
    ((namedAt .picker s).elim (sensorTurned s) fun i => askPickFor i (newHome i l (moveRecord i l (sensorTurned s)))) := by
  rw [released, sensorTurned_eq (held := false) (by simp [hh]),
    show heldRecord (sensorTurned s) = namedAt .picker s from rfl]
  cases namedAt .picker s <;> rfl

theorem newHome_of_move {k : Fin 48} {p : Plan} (hc : s.cdr.records[i] = some c) (hp : s.ldr.plan = some p)
    (move : p.kind = .move ∧ p.cart = some i) : newHome i (.slot k) s =
      { s with cdr := { s.cdr with records := s.cdr.records.set i (some { c with home := k }) } } := by
  unfold newHome
  rw [hp]
  exact (if_pos move).trans (modRecord_some _ hc)

theorem newHome_other
    (h : (∀ k, l ≠ .slot k) ∨ ¬ ∃ p, s.ldr.plan = some p ∧ p.kind = .move ∧ p.cart = some i) : newHome i l s = s := by
  unfold newHome
  split
  · next p k plan =>
    refine if_neg fun move => ?_
    rcases h with other | noMove
    · exact other k rfl
    · exact noMove ⟨p, plan, move⟩
  · rfl

/-! ## A grip's limit (R117) -/

theorem gripTimeout_grip (h : (∃ x, currentStep s = some (.get x)) ∨ ∃ x, currentStep s = some (.put x)) :
    gripTimeout s = if s.ldr.gripLimit ≤ (s.ttu.time - s.ldr.gripStart).toNat then loaderFault .gripTimeout s else s := by
  rcases h with ⟨x, step⟩ | ⟨x, step⟩
  · rw [gripTimeout, step]; rfl
  · rw [gripTimeout, step]; rfl

theorem gripTimeout_other (hn : ¬ ((∃ x, currentStep s = some (.get x)) ∨ ∃ x, currentStep s = some (.put x))) :
    gripTimeout s = s := by
  unfold gripTimeout
  split
  · next x step => exact absurd (.inl ⟨x, step⟩) hn
  · next x step => exact absurd (.inr ⟨x, step⟩) hn
  · rfl

/-! ## The door and the mail slots (R93, R127) -/

section
variable {isOpen present : Bool} {m : Fin 2}

theorem doorSensorChange_same (h : isOpen = s.ldr.doorOpen) : doorSensorChange isOpen s = s := if_pos h.symm

theorem doorSensorChange_changed (h : isOpen ≠ s.ldr.doorOpen) : doorSensorChange isOpen s = { s with
    ldr := { s.ldr with doorOpen := isOpen }
    due := s.due ++ [.event { kind := if isOpen = true then .doorOpened else .doorClosed, qual := none }] } :=
  if_neg h.symm

theorem mailSlotSensorChange_same (h : present = s.ldr.mailSensors[m]) : mailSlotSensorChange m present s = s :=
  if_pos h.symm

/-- A new reading of a mail slot is kept; a slot read empty behind an open door has lost its record (R93, R127). -/
theorem mailSlotSensorChange_changed (h : present ≠ s.ldr.mailSensors[m]) {seen : State}
    (hs : seen = { s with ldr := { s.ldr with mailSensors := s.ldr.mailSensors.set m present } }) :
    mailSlotSensorChange m present s = if present = false ∧ s.ldr.doorOpen = true
      then (namedAt (.mail m) s).elim seen fun i => moveRecord i .outside seen else seen := by
  subst hs
  refine (if_neg h.symm).trans (if_congr Iff.rfl ?_ rfl)
  show (match namedAt (.mail m) s with | none => _ | some i => _) = _
  cases namedAt (.mail m) s <;> rfl

end

end Sys2Proof.Machine

namespace Sys2Proof.Proofs

open Sys2Proof Sys2Proof.Machine

/-- Settles O44: probes by their expectation, the held sensor by the step in progress, the door and the mail slots by whether
the reading is new; the map by where the moved record stood. -/
theorem probesGripsAndSensors : Obligations.ProbesGripsAndSensors := by
  refine ⟨?picker, ?sensors, ?moved, ?home⟩
  case picker =>
    intro occupied held l s u step does sensor emptied
    refine ⟨fun other => outside_congr (probeDone_other other), fun i source => ?source, fun destination => ?destination,
      fun scan => ?scan, fun other => outside_congr (getDone_other other), fun other => outside_congr (putDone_other other),
      fun same => outside_congr (heldSensorChange_same same), ?recorded, ?getEmpties, ?putHolds, fun get empty => ?get,
      fun put holds => ?put, ?limit⟩
    case source =>
      have reads := probeDone_probe (occupied := occupied) source
      refine ⟨fun passes => outside_congr (reads.trans (probed_source_passes passes)), fun running empty => ?_⟩
      subst empty
      exact outside_congr (reads.trans (probed_source_empty running))
    case destination =>
      have reads := probeDone_probe (occupied := occupied) destination
      refine ⟨fun passes => outside_congr (reads.trans (probed_destination_passes passes)), fun running there => ?_⟩
      subst there
      exact outside_congr (reads.trans (probed_destination_occupied running))
    case scan =>
      refine outside_congr ((probeDone_probe scan).trans (congrArg stepEnds ?_))
      unfold scanReading
      cases occupied <;> cases namedAt l (settle s) <;> rfl
    case recorded =>
      intro changed noGet noPut
      exact outside_congr (heldSensorChange_recorded changed (fun x h => absurd h (noGet x)) fun x h => absurd h (noPut x))
    case getEmpties =>
      rintro changed ⟨x, get⟩ empty
      exact outside_congr (heldSensorChange_recorded changed (fun _ _ => empty) fun y put => nomatch get.symm.trans put)
    case putHolds =>
      rintro changed ⟨x, put⟩ holds
      exact outside_congr (heldSensorChange_recorded changed (fun y get => nomatch put.symm.trans get) fun _ _ => holds)
    case get =>
      intro v taken t
      have grips : gripped l u = t := by
        have lanes : taken.lanes = u.lanes := by
          show State.lanes (match namedAt l u with | none => v | some i => moveRecord i .picker v) = _
          cases namedAt l u with
          | none => rfl
          | some i => exact (cdrOnly_moveRecord i .picker v).lanes
        have moves : ((namedAt l u).elim (sensorTurned u) fun i => moveRecord i .picker (sensorTurned u)) = taken := by
          show _ = match namedAt l u with | none => v | some i => moveRecord i .picker v
          cases namedAt l u <;> rfl
        exact (gripped_eq empty).trans (congrArg stepEnds ((congrArg (bayEmptied l) moves).trans (bayEmptied_eq lanes)))
      exact ⟨outside_congr ((getDone_get get empty).trans grips),
        outside_congr ((heldSensorChange_get get empty).trans grips)⟩
    case put =>
      intro v t
      have releases : released l u = t := by
        refine (released_eq holds).trans (congrArg stepEnds ?_)
        cases namedAt .picker u <;> rfl
      exact ⟨outside_congr ((putDone_put put holds).trans releases),
        outside_congr ((heldSensorChange_put put holds).trans releases)⟩
    case limit =>
      refine ⟨fun waits => outside_congr ?_,
        fun grip passed => outside_congr ((gripTimeout_grip grip).trans (if_pos passed))⟩
      by_cases grip : (∃ x, currentStep u = some (.get x)) ∨ ∃ x, currentStep u = some (.put x)
      · exact (gripTimeout_grip grip).trans (if_neg (waits.resolve_left (not_not.2 grip)))
      · exact gripTimeout_other grip
  case sensors =>
    intro isOpen present m s u doorIs mailIs seen
    refine ⟨fun same => outside_congr (doorSensorChange_same same),
      fun changed => outside_congr (doorSensorChange_changed changed),
      fun same => outside_congr (mailSlotSensorChange_same same), fun changed => ?_⟩
    have reads := mailSlotSensorChange_changed changed (seen := seen) rfl
    refine ⟨fun stays => outside_congr (reads.trans ?_), fun i empty opened named => outside_congr (reads.trans ?_)⟩
    · rcases stays with there | shut | unnamed
      · exact if_neg fun lost => Bool.noConfusion (there.symm.trans lost.1)
      · exact if_neg fun lost => Bool.noConfusion (shut.symm.trans lost.2)
      · rw [unnamed, Option.elim_none, ite_self]
    · rw [if_pos ⟨empty, opened⟩, named, Option.elim_some]
  case moved =>
    intro i l c s present t left
    have stands (x : Location) : StandsAt i x s ↔ left x := standsAt_iff present
    refine ⟨cdrOnly_moveRecord i l s, moveRecord_records_same present, fun j other => ⟨fun named => ?_, fun free => ?_⟩,
      namedAt_moveRecord_same, fun x away => ⟨fun gone => ?_, fun stays => ?_⟩⟩
    · exact (moveRecord_records_other other).trans (displaceOther_named other named)
    · exact (moveRecord_records_other other).trans (displaceOther_unnamed (.inr free))
    · exact namedAt_moveRecord_left away ((stands x).2 gone)
    · exact namedAt_moveRecord_stays away (mt (stands x).1 stays)
  case home =>
    intro i l c s present ofMove
    refine ⟨?_, newHome_other⟩
    rintro k rfl ⟨p, plan, move⟩
    exact newHome_of_move present plan move

end Sys2Proof.Proofs
end

section
/-! PROOFS. Loader motion: the deviation test, travel and homing steps, encoder counts (R112 to R116). -/

namespace Sys2Proof.Machine

variable {s : State} {l : Location} {x : Nat}

/-! ## The deviation test (R112, R114) -/

theorem deviationFault_placed {a b : Nat} (ha : s.ldr.logical = some a) (hb : s.ldr.real = some b) :
    deviationFault s = if s.settings.devLimit < max a b - min a b then loaderFault .positionError s else s := by
  simp [deviationFault, deviates, ha, hb]

theorem deviationFault_unplaced (h : s.ldr.logical = none ∨ s.ldr.real = none) : deviationFault s = s := by
  refine if_neg ?_
  unfold deviates
  split
  · next ha hb => simp [ha, hb] at h
  · exact Bool.false_ne_true

/-! ## Travel steps (R113) -/

/-- The interval of the step in progress, by the ramp index, has passed (R112, R113). -/
def StepPassed (s : State) : Prop :=
  s.tables.ramp.getD s.ldr.ramp.toNat 0 ≤ (s.ttu.time - s.ldr.stepStart).toNat

theorem intervalPassed_iff (s : State) : intervalPassed s = true ↔ StepPassed s := decide_eq_true_iff

theorem travelStep_other (h : (∀ l, currentStep s ≠ some (.travel l)) ∨ s.ldr.remaining = 0 ∨ ¬ StepPassed s) :
    travelStep s = s := by
  unfold travelStep
  split
  · next l step =>
    refine if_neg fun ⟨more, passed⟩ => ?_
    rcases h with other | done | early
    · exact other l step
    · omega
    · exact early ((intervalPassed_iff s).1 passed)
  · rfl

theorem travelStep_outputs (h : currentStep s = some (.travel l)) (more : 0 < s.ldr.remaining) (passed : StepPassed s) :
    travelStep s = travelOutput s := by
  rw [travelStep, h]
  exact if_pos ⟨more, (intervalPassed_iff s).2 passed⟩

/-- The loader one travel step on, with `m` steps left, before the positions are tested (R113). -/
def steppedTo (m : Nat) (s : State) : State :=
  { s with ldr := { s.ldr with
    logical := s.ldr.logical.map fun x => if s.ldr.direction = .towardZero then x - 1 else x + 1
    remaining := m
    ramp := if m = 0 then -1 else min (min (s.ldr.ramp + 1) s.ldr.top) (m - 1 : Nat)
    stepStart := s.ttu.time } }

theorem travelOutput_eq (s : State) : travelOutput s =
    let v := deviationTest (steppedTo (s.ldr.remaining - 1) s)
    if v.ldr.state = .fault ∨ 0 < s.ldr.remaining - 1 then v else stepEnds (raise .moveDone none v) := rfl

/-! ## Homing steps (R115, R116) -/

section
variable {homeActive : Bool}

/-- The loader one homing step on, its sensor read (R116; log entry 31). -/
def homingStepped (homeActive : Bool) (s : State) : State :=
  { s with ldr := { s.ldr with
    homeSensor := homeActive
    homingSteps := s.ldr.homingSteps + 1
    stepStart := s.ttu.time } }

theorem homingStep_other (h : s.ldr.state ≠ .homing ∨ ¬ StepPassed s) : homingStep homeActive s = s := by
  refine if_neg fun ⟨homing, passed⟩ => ?_
  rcases h with other | early
  · exact other homing
  · exact early ((intervalPassed_iff s).1 passed)

/-- A stop decides before the sensor, and the sensor before the count of steps (R115, R116; log entry 15). -/
theorem homingStep_eq (homing : s.ldr.state = .homing) (passed : StepPassed s) : homingStep homeActive s =
    let v := homingStepped homeActive s
    if s.ldr.homingStop = true then { v with ldr := { v.ldr with state := .unhomed, ramp := -1, homingStop := false } }
    else if homeActive = true then homed v
    else if 65536 ≤ s.ldr.homingSteps + 1 then loaderFault .homeNotFound v
    else v :=
  if_pos ⟨homing, (intervalPassed_iff s).2 passed⟩

end

/-! ## Encoder counts (R114) -/

theorem encoderCount_unplaced (h : s.ldr.real = none) : encoderCount s = s := by rw [encoderCount, h]

/-- On the axis a count moves the real position by 1 along the direction (R114). -/
theorem encoderCount_moves (h : s.ldr.real = some x) (low : s.ldr.direction = .towardZero → 0 < x)
    (high : s.ldr.direction = .away → x < 65535) : encoderCount s = deviationTest { s with ldr := { s.ldr with
      real := some (if s.ldr.direction = .towardZero then x - 1 else x + 1) } } := by
  have counted : countedPosition x s = (if s.ldr.direction = .towardZero then x - 1 else x + 1, s) := by
    unfold countedPosition
    cases way : s.ldr.direction with
    | towardZero => exact if_pos (low way)
    | away => exact if_pos (high way)
  rw [encoderCount, h]
  dsimp only
  rw [counted]
  rfl

/-- Past an end of the axis a count gives a free position (log entry 10). -/
theorem encoderCount_leaves (h : s.ldr.real = some x)
    (off : (s.ldr.direction = .towardZero ∧ x = 0) ∨ (s.ldr.direction = .away ∧ 65535 ≤ x)) :
    encoderCount s = deviationTest { s with
      freeCount := s.freeCount + 1
      ldr := { s.ldr with real := some (Config.freePosition s.freeCount).toNat } } := by
  have counted : countedPosition x s = countedPosition.draw s := by
    unfold countedPosition
    obtain ⟨way, low⟩ | ⟨way, high⟩ := off <;> rw [way]
    · exact if_neg (by omega)
    · exact if_neg (by omega)
  rw [encoderCount, h]
  dsimp only
  rw [counted]
  rfl

end Sys2Proof.Machine

namespace Sys2Proof.Proofs

open Sys2Proof Sys2Proof.Machine

/-- Settles O43: the deviation test by the positions that are there, a travel step by what it leaves, a homing step by what
ends it, a count by whether it stays on the axis. -/
theorem loaderMotion : Obligations.LoaderMotion := by
  intro homeActive s u d passed faults tested travelIs homingIs
  have deviation (v : State) : deviationFault v = faults v := by
    dsimp only [faults]
    cases ha : v.ldr.logical with
    | none => exact deviationFault_unplaced (.inl ha)
    | some a =>
      cases hb : v.ldr.real with
      | none => exact deviationFault_unplaced (.inr hb)
      | some b => exact deviationFault_placed ha hb
  have test (v : State) : deviationTest v = tested v :=
    if_congr Iff.rfl (deviation v) rfl
  refine ⟨fun v => ⟨test v, if_congr Iff.rfl rfl (deviation v)⟩, fun h => outside_congr (travelStep_other h),
    ?travel, fun h => outside_congr (homingStep_other h), ?homing,
    fun h => outside_congr (encoderCount_unplaced h),
    fun x placed low high => outside_congr ((encoderCount_moves placed low high).trans (test _)),
    fun x placed off => outside_congr ((encoderCount_leaves placed off).trans (test _))⟩
  case travel =>
    intro l step more ready m v
    have output : travelStep u = if v.ldr.state = .fault ∨ 0 < m then v else stepEnds (raise .moveDone none v) := by
      rw [travelStep_outputs step more ready, travelOutput_eq, test]
      rfl
    exact ⟨fun ends => outside_congr (output.trans (if_pos ends)),
      fun sound last => outside_congr (output.trans (if_neg (not_or.2 ⟨sound, by omega⟩)))⟩
  case homing =>
    intro homing ready v
    have step := homingStep_eq (homeActive := homeActive) homing ready
    have goes (run : d.homingStop = false) : ¬ u.ldr.homingStop = true := Bool.eq_false_iff.1 run
    refine ⟨fun stop => outside_congr (step.trans (if_pos stop)), fun run active => outside_congr (step.trans ?_),
      fun run inactive last => outside_congr (step.trans ?_), fun run inactive more => outside_congr (step.trans ?_)⟩
    · exact (if_neg (goes run)).trans (if_pos active)
    · exact (if_neg (goes run)).trans ((if_neg (Bool.eq_false_iff.1 inactive)).trans (if_pos (Nat.succ_le_succ last)))
    · exact (if_neg (goes run)).trans ((if_neg (Bool.eq_false_iff.1 inactive)).trans
        (if_neg (Nat.not_le.2 (Nat.succ_lt_succ more))))

end Sys2Proof.Proofs
end

section
/-! PROOFS. Plan steps: the mail door, the start of each step, and how a plan goes on (R62, R113, R115, R117, R123 to R125,
R127). -/

namespace Sys2Proof.Machine

variable {s t : State} {l : Location} {n : LaneId} {st : PlanStep} {p : Plan}

/-! ## The mail door (R127) -/

theorem holdDoor_takes {k : Fin 8} (free : s.ldr.doorHold = none) (line : s.settings.doorLine = k.val) :
    holdDoor s = { s with
      ldr := { s.ldr with doorHold := some k }
      ttu := { s.ttu with lines := s.ttu.lines ||| BitVec.twoPow 8 k } } := by
  rw [holdDoor, free, line, finOf_val]
  rfl

theorem holdDoor_held (held : s.ldr.doorHold ≠ none) : holdDoor s = s := by
  unfold holdDoor
  split
  · next free _ => exact absurd free held
  · rfl

/-- The door's hold leaves the plan as it is (R127). -/
theorem holdDoor_plan (s : State) : (holdDoor s).ldr.plan = s.ldr.plan := by
  unfold holdDoor
  split <;> rfl

theorem atMail_iff (st : PlanStep) : atMail st = true ↔ ∃ m, st = .travel (.mail m) ∨ (∃ e, st = .probe (.mail m) e) ∨
    st = .get (.mail m) ∨ st = .put (.mail m) := by
  cases st with
  | laneEject n | laneThread n => simp [atMail]
  | travel l | get l | put l => cases l <;> simp [atMail]
  | probe l e => cases l <;> simp [atMail]

theorem isTravel_iff (st : PlanStep) : isTravel st = true ↔ ∃ l, st = .travel l := by
  cases st <;> simp [isTravel]

theorem beginStep_elsewhere (h : ¬ atMail st = true) : beginStep st s = startStep st s := if_neg h

theorem beginStep_open (mail : atMail st = true) (opened : s.ldr.doorOpen = true)
    (reads : ¬ isTravel st = true ∨ s.ldr.doorHold = none) :
    beginStep st s = (.waits, planFails .doorOpen (holdDoor s)) :=
  (if_pos mail).trans (if_pos ⟨opened, reads.imp_left Bool.eq_false_iff.2⟩)

theorem beginStep_shut (mail : atMail st = true)
    (passes : s.ldr.doorOpen = false ∨ (isTravel st = true ∧ s.ldr.doorHold ≠ none)) :
    beginStep st s = startStep st (holdDoor s) := by
  refine (if_pos mail).trans (if_neg fun ⟨opened, reads⟩ => ?_)
  rcases passes with shut | ⟨travel, held⟩
  · exact Bool.noConfusion (shut.symm.trans opened)
  · exact reads.elim (fun other => Bool.noConfusion (other.symm.trans travel)) held

/-! ## The start of a step (R62, R113, R117, R123, R124) -/

/-- The lane's cartridge lies in its bay, or none does (R62, R124). -/
def Ejected (n : LaneId) (s : State) : Prop := s.lanes[n].state = .ejected ∨ s.lanes[n].state = .empty

/-- The lane accepts an eject (R62). -/
def Ejectable (n : LaneId) (s : State) : Prop :=
  (s.lanes[n].state = .ready ∧ s.lanes[n].claim = .none) ∨ s.lanes[n].state = .hold ∨ s.lanes[n].state = .unknownMedia

theorem not_ejected_of_ejectable (h : Ejectable n s) : ¬ Ejected n s := by
  rintro (gone | gone) <;> simp [Ejectable, -Fin.getElem_fin, gone] at h

theorem askEject_ejected (h : Ejected n s) : askEject n s = (.complete, s) := if_pos h

theorem askEject_sends (h : Ejectable n s) : askEject n s = (.waits, sendEject n s) :=
  (if_neg (not_ejected_of_ejectable h)).trans (if_pos ((ejectable_iff n s).2 h))

theorem askEject_waits (gone : ¬ Ejected n s) (may : ¬ Ejectable n s) : askEject n s = (.waits, s) :=
  (if_neg gone).trans (if_neg (mt (ejectable_iff n s).1 may))

theorem ejectAgain_other (h : currentStep s ≠ some (.laneEject n)) : ejectAgain n s = s := if_neg h

/-- At the lane's report the loader asks it again (R124). -/
theorem ejectAgain_asks (h : currentStep s = some (.laneEject n)) : ejectAgain n s =
    if (askEject n s).1 = .complete then stepEnds (askEject n s).2 else (askEject n s).2 := by
  refine (if_pos h).trans ?_
  obtain ⟨begun, t⟩ := askEject n s
  cases begun <;> rfl

theorem beginTravel_unset (h : positionAt l s = none) : beginTravel l s = (.waits, planFails .positionUnset s) := by
  rw [beginTravel, h]

/-- A travel to `target` from `x` as it begins (R113). -/
def travelBegun (x target : Nat) (s : State) : State :=
  { s with ldr := { s.ldr with
    direction := directionTo x target s.ldr.direction
    remaining := max x target - min x target
    top := topIndex s
    ramp := if max x target - min x target = 0 then -1 else 0
    stepStart := s.ttu.time } }

theorem beginTravel_set {x target : Nat} (ht : positionAt l s = some target) (hx : s.ldr.logical = some x) :
    beginTravel l s = if max x target - min x target = 0 then (.complete, raise .moveDone none (travelBegun x target s))
      else (.waits, travelBegun x target s) := by
  have first : nextIndex (-1) (topIndex s) (max x target - min x target) =
      if max x target - min x target = 0 then -1 else 0 :=
    if_congr Iff.rfl rfl (by omega)
  rw [beginTravel, ht, hx]
  dsimp only
  rw [first]
  rfl

theorem startStep_put_named (h : namedAt l s ≠ none) : startStep (.put l) s = (.waits, planFails .destOccupied s) :=
  if_pos (Option.isSome_iff_ne_none.2 h)

theorem startStep_put_free (h : namedAt l s = none) : startStep (.put l) s = (.waits, beginGrip s) :=
  if_neg (by rw [h]; decide)

theorem startStep_thread_empty (h : s.lanes[n].state = .empty) :
    startStep (.laneThread n) s = (.complete, sendThread n s) := if_pos h

theorem startStep_thread_other (h : s.lanes[n].state ≠ .empty) :
    startStep (.laneThread n) s = (.waits, planFails .laneRefused s) := if_neg h

/-! ## The plan stands while a step completes at once -/

theorem askEject_plan (h : askEject n s = (.complete, t)) : t = s := by
  unfold askEject at h
  split_ifs at h <;> cases h
  rfl

theorem beginTravel_plan (h : beginTravel l s = (.complete, t)) : t.ldr.plan = s.ldr.plan := by
  unfold beginTravel at h
  split at h
  · dsimp only at h
    split_ifs at h <;> cases h
    rfl
  · cases h

theorem startStep_plan (h : startStep st s = (.complete, t)) : t.ldr.plan = s.ldr.plan := by
  cases st with
  | laneEject n => rw [askEject_plan h]
  | travel l => exact beginTravel_plan h
  | probe l e => cases h
  | get l => cases h
  | put l =>
    dsimp only [startStep] at h
    split_ifs at h <;> cases h
  | laneThread n =>
    dsimp only [startStep] at h
    split_ifs at h <;> cases h
    rw [sendThread_eq, setLaneState_frame]
    rfl

/-- A step that completes at once leaves the plan as it is; only a failure ends it. -/
theorem beginStep_plan (h : beginStep st s = (.complete, t)) : t.ldr.plan = s.ldr.plan := by
  unfold beginStep at h
  split_ifs at h
  · cases h
  · rw [startStep_plan h, holdDoor_plan]
  · exact startStep_plan h

/-! ## The plan goes on (R115, R123) -/

/-- The plan's next step becomes its current one. -/
def onward (s : State) : State :=
  { s with ldr := { s.ldr with plan := s.ldr.plan.map fun p => { p with current := p.current + 1 } } }

theorem onward_plan (h : s.ldr.plan = some p) : (onward s).ldr.plan = some { p with current := p.current + 1 } := by
  rw [onward, h]
  rfl

theorem runSteps_done {k : Nat} (hp : s.ldr.plan = some p) (h : p.steps[p.current]? = none) :
    runSteps (k + 1) s = planSucceeds s := by
  rw [runSteps, hp]
  dsimp only
  rw [planStep, h]

theorem runSteps_step {k : Nat} (hp : s.ldr.plan = some p) (h : p.steps[p.current]? = some st) :
    runSteps (k + 1) s = if (beginStep st s).1 = .waits then (beginStep st s).2
      else runSteps k (onward (beginStep st s).2) := by
  rw [runSteps, hp]
  dsimp only
  rw [planStep, h]
  dsimp only
  obtain ⟨begun, t⟩ := beginStep st s
  cases begun <;> rfl

/-- As many rounds as the plan has steps left, and one for its end, are enough: more give nothing else. -/
theorem runSteps_enough {j k : Nat} (hp : s.ldr.plan = some p) (hj : p.steps.length < p.current + j)
    (hk : p.steps.length < p.current + k) (some_j : 0 < j) (some_k : 0 < k) : runSteps j s = runSteps k s := by
  induction j generalizing s p k with
  | zero => omega
  | succ j ih =>
    obtain ⟨k, rfl⟩ : ∃ m, k = m + 1 := ⟨k - 1, by omega⟩
    cases h : p.steps[p.current]? with
    | none => rw [runSteps_done hp h, runSteps_done hp h]
    | some st =>
      have more : p.current < p.steps.length := (List.getElem?_eq_some_iff.1 h).1
      rw [runSteps_step hp h, runSteps_step hp h]
      split
      · rfl
      · next begun =>
        have keeps : (beginStep st s).2.ldr.plan = some p := by
          refine (beginStep_plan (t := (beginStep st s).2) (Prod.ext ?_ rfl)).trans hp
          cases e : (beginStep st s).1 with
          | waits => exact absurd e begun
          | complete => rfl
        exact ih (onward_plan keeps) (by dsimp only; omega) (by dsimp only; omega) (by omega) (by omega)

theorem runPlan_eq (hp : s.ldr.plan = some p) : runPlan s = runSteps (p.steps.length + 1) s := by
  rw [runPlan, hp]
  rfl

theorem runPlan_done (hp : s.ldr.plan = some p) (h : p.steps[p.current]? = none) : runPlan s = planSucceeds s :=
  (runPlan_eq hp).trans (runSteps_done hp h)

theorem runPlan_waits (hp : s.ldr.plan = some p) (h : p.steps[p.current]? = some st)
    (waits : (beginStep st s).1 = .waits) : runPlan s = (beginStep st s).2 :=
  (runPlan_eq hp).trans ((runSteps_step hp h).trans (if_pos waits))

theorem runPlan_complete (hp : s.ldr.plan = some p) (h : p.steps[p.current]? = some st)
    (complete : (beginStep st s).1 = .complete) : runPlan s = runPlan (onward (beginStep st s).2) := by
  have more : p.current < p.steps.length := (List.getElem?_eq_some_iff.1 h).1
  have keeps : (onward (beginStep st s).2).ldr.plan = some { p with current := p.current + 1 } :=
    onward_plan ((beginStep_plan (Prod.ext complete rfl)).trans hp)
  calc runPlan s = runSteps (p.steps.length + 1) s := runPlan_eq hp
    _ = runSteps p.steps.length (onward (beginStep st s).2) :=
      (runSteps_step hp h).trans (if_neg (by rw [complete]; decide))
    _ = runSteps (p.steps.length + 1) (onward (beginStep st s).2) :=
      runSteps_enough keeps (by dsimp only; omega) (by dsimp only; omega) (by omega) (by omega)
    _ = runPlan (onward (beginStep st s).2) := (runPlan_eq keeps).symm

theorem stepEnds_stopping (h : s.ldr.state = .stopping) : stepEnds s = planFails .stopped s := if_pos h

theorem stepEnds_goes (h : s.ldr.state ≠ .stopping) : stepEnds s = runPlan (onward s) := if_neg h

end Sys2Proof.Machine

namespace Sys2Proof.Proofs

open Sys2Proof Sys2Proof.Machine

/-- Settles O45: the door by the step's place, each kind of step by its start, the plan by its current step; the rounds that
are left when a step completes at once are enough for the rest of the plan. -/
theorem planStepsRun : Obligations.PlanStepsRun := by
  refine ⟨fun st s => ?door, fun n l e x target s => ?steps, fun p st s hp => ?plan⟩
  case door =>
    intro mail travels
    have atMail : atMail st = true ↔ mail := atMail_iff st
    have travel : isTravel st = true ↔ travels := isTravel_iff st
    refine ⟨fun l => holdDoor_takes, holdDoor_held, fun away => beginStep_elsewhere (mt atMail.1 away),
      fun here opened reads => ?_, fun here passes => ?_⟩
    · exact beginStep_open (atMail.2 here) opened (reads.imp_left (mt travel.1))
    · exact beginStep_shut (atMail.2 here) (passes.imp_right (And.imp_left travel.2))
  case steps =>
    intro d may gone grip
    refine ⟨askEject_ejected, askEject_sends, askEject_waits, ejectAgain_other, fun step => ?_, beginTravel_unset,
      fun ht hx => ?travel, rfl, rfl, startStep_put_named, startStep_put_free, startStep_thread_empty,
      startStep_thread_other⟩
    · have asks := ejectAgain_asks step
      refine ⟨fun done => ?_, fun sends => ?_, fun still refused => ?_⟩
      · rw [asks, askEject_ejected done, if_pos rfl]
      · rw [asks, askEject_sends sends, if_neg nofun]
      · rw [asks, askEject_waits still refused, if_neg nofun]
    case travel =>
      have begins := beginTravel_set ht hx
      exact ⟨fun none => begins.trans (if_pos none), fun some => begins.trans (if_neg some)⟩
  case plan =>
    intro onward
    exact ⟨runPlan_done hp, fun here => ⟨runPlan_waits hp here, runPlan_complete hp here⟩, stepEnds_stopping,
      stepEnds_goes⟩

end Sys2Proof.Proofs
end

section
/-! PROOFS. Serve test: which request the loader takes, which can run, the lane chosen and the plan built (R122, R123, R126,
R129). -/

namespace Sys2Proof.Machine

variable {s : State} {l : Location} {n : LaneId} {m : MountRequest} {i : CartId} {c : Cart}

/-! ## The request taken (R122) -/

/-- The oldest request of a class that can run (R122). -/
def oldestOf (s : State) (k : MountClass) : Option MountRequest :=
  s.mounts.find? fun m => decide (m.cls = k) && canRun m s

theorem chooseRequest_eq (s : State) : chooseRequest s =
    [MountClass.urgent, .normal, .background].findSome? (oldestOf s) := rfl

theorem oldestOf_none {k : MountClass} (h : ∀ x ∈ s.mounts, canRun x s = true → x.cls ≠ k) : oldestOf s k = none := by
  refine List.find?_eq_none.2 fun x hx taken => ?_
  rw [Bool.and_eq_true, decide_eq_true_iff] at taken
  exact h x hx taken.2 taken.1

theorem oldestOf_some {front rest : List MountRequest} (hq : s.mounts = front ++ m :: rest) (hm : canRun m s = true)
    (older : ∀ x ∈ front, x.cls = m.cls → canRun x s = false) : oldestOf s m.cls = some m := by
  refine List.find?_eq_some_iff_append.2 ⟨by simp [hm], front, rest, hq, fun x hx => ?_⟩
  by_cases h : x.cls = m.cls
  · simp [older x hx h]
  · simp [h]

theorem chooseRequest_none (h : ∀ x ∈ s.mounts, canRun x s = false) : chooseRequest s = none := by
  rw [chooseRequest_eq, List.findSome?_eq_none_iff]
  exact fun k _ => oldestOf_none fun x hx runs => Bool.noConfusion ((h x hx).symm.trans runs)

/-- The oldest of its class is taken when no request of a higher class can run (R122). -/
theorem chooseRequest_some (oldest : oldestOf s m.cls = some m) (highest : ∀ x ∈ s.mounts, canRun x s = true →
    m.cls = .urgent ∨ x.cls = .background ∨ (m.cls = .normal ∧ x.cls = .normal)) : chooseRequest s = some m := by
  rw [chooseRequest_eq]
  cases hk : m.cls with
  | urgent =>
    rw [hk] at oldest
    exact List.findSome?_cons_of_isSome (by rw [oldest]; rfl) |>.trans oldest
  | normal =>
    have urgent : oldestOf s .urgent = none := oldestOf_none fun x hx runs => by
      have := highest x hx runs
      rintro h
      simp [hk, h] at this
    rw [hk] at oldest
    simp [urgent, oldest]
  | background =>
    have lower (x : MountRequest) (hx : x ∈ s.mounts) (runs : canRun x s = true) : x.cls = .background := by
      simpa [hk] using highest x hx runs
    have urgent : oldestOf s .urgent = none := oldestOf_none fun x hx runs => by simp [lower x hx runs]
    have normal : oldestOf s .normal = none := oldestOf_none fun x hx runs => by simp [lower x hx runs]
    rw [hk] at oldest
    simp [urgent, normal, oldest]

/-! ## The cases in which a request cannot run (R122, R129) -/

theorem readyIdle_iff (n : LaneId) (s : State) : readyIdle n s = true ↔
    s.lanes[n].state = .ready ∧ s.lanes[n].activity = .none ∧ s.lanes[n].claim = .none := by
  simp [readyIdle, and_assoc]

theorem bayFree_iff (n : LaneId) (s : State) : bayFree n s = true ↔
    s.lanes[n].state = .empty ∨ s.lanes[n].state = .ejected ∨ s.lanes[n].state = .unknownMedia ∨
      s.lanes[n].state = .hold ∨
      (s.lanes[n].state = .ready ∧ s.lanes[n].activity = .none ∧ s.lanes[n].claim = .none) := by
  rw [← readyIdle_iff]
  simp [bayFree, or_assoc]

theorem mountable_iff (n : LaneId) (s : State) : mountable n s = true ↔
    s.lanes[n].state = .empty ∨ s.lanes[n].state = .ejected ∨ s.lanes[n].state = .hold ∨
      (s.lanes[n].state = .ready ∧ s.lanes[n].activity = .none ∧ s.lanes[n].claim = .none) := by
  rw [← readyIdle_iff]
  simp [mountable, or_assoc]

theorem readMountable_iff (i : CartId) (s : State) : readMountable i s = true ↔ ∃ n : LaneId, s.lanes[n].role = .read ∧
    (s.lanes[n].state = .empty ∨
      (s.lanes[n].state = .ready ∧ s.lanes[n].activity = .none ∧ s.lanes[n].claim = .none) ∨
      (s.lanes[n].state = .ejected ∧ namedAt (.bay n) s = some i)) := by
  rw [readMountable, allLanes_any_iff]
  refine exists_congr fun n => ?_
  rw [← readyIdle_iff]
  simp [or_assoc]

theorem pickerFull_iff (s : State) : pickerFull s = true ↔ s.ldr.heldSensor = true ∨ namedAt .picker s ≠ none := by
  rw [pickerFull, Bool.or_eq_true, Option.isSome_iff_ne_none]
  rfl

/-- With a full picker only the held record's own request runs, or a MOUNT that carries it home first (R122, R129). -/
theorem pickerAllows_iff (m : MountRequest) (s : State) : pickerAllows m s = true ↔
    (s.ldr.heldSensor = true ∨ namedAt .picker s ≠ none → m.kind ≠ .scan ∧ ∃ h, namedAt .picker s = some h ∧
      m.kind ≠ .importCart ∧ (m.cart = some h ∨ (m.kind = .mount ∧ m.rebuilt = some h))) := by
  rw [← pickerFull_iff, pickerAllows, Bool.or_eq_true, Bool.not_eq_true', ← Bool.not_eq_true, ← imp_iff_not_or]
  refine imp_congr_right fun _ => ?_
  show _ ↔ m.kind ≠ .scan ∧ ∃ h, heldRecord s = some h ∧ _
  cases heldRecord s with
  | none => simp
  | some h => simp [and_assoc]

theorem canRun_iff (m : MountRequest) (s : State) : canRun m s = true ↔ pickerAllows m s = true ∧
    (∀ i n, m.cart = some i → (s.cdr.records[i]).map Cart.location = some (.bay n) → bayFree n s = true) ∧
    (∀ n, m.kind = .mount → m.target = .lane n → mountable n s = true) ∧
    (∀ i, m.kind = .mount → m.target = .anyRead → m.cart = some i → readMountable i s = true) := by
  rw [canRun, Bool.and_eq_true, Bool.and_eq_true, and_assoc]
  refine and_congr_right' (and_congr ?source ?target)
  case source =>
    constructor
    · intro free i n cart bay
      rw [cart] at free
      dsimp only [recordAt] at free
      rw [bay] at free
      exact free
    · intro free
      split
      · rfl
      · next i cart =>
        split
        · next n bay => exact free i n cart bay
        · rfl
  case target =>
    cases m.kind with
    | mount =>
      cases m.target with
      | anyRead => cases m.cart <;> simp
      | _ => simp
    | _ => simp

/-! ## The lane chosen for "any read lane" (R122) -/

/-- The lowest lane that passes a test. -/
theorem find?_allLanes_first {f : LaneId → Bool} (h : f n = true) (lower : ∀ k < n, f k = false) :
    allLanes.find? f = some n := by
  rw [show allLanes = List.finRange 4 by decide, List.find?_eq_findSome?_guard]
  exact findSome?_finRange_first (f := Option.guard f) (k := n) (by simp [Option.guard, h]) fun k hk => by
    simp [Option.guard, lower k hk]

theorem find?_allLanes_none {f : LaneId → Bool} (h : ∀ k, f k = false) : allLanes.find? f = none :=
  List.find?_eq_none.2 fun k _ => Bool.eq_false_iff.1 (h k)

/-- A READ lane with the cartridge: mounted in READY, or ejected in its bay (R122). -/
def LaneHas (i : CartId) (s : State) (n : LaneId) : Prop := s.lanes[n].role = .read ∧
  ((s.lanes[n].mounted = some i ∧ s.lanes[n].state = .ready) ∨ (namedAt (.bay n) s = some i ∧ s.lanes[n].state = .ejected))

/-- An EMPTY READ lane (R122). -/
def LaneEmpty (s : State) (n : LaneId) : Prop := s.lanes[n].role = .read ∧ s.lanes[n].state = .empty

/-- A READ lane that is READY and idle (R122). -/
def LaneFree (s : State) (n : LaneId) : Prop := s.lanes[n].role = .read ∧
  s.lanes[n].state = .ready ∧ s.lanes[n].activity = .none ∧ s.lanes[n].claim = .none

section
variable {f : LaneId → Bool} {P : LaneId → Prop} (hP : ∀ k : LaneId, P k ↔ s.lanes[k].role = .read ∧ f k = true)
include hP

theorem find?_readLanes_first (here : P n) (lower : ∀ k < n, ¬ P k) :
    (allLanes.filter fun k => decide (s.lanes[k].role = .read)).find? f = some n := by
  rw [List.find?_filter]
  refine find?_allLanes_first ?_ fun k hk => ?_
  · simpa [-Fin.getElem_fin] using (hP n).1 here
  · simpa [-Fin.getElem_fin] using mt (hP k).2 (lower k hk)

theorem find?_readLanes_none (h : ∀ k, ¬ P k) :
    (allLanes.filter fun k => decide (s.lanes[k].role = .read)).find? f = none := by
  rw [List.find?_filter]
  exact find?_allLanes_none fun k => by simpa [-Fin.getElem_fin] using mt (hP k).2 (h k)

end

theorem laneHas_iff (i : CartId) (s : State) (k : LaneId) : LaneHas i s k ↔ s.lanes[k].role = .read ∧
    ((decide (s.lanes[k].mounted = some i) && decide (s.lanes[k].state = .ready)) ||
      (decide (namedAt (.bay k) s = some i) && decide (s.lanes[k].state = .ejected))) = true := by
  simp [LaneHas]

theorem laneEmpty_iff (s : State) (k : LaneId) :
    LaneEmpty s k ↔ s.lanes[k].role = .read ∧ decide (s.lanes[k].state = .empty) = true := by
  simp [LaneEmpty]

theorem laneFree_iff (s : State) (k : LaneId) : LaneFree s k ↔ s.lanes[k].role = .read ∧ readyIdle k s = true := by
  rw [readyIdle_iff]
  rfl

theorem chooseReadLane_has (here : LaneHas i s n) (lower : ∀ k < n, ¬ LaneHas i s k) : chooseReadLane i s = some n := by
  unfold chooseReadLane
  dsimp only
  rw [find?_readLanes_first (laneHas_iff i s) here lower]

section
variable (unmounted : ∀ k, ¬ LaneHas i s k)
include unmounted

theorem chooseReadLane_empty (here : LaneEmpty s n) (lower : ∀ k < n, ¬ LaneEmpty s k) :
    chooseReadLane i s = some n := by
  unfold chooseReadLane
  dsimp only
  rw [find?_readLanes_none (laneHas_iff i s) unmounted, find?_readLanes_first (laneEmpty_iff s) here lower]

theorem chooseReadLane_free (full : ∀ k, ¬ LaneEmpty s k) (here : LaneFree s n) (lower : ∀ k < n, ¬ LaneFree s k) :
    chooseReadLane i s = some n := by
  unfold chooseReadLane
  dsimp only
  rw [find?_readLanes_none (laneHas_iff i s) unmounted, find?_readLanes_none (laneEmpty_iff s) full]
  exact find?_readLanes_first (laneFree_iff s) here lower

end

theorem planTarget_given (h : m.target ≠ .anyRead ∨ m.cart = none) : planTarget m s = m.target := by
  unfold planTarget
  split
  · next anyRead cart => simp [anyRead, cart] at h
  · rfl

theorem planTarget_chosen (ht : m.target = .anyRead) (hc : m.cart = some i) (chosen : chooseReadLane i s = some n) :
    planTarget m s = .lane n := by
  rw [planTarget, ht, hc]
  dsimp only
  rw [chosen]
  rfl

/-! ## The steps of a plan (R123, R129) -/

/-- The source part of a plan for a record that stands at a location (R123). -/
def sourceSteps (i : CartId) : Location → List PlanStep
  | .bay n => [.laneEject n, .travel (.bay n), .probe (.bay n) (.source i), .get (.bay n)]
  | .slot k => [.travel (.slot k), .probe (.slot k) (.source i), .get (.slot k)]
  | .mail k => [.travel (.mail k), .probe (.mail k) (.source i), .get (.mail k)]
  | _ => []

theorem sourcePart_eq (hc : s.cdr.records[i] = some c) : sourcePart i s = sourceSteps i c.location := by
  rw [sourcePart, recordAt, hc, Option.map_some]
  cases c.location <;> rfl

theorem dismountSteps_eq (hc : s.cdr.records[i] = some c) :
    dismountSteps i s = sourceSteps i c.location ++ destinationPart (.slot c.home) := by
  rw [dismountSteps, sourcePart_eq hc, recordAt, hc]

theorem planSteps_toSlot {k : Fin 48} (hk : m.kind = .move ∨ m.kind = .importCart) (hi : m.cart = some i)
    (ht : m.target = .slot k) : planSteps m s = sourcePart i s ++ destinationPart (.slot k) := by
  have target : planTarget m s = .slot k := (planTarget_given (.inl (by rw [ht]; nofun))).trans ht
  rcases hk with hk | hk <;> rw [planSteps, hk, hi, target]

theorem planSteps_export {k : Fin 2} (hk : m.kind = .exportCart) (hi : m.cart = some i) (ht : m.target = .mail k) :
    planSteps m s = sourcePart i s ++ destinationPart (.mail k) := by
  have target : planTarget m s = .mail k := (planTarget_given (.inl (by rw [ht]; nofun))).trans ht
  rw [planSteps, hk, hi, target]

theorem planSteps_dismount (hk : m.kind = .dismount) (hi : m.cart = some i) : planSteps m s = dismountSteps i s := by
  rw [planSteps, hk, hi]

theorem planSteps_mount (hk : m.kind = .mount) (hi : m.cart = some i) (ht : planTarget m s = .lane n) :
    planSteps m s = heldFirst m s ++ mountSteps i n s := by
  rw [planSteps, hk, hi, ht]

theorem planSteps_scan (hk : m.kind = .scan) : planSteps m s = scanSteps s := by rw [planSteps, hk]

theorem heldFirst_none (h : ∀ j, m.rebuilt = some j → namedAt .picker s ≠ some j) : heldFirst m s = [] := by
  unfold heldFirst
  split
  · rfl
  · next j rebuilt => exact if_neg (h j rebuilt)

theorem heldFirst_held {j : CartId} (hr : m.rebuilt = some j) (held : namedAt .picker s = some j) :
    heldFirst m s = dismountSteps j s := by
  rw [heldFirst, hr]
  exact if_pos held

theorem mountSteps_free (h : namedAt (.bay n) s = none) :
    mountSteps i n s = sourcePart i s ++ destinationPart (.bay n) ++ [.laneThread n] := by
  rw [mountSteps, h]

/-- A cartridge in the lane's bay is carried home first (R123). -/
theorem mountSteps_other {j : CartId} (h : namedAt (.bay n) s = some j) (hj : j ≠ i) : mountSteps i n s =
    dismountSteps j s ++ (sourcePart i s ++ destinationPart (.bay n) ++ [.laneThread n]) := by
  rw [mountSteps, h]
  refine (if_neg hj).trans ?_
  simp only [List.append_assoc]

theorem mountSteps_here (h : namedAt (.bay n) s = some i) : mountSteps i n s =
    if s.lanes[n].state = .ejected ∨ s.lanes[n].state = .empty then
      [.travel (.bay n), .probe (.bay n) (.source i), .get (.bay n), .probe (.bay n) .destination, .put (.bay n),
        .laneThread n]
    else [] := by
  rw [mountSteps, h]
  exact if_pos rfl

/-! ## The order of a SCAN (R126) -/

/-- Nearer on the axis, or at one position of the lower code. -/
def ScanBefore (a b : Location × Nat) : Prop := a.2 < b.2 ∨ (a.2 = b.2 ∧ a.1.code < b.1.code)

theorem insertByPosition_perm (x : Location × Nat) (l : List (Location × Nat)) :
    (insertByPosition x l).Perm (x :: l) := by
  induction l with
  | nil => exact .refl _
  | cons y l ih =>
    unfold insertByPosition
    split
    · exact (ih.cons y).trans (.swap x y l)
    · exact .refl _

/-- A location of a higher code than those in a sorted list goes behind the equal positions. -/
theorem insertByPosition_sorted {x : Location × Nat} {l : List (Location × Nat)} (sorted : l.Pairwise ScanBefore)
    (higher : ∀ y ∈ l, y.1.code < x.1.code) : (insertByPosition x l).Pairwise ScanBefore := by
  induction l with
  | nil => exact List.pairwise_singleton _ x
  | cons y l ih =>
    obtain ⟨first, rest⟩ := List.pairwise_cons.1 sorted
    have code := higher y List.mem_cons_self
    unfold insertByPosition
    split
    · next near =>
      refine List.pairwise_cons.2 ⟨fun z hz => ?_, ih rest fun z hz => higher z (List.mem_cons_of_mem y hz)⟩
      rcases List.mem_cons.1 ((insertByPosition_perm x l).mem_iff.1 hz) with rfl | there
      · exact (Nat.lt_or_eq_of_le near).imp_right fun same => ⟨same, code⟩
      · exact first z there
    · next far =>
      refine List.pairwise_cons.2 ⟨fun z hz => .inl ?_, sorted⟩
      rcases List.mem_cons.1 hz with rfl | there
      · exact Nat.not_le.1 far
      · rcases first z there with less | ⟨same, -⟩ <;> omega

/-- Locations of increasing code inserted one by one. -/
theorem foldl_insertByPosition {l done : List (Location × Nat)} (sorted : done.Pairwise ScanBefore)
    (higher : ∀ a ∈ done, ∀ x ∈ l, a.1.code < x.1.code) (codes : l.Pairwise fun a b => a.1.code < b.1.code) :
    (l.foldl (fun done x => insertByPosition x done) done).Pairwise ScanBefore ∧
      (l.foldl (fun done x => insertByPosition x done) done).Perm (done ++ l) := by
  induction l generalizing done with
  | nil => exact ⟨sorted, by rw [List.append_nil]; exact .refl _⟩
  | cons x l ih =>
    obtain ⟨next, rest⟩ := List.pairwise_cons.1 codes
    have placed := insertByPosition_perm x done
    obtain ⟨sorts, perm⟩ := ih (done := insertByPosition x done)
      (insertByPosition_sorted sorted fun y hy => higher y hy x List.mem_cons_self)
      (fun a ha y hy => by
        rcases List.mem_cons.1 (placed.mem_iff.1 ha) with rfl | old
        · exact next y hy
        · exact higher a old y (List.mem_cons_of_mem x hy)) rest
    exact ⟨sorts, perm.trans ((placed.append_right l).trans List.perm_middle.symm)⟩

/-- The locations of a SCAN that have a position, each with its position, in the order of their codes (R126). -/
def scanPlaces (s : State) : List (Location × Nat) :=
  scanLocations.filterMap fun l => (positionAt l s).map fun x => (l, x)

theorem mem_scanPlaces (a : Location × Nat) (s : State) :
    a ∈ scanPlaces s ↔ a.1 ∈ scanLocations ∧ positionAt a.1 s = some a.2 := by
  obtain ⟨l, x⟩ := a
  simp only [scanPlaces, List.mem_filterMap, Option.map_eq_some_iff, Prod.mk.injEq]
  constructor
  · rintro ⟨_, here, _, set, rfl, rfl⟩
    exact ⟨here, set⟩
  · rintro ⟨here, set⟩
    exact ⟨l, here, x, set, rfl, rfl⟩

theorem scanLocations_codes : scanLocations.Pairwise fun a b => a.code < b.code := by
  have codes : scanLocations.map Location.code = List.range' 1 50 := by decide
  exact List.pairwise_map.1 (codes ▸ List.pairwise_lt_range' 1)

theorem scanPlaces_codes (s : State) : (scanPlaces s).Pairwise fun a b => a.1.code < b.1.code := by
  refine List.Pairwise.filterMap _ (fun l k less a ha b hb => ?_) scanLocations_codes
  obtain ⟨_, -, rfl⟩ := Option.map_eq_some_iff.1 ha
  obtain ⟨_, -, rfl⟩ := Option.map_eq_some_iff.1 hb
  exact less

theorem mem_scanLocations (l : Location) : l ∈ scanLocations ↔ (∃ k, l = .slot k) ∨ ∃ k, l = .mail k := by
  simp [scanLocations, eq_comm]

/-- The order of a SCAN is the places sorted (R126). -/
theorem scanOrder_sorted (s : State) : ∃ places : List (Location × Nat), scanOrder s = places.map Prod.fst ∧
    places.Pairwise ScanBefore ∧ places.Perm (scanPlaces s) :=
  ⟨_, rfl, foldl_insertByPosition .nil nofun (scanPlaces_codes s)⟩

theorem mem_scanOrder (l : Location) (s : State) :
    l ∈ scanOrder s ↔ ((∃ k, l = .slot k) ∨ ∃ k, l = .mail k) ∧ positionAt l s ≠ none := by
  obtain ⟨places, order, -, perm⟩ := scanOrder_sorted s
  rw [order, ← mem_scanLocations, Option.ne_none_iff_exists', List.mem_map]
  constructor
  · rintro ⟨a, ha, rfl⟩
    obtain ⟨here, set⟩ := (mem_scanPlaces a s).1 (perm.mem_iff.1 ha)
    exact ⟨here, a.2, set⟩
  · rintro ⟨here, x, set⟩
    exact ⟨(l, x), perm.mem_iff.2 ((mem_scanPlaces (l, x) s).2 ⟨here, set⟩), rfl⟩

theorem scanOrder_pairwise (s : State) : (scanOrder s).Pairwise fun a b => ∃ x y, positionAt a s = some x ∧
    positionAt b s = some y ∧ (x < y ∨ (x = y ∧ a.code < b.code)) := by
  obtain ⟨places, order, sorted, perm⟩ := scanOrder_sorted s
  have set (a : Location × Nat) (ha : a ∈ places) : positionAt a.1 s = some a.2 :=
    ((mem_scanPlaces a s).1 (perm.mem_iff.1 ha)).2
  rw [order, List.pairwise_map]
  exact sorted.imp_of_mem fun {a b} ha hb before => ⟨a.2, b.2, set a ha, set b hb, before⟩

/-! ## The plan begins (R122, R123) -/

/-- The cartridge of a request is OUTSIDE or MISSING (R123). -/
def CartLost (m : MountRequest) (s : State) : Prop := ∃ i c, m.cart = some i ∧ s.cdr.records[i] = some c ∧
  (c.location = .outside ∨ c.location = .missing)

/-- A step of the plan travels to a location without a position (R123). -/
def TravelUnset (steps : List PlanStep) (s : State) : Prop := ∃ l, .travel l ∈ steps ∧ positionAt l s = none

/-- A plan fails at its building by a lost cartridge, or else by a location without a position (R123; log entry 43). -/
theorem buildFailure_eq (m : MountRequest) (steps : List PlanStep) (s : State) : ∃ gone unset : Bool,
    (gone = true ↔ CartLost m s) ∧ (unset = true ↔ TravelUnset steps s) ∧ buildFailure m steps s =
      if gone = true then some .sourceEmpty else if unset = true then some .positionUnset else none := by
  refine ⟨_, _, ?gone, ?unset, rfl⟩
  case gone =>
    constructor
    · intro gone
      split at gone
      · cases gone
      · next i cart =>
        split at gone
        · next away =>
          obtain ⟨c, record, location⟩ := Option.map_eq_some_iff.1 away
          exact ⟨i, c, cart, record, .inl location⟩
        · next away =>
          obtain ⟨c, record, location⟩ := Option.map_eq_some_iff.1 away
          exact ⟨i, c, cart, record, .inr location⟩
        · cases gone
    · rintro ⟨i, c, cart, record, away⟩
      rw [cart]
      dsimp only [recordAt]
      rw [record, Option.map_some]
      rcases away with away | away <;> rw [away]
  case unset =>
    rw [List.any_eq_true]
    constructor
    · rintro ⟨st, there, unset⟩
      split at unset
      · next l => exact ⟨l, there, Option.isNone_iff_eq_none.1 unset⟩
      · cases unset
    · rintro ⟨l, there, unset⟩
      exact ⟨_, there, Option.isNone_iff_eq_none.2 unset⟩

section
variable {steps : List PlanStep}

theorem buildFailure_lost (h : CartLost m s) : buildFailure m steps s = some .sourceEmpty := by
  obtain ⟨_, _, gone, -, fails⟩ := buildFailure_eq m steps s
  rw [fails, if_pos (gone.2 h)]

theorem buildFailure_unset (here : ¬ CartLost m s) (h : TravelUnset steps s) :
    buildFailure m steps s = some .positionUnset := by
  obtain ⟨_, _, gone, unset, fails⟩ := buildFailure_eq m steps s
  rw [fails, if_neg (mt gone.1 here), if_pos (unset.2 h)]

theorem buildFailure_none (here : ¬ CartLost m s) (set : ¬ TravelUnset steps s) : buildFailure m steps s = none := by
  obtain ⟨_, _, gone, unset, fails⟩ := buildFailure_eq m steps s
  rw [fails, if_neg (mt gone.1 here), if_neg (mt unset.1 set)]

end

/-- The plan built for a request (R123, R126). -/
def planFor (m : MountRequest) (s : State) : Plan :=
  { kind := m.kind, cart := m.cart, target := planTarget m s, steps := planSteps m s, current := 0, missing := [],
    unknown := [], skipped := if m.kind = .scan then scanLocations.filter fun l => (positionAt l s).isNone else [] }

/-- A request of the queue taken into service, its plan in the loader (R122). -/
def served (front rest : List MountRequest) (m : MountRequest) (s : State) : State :=
  { s with
    mounts := front ++ { m with inService := true } :: rest
    ldr := { s.ldr with
      state := .running
      plan := some (planFor m s) } }

theorem serve_eq {front rest : List MountRequest} (hq : s.mounts = front ++ m :: rest) (first : m ∉ front) :
    serve m s = (buildFailure m (planSteps m s) s).elim (runPlan (served front rest m s)) fun r =>
      planFails r (served front rest m s) := by
  have taken : s.mounts.replace m { m with inService := true } = front ++ { m with inService := true } :: rest := by
    rw [hq, List.replace_append_right first, List.replace_cons_self]
  unfold serve
  dsimp only
  rw [taken]
  cases buildFailure m (planSteps m s) s <;> rfl

theorem serveTest_busy (h : s.ldr.state ≠ .idle) : serveTest s = s := if_neg h

theorem serveTest_none (h : chooseRequest s = none) : serveTest s = s := by
  rw [serveTest, h]
  exact ite_self _

theorem serveTest_serves (idle : s.ldr.state = .idle) (h : chooseRequest s = some m) : serveTest s = serve m s := by
  refine (if_pos idle).trans ?_
  rw [h]

end Sys2Proof.Machine

namespace Sys2Proof.Proofs

open Sys2Proof Sys2Proof.Machine

/-- Settles O46: the request taken is the oldest of its class that can run; the conditions, the lane and the steps are each
the model's by cases; a SCAN's order is the sorted list that insertion by position makes. -/
theorem serveTest : Obligations.ServeTest := by
  refine ⟨fun s => ?taken, fun m s => ?conditions, fun m i c s cart record => ?steps, fun m s scan => ?scan⟩
  case taken =>
    intro u done
    have tests : ∀ {t}, Machine.serveTest u = t → done t := commanded_congr (d := .serveTest)
    refine ⟨fun busy => tests (serveTest_busy busy), fun none => tests (serveTest_none (chooseRequest_none none)), ?_⟩
    intro front rest m idle queue runs older highest p v lost unset
    have first : m ∉ front := fun again => Bool.noConfusion ((older m again rfl).symm.trans runs)
    have serves : Machine.serveTest u = (buildFailure m (planSteps m u) u).elim (runPlan v) fun r => planFails r v :=
      (serveTest_serves idle (chooseRequest_some (oldestOf_some queue runs older) highest)).trans (serve_eq queue first)
    refine ⟨fun h => tests ?_, fun here h => tests ?_, fun here set => tests ?_⟩
    · rw [serves, buildFailure_lost h, Option.elim_some]
    · rw [serves, buildFailure_unset here h, Option.elim_some]
    · rw [serves, buildFailure_none here set, Option.elim_none]
  case conditions =>
    intro st idle full
    refine ⟨?runs, planTarget_given, fun i ht hc => ?lane⟩
    case runs =>
      rw [canRun_iff, pickerAllows_iff]
      simp only [bayFree_iff, mountable_iff, readMountable_iff]
      rfl
    case lane =>
      intro reads has empty free
      exact ⟨fun n here lower => planTarget_chosen ht hc (chooseReadLane_has here lower),
        fun n unmounted here lower => planTarget_chosen ht hc (chooseReadLane_empty unmounted here lower),
        fun n unmounted taken here lower => planTarget_chosen ht hc (chooseReadLane_free unmounted taken here lower)⟩
  case steps =>
    intro source destination dismount
    have sources (j : CartId) (x : Cart) : sourceSteps j x.location = source j x := by
      dsimp only [source]
      cases x.location <;> rfl
    have part : sourcePart i s = source i c := (sourcePart_eq record).trans (sources i c)
    have dismounts {j : CartId} {x : Cart} (h : s.cdr.records[j] = some x) : dismountSteps j s = dismount j x :=
      (dismountSteps_eq h).trans (congrArg (· ++ _) (sources j x))
    refine ⟨fun k kind target => ?_, fun k kind target => ?_, fun kind => ?_, fun n home kind target first => ?mount⟩
    · rw [planSteps_toSlot kind cart target, part]
      rfl
    · rw [planSteps_export kind cart target, part]
      rfl
    · rw [planSteps_dismount kind cart, dismounts record]
    case mount =>
      intro fetch
      have begins : heldFirst m s = home := by
        rcases first with ⟨unheld, rfl⟩ | ⟨j, x, rebuilt, held, there, rfl⟩
        · exact heldFirst_none unheld
        · exact (heldFirst_held rebuilt held).trans (dismounts there)
      have fetches : sourcePart i s ++ destinationPart (.bay n) ++ [.laneThread n] = fetch := by
        rw [part]
        rfl
      have steps : planSteps m s = home ++ mountSteps i n s := by rw [planSteps_mount kind cart target, begins]
      refine ⟨fun free => ?_, fun y x named other there => ?_, fun here => ⟨fun out => ?_, fun out empty => ?_⟩⟩
      · rw [steps, mountSteps_free free, fetches]
      · rw [steps, mountSteps_other named other, fetches, dismounts there]
      · rw [steps, mountSteps_here here, if_pos out]
      · rw [steps, mountSteps_here here, if_neg (not_or.2 ⟨out, empty⟩), List.append_nil]
  case scan =>
    exact ⟨scanOrder s, planSteps_scan scan, fun l => mem_scanOrder l s, scanOrder_pairwise s⟩

end Sys2Proof.Proofs
end

section
/-! PROOFS. HOME, STOP and LOADER_RESET: when each is carried out, and what it leaves (R115, R116, R127, R129). -/

namespace Sys2Proof.Machine

variable {h : Hdr} {s : State} {l : Location} {n : LaneId}

/-! ## HOME (R116) -/

section
variable {homeActive : Bool}

/-- The loader with the home sensor's reading kept (log entry 31). -/
def sensed (homeActive : Bool) (s : State) : State := { s with ldr := { s.ldr with homeSensor := homeActive } }

/-- The loader as a homing begins (R116; log entry 15 on the ramp index). -/
def homingBegun (s : State) : State :=
  { s with ldr := { s.ldr with
    state := .homing
    logical := none
    real := none
    direction := .towardZero
    ramp := 0
    homingSteps := 0
    homingStop := false
    stepStart := s.ttu.time } }

theorem home_fault (hs : s.ldr.state = .fault) : home h homeActive s = refuse h 11 .faulted (sensed homeActive s) := by
  unfold home
  simp only [modLdr_ldr, hs]
  rfl

theorem home_badState (hs : s.ldr.state = .homing ∨ s.ldr.state = .running ∨ s.ldr.state = .stopping) :
    home h homeActive s = refuse h 11 .badState (sensed homeActive s) := by
  unfold home
  rcases hs with hs | hs | hs <;> simp only [modLdr_ldr, hs] <;> rfl

/-- Carried out, HOME begins a homing, which a sensor already active completes at once (R116). -/
theorem home_ok (hs : s.ldr.state = .unhomed ∨ s.ldr.state = .idle) : home h homeActive s =
    let v := homingBegun (answer h 11 .ok .none (sensed homeActive s))
    if homeActive = true then homed v else v := by
  unfold home
  rcases hs with hs | hs <;> simp only [modLdr_ldr, hs] <;> rfl

end

/-! ## STOP (R115) -/

/-- A loader that carries out a plan, with a stop asked for or without (R115). -/
def Moving (s : State) : Prop := s.ldr.state = .running ∨ s.ldr.state = .stopping

theorem currentStep_moving (hm : Moving s) : currentStep s = s.ldr.plan.bind fun p => p.steps[p.current]? := by
  unfold currentStep
  rcases hm with hs | hs <;> rw [hs] <;> cases s.ldr.plan <;> rfl

/-- A stop has been asked for (R115). -/
def stopping (s : State) : State := { s with ldr := { s.ldr with state := .stopping } }

section
variable {mode : StopMode}

theorem loaderStop_homing (hs : s.ldr.state = .homing) :
    loaderStop mode s = { s with ldr := { s.ldr with homingStop := true } } := by
  rw [loaderStop, hs]
  rfl

theorem loaderStop_travel (hm : Moving s) (step : currentStep s = some (.travel l)) : loaderStop mode s =
    modLdr (fun d => { d with
      remaining := min d.remaining (if mode = .decel then (d.ramp + 1).toNat else 1) }) (stopping s) := by
  unfold loaderStop
  rcases hm with hs | hs
  · rw [hs, step]
    cases mode <;> rfl
  · rw [hs, step]
    cases mode <;> rfl

theorem loaderStop_eject (hm : Moving s) (step : currentStep s = some (.laneEject n)) :
    loaderStop mode s = planFails .stopped (stopping s) := by
  unfold loaderStop
  rcases hm with hs | hs <;> rw [hs, step] <;> rfl

theorem loaderStop_other (hm : Moving s) (travel : ∀ l, currentStep s ≠ some (.travel l))
    (eject : ∀ n, currentStep s ≠ some (.laneEject n)) : loaderStop mode s = stopping s := by
  unfold loaderStop
  rcases hm with hs | hs
  all_goals
    rw [hs]
    dsimp only
    split
    · next l step => exact absurd step (travel l)
    · next n step => exact absurd step (eject n)
    · rfl

end

section
variable {mode : Nat}

theorem stopModeOf_of_le (hm : mode ≤ 1) : stopModeOf mode = some (if mode = 0 then .decel else .instant) := by
  obtain rfl | rfl : mode = 0 ∨ mode = 1 := by omega
  · rfl
  · rfl

theorem stop_badArgument (hm : 1 < mode) : stop h mode s = refuse h 12 .badArgument s := by
  rw [stop, stopModeOf, if_neg (by omega), if_neg (by omega)]

section
variable (hm : mode ≤ 1)
include hm

theorem stop_badState (hs : s.ldr.state = .unhomed ∨ s.ldr.state = .idle ∨ s.ldr.state = .fault) :
    stop h mode s = refuse h 12 .badState s := by
  rw [stop, stopModeOf_of_le hm]
  rcases hs with hs | hs | hs <;> simp only [hs]

theorem stop_ok (hs : s.ldr.state = .homing ∨ Moving s) :
    stop h mode s = loaderStop (if mode = 0 then .decel else .instant) (answer h 12 .ok .none s) := by
  rw [stop, stopModeOf_of_le hm]
  rcases hs with hs | hs | hs <;> simp only [hs]

end

end

/-! ## The door line (R127) -/

/-- The lines with the held door's line, if one is held, driven to 0 (R127). -/
def linesReleased (s : State) : BitVec 8 :=
  s.ldr.doorHold.elim s.ttu.lines fun l => s.ttu.lines &&& ~~~ BitVec.twoPow 8 l

theorem linesReleased_free (free : s.ldr.doorHold = none) : linesReleased s = s.ttu.lines := by
  rw [linesReleased, free, Option.elim_none]

theorem linesReleased_held {l : Fin 8} (held : s.ldr.doorHold = some l) :
    linesReleased s = s.ttu.lines &&& ~~~ BitVec.twoPow 8 l := by
  rw [linesReleased, held, Option.elim_some]

/-- A hold released leaves its line at 0; without a hold nothing changes (R127). -/
theorem releaseDoor_eq (s : State) : releaseDoor s = { s with
    ldr := { s.ldr with doorHold := none }
    ttu := { s.ttu with lines := linesReleased s } } := by
  cases held : s.ldr.doorHold with
  | none =>
    rw [releaseDoor, held, linesReleased_free held]
    show s = { s with ldr := { s.ldr with doorHold := none } }
    rw [← held]
  | some l =>
    rw [releaseDoor, held, linesReleased_held held]
    rfl

/-! ## LOADER_RESET (R129) -/

section
variable {m back : MountRequest} {front between rest : List MountRequest}

/-- Before the oldest other request of its class stands the request that goes back (R129; log entry 20). -/
theorem requeue_returns (hf : m ∉ front) (cls : ∀ x ∈ front, x.cls ≠ m.cls) (hb : m ∉ between)
    (oldest : ∀ x, between.head? = some x → x.cls = m.cls) :
    requeue m back (front ++ between ++ m :: rest) = front ++ back :: between ++ rest := by
  induction front with
  | nil =>
    cases between with
    | nil => exact if_pos rfl
    | cons x between =>
      have other : x ≠ m := fun same => hb (same ▸ List.mem_cons_self)
      have out : (x :: between ++ m :: rest).erase m = x :: between ++ rest := by
        rw [List.erase_append_right _ hb, List.erase_cons_head]
      refine (if_neg other).trans ((if_pos (oldest x rfl)).trans ?_)
      exact congrArg (back :: ·) out
  | cons x front ih =>
    have other : x ≠ m := fun same => hf (same ▸ List.mem_cons_self)
    refine (if_neg other).trans ((if_neg (cls x List.mem_cons_self)).trans (congrArg (x :: ·) ?_))
    exact ih (mt (List.mem_cons_of_mem x) hf) fun y hy => cls y (List.mem_cons_of_mem x hy)

theorem inService_none (idle : ∀ x ∈ s.mounts, x.inService = false) : inService s = none :=
  List.find?_eq_none.2 fun x hx => Bool.eq_false_iff.1 (idle x hx)

theorem inService_some (hq : s.mounts = front ++ m :: rest) (hm : m.inService = true)
    (idle : ∀ x ∈ front, x.inService = false) : inService s = some m :=
  List.find?_eq_some_iff_append.2 ⟨hm, front, rest, hq, fun x hx => by simp [idle x hx]⟩

end

/-- A request in service as it goes back to the queue: a MOUNT keeps in mind another record that the picker holds (R129). -/
def goneBack (s : State) (m : MountRequest) : MountRequest :=
  { m with
    inService := false
    rebuilt := if m.kind = .mount ∧ namedAt .picker s ≠ m.cart then namedAt .picker s else none }

/-- The mount queue that LOADER_RESET leaves (R129). -/
def mountsAfterReset (s : State) : List MountRequest :=
  (inService s).elim s.mounts fun m => requeue m (goneBack s m) s.mounts

theorem mountsAfterReset_idle (idle : ∀ x ∈ s.mounts, x.inService = false) : mountsAfterReset s = s.mounts := by
  rw [mountsAfterReset, inService_none idle, Option.elim_none]

theorem mountsAfterReset_returns {m : MountRequest} {front between rest : List MountRequest}
    (hq : s.mounts = front ++ between ++ m :: rest) (taken : m.inService = true)
    (first : ∀ x ∈ front, x.cls ≠ m.cls ∧ x.inService = false) (others : ∀ x ∈ between, x.inService = false)
    (oldest : ∀ x, between.head? = some x → x.cls = m.cls) :
    mountsAfterReset s = front ++ goneBack s m :: between ++ rest := by
  have waits {l : List MountRequest} (idle : ∀ x ∈ l, x.inService = false) : m ∉ l :=
    fun there => Bool.noConfusion ((idle m there).symm.trans taken)
  have service : inService s = some m := inService_some hq taken fun x hx =>
    (List.mem_append.1 hx).elim (fun there => (first x there).2) (others x)
  rw [mountsAfterReset, service, Option.elim_some, hq]
  exact requeue_returns (waits fun x hx => (first x hx).2) (fun x hx => (first x hx).1) (waits others) oldest

/-- LOADER_RESET changes the loader, the door line and the mount queue, and nothing else (R129). -/
theorem loaderReset_eq (s : State) : loaderReset s = { s with
    mounts := mountsAfterReset s
    ldr := { s.ldr with
      state := .unhomed
      faultCode := none
      logical := none
      real := none
      ramp := -1
      remaining := 0
      plan := none
      doorHold := none
      homingStop := false }
    ttu := { s.ttu with lines := linesReleased s } } := by
  unfold loaderReset mountsAfterReset
  dsimp only
  rw [releaseDoor_eq]
  cases inService s <;> rfl

end Sys2Proof.Machine

namespace Sys2Proof.Proofs

open Sys2Proof Sys2Proof.Machine

/-- Settles O41: HOME and STOP by the loader's state, a stop by the step in progress; LOADER_RESET by its frame, its queue by
where the request in service stands. -/
theorem homeStopAndLoaderReset : Obligations.HomeStopAndLoaderReset := by
  refine ⟨fun h homeActive mode s credit => ?stops, fun h s credit => ?resets⟩
  case stops =>
    intro u homeIs stopIs seen begun
    have homes {t} : home h homeActive u = t → homeIs t := exec_taken (c := .home h homeActive) credit rfl
    have stops {t} : stop h mode u = t → stopIs t := exec_taken (c := .stop h mode) credit rfl
    refine ⟨fun fault => homes (home_fault fault), fun busy => homes (home_badState busy),
      fun ready => ⟨fun away => homes ?_, fun there => homes ?_⟩, fun bad => stops (stop_badArgument bad), fun good => ?stop⟩
    · exact (home_ok ready).trans (if_neg (by rw [away]; decide))
    · exact (home_ok ready).trans (if_pos there)
    case stop =>
      intro stopping now
      have moves (moving : Moving u) : stop h mode u = _ := stop_ok good (.inr moving)
      have step (moving : Moving u) : currentStep (answer h 12 .ok .none u) = now := currentStep_moving moving
      refine ⟨fun still => stops (stop_badState good still),
        fun homing => stops ((stop_ok good (.inl homing)).trans (loaderStop_homing homing)),
        fun moving => ⟨fun l travel => stops ?_, fun n eject => stops ?_, fun noTravel noEject => stops ?_⟩⟩
      · refine (moves moving).trans ((loaderStop_travel (s := answer h 12 .ok .none u) moving ((step moving).trans travel)).trans ?_)
        by_cases hm : mode = 0
        · simp only [hm]
          rfl
        · simp only [if_neg hm]
          rfl
      · exact (moves moving).trans (loaderStop_eject moving ((step moving).trans eject))
      · exact (moves moving).trans (loaderStop_other moving (fun l => (step moving).symm ▸ noTravel l)
          fun n => (step moving).symm ▸ noEject n)
  case resets =>
    intro u
    exact ⟨_, exec_taken (c := .loaderReset h) credit rfl (loaderReset_eq (answer h 18 .ok .none u)), rfl, rfl,
      fun free => congrArg (fun lines => { u.ttu with lines := lines }) (linesReleased_free free),
      fun l held => congrArg (fun lines => { u.ttu with lines := lines }) (linesReleased_held held),
      rfl, rfl, rfl, rfl, rfl, rfl, rfl, rfl, rfl, rfl, rfl, rfl, rfl, rfl, rfl, mountsAfterReset_idle,
      fun front between rest m queue taken first others oldest =>
        mountsAfterReset_returns (s := answer h 18 .ok .none u) queue taken first others oldest⟩

end Sys2Proof.Proofs
end

section
/-! PROOFS. Loader requests: MOVE, EXPORT, IMPORT and SCAN, their refusals and what they queue; merged mounts (R107, R119 to
R122). -/

namespace Sys2Proof.Machine

variable {h : Hdr} {s : State} {i : CartId} {c : Cart} {dest : Location}

/-! ## MOVE and EXPORT (R120) -/

theorem mailOf_eq_some_iff (m : Nat) (k : Fin 2) : mailOf m = some k ↔ m = k + 49 := by
  rw [show (k : Nat) + 49 = (Location.mail k).code from rfl, ← locationOf_eq_some_iff, mailOf]
  cases locationOf m with
  | none => simp
  | some l => cases l <;> simp

section
variable {index place : Nat}

theorem move_badArgument (bad : 63 < index ∨ place = 0 ∨ place = 49 ∨ place = 50 ∨ 54 < place) :
    move h index place s = refuse h 13 .badArgument s := by
  unfold move
  split
  · next i k hi hl =>
    have index := (finOf_eq_some_iff i).1 hi
    have code : place = k + 1 := (locationOf_eq_some_iff place _).1 hl
    omega
  · next i n hi hl =>
    have index := (finOf_eq_some_iff i).1 hi
    have code : place = n + 51 := (locationOf_eq_some_iff place _).1 hl
    omega
  · rfl

theorem exportCart_badArgument (bad : 63 < index ∨ (place ≠ 49 ∧ place ≠ 50)) :
    exportCart h index place s = refuse h 14 .badArgument s := by
  unfold exportCart
  split
  · next i m hi hm =>
    have index := (finOf_eq_some_iff i).1 hi
    have code := (mailOf_eq_some_iff place m).1 hm
    omega
  · rfl

end

/-- The request that MOVE or EXPORT queues for a destination (R120). -/
def placedRequest (h : Hdr) (i : CartId) (dest : Location) (c : Cart) : MountRequest :=
  match dest with
  | .mail m => serverRequest h .exportCart (some i) (.mail m)
  | l => moveRequest h i l c

theorem placedRequest_dismount {k : Fin 48} {n : LaneId} (bay : c.location = .bay n) (home : c.home = k) :
    placedRequest h i (.slot k) c = serverRequest h .dismount (some i) (.slot k) := by
  rw [placedRequest, moveRequest, bay]
  dsimp only
  rw [if_pos home]
  nofun

theorem placedRequest_move {k : Fin 48} (other : ¬ ((∃ n, c.location = .bay n) ∧ c.home = k)) :
    placedRequest h i (.slot k) c = serverRequest h .move (some i) (.slot k) := by
  show moveRequest h i (.slot k) c = _
  unfold moveRequest
  dsimp only
  split
  · next n bay => rw [if_neg fun home => other ⟨⟨n, bay⟩, home⟩]
  · rfl

/-- The code of the request that goes to a destination: EXPORT for a mail slot, else MOVE (R120). -/
def placedCode (dest : Location) : Nat :=
  match dest with
  | .mail _ => 14
  | _ => 13

section
variable {place : Nat}

theorem placedCode_eq (hl : locationOf place = some dest) :
    (if place = 49 ∨ place = 50 then 14 else 13) = placedCode dest := by
  have code : place = dest.code := (locationOf_eq_some_iff place dest).1 hl
  cases dest with
  | mail m => exact if_pos (by rw [code]; dsimp only [Location.code]; omega)
  | _ => exact if_neg (by rw [code]; dsimp only [Location.code]; omega)

theorem move_placed (hl : locationOf place = some dest) (bound : place ≤ 54) (away : ¬ ∃ m, dest = .mail m) :
    move h i place s = requestMove h (placedCode dest) i dest (placedRequest h i dest) s := by
  have code := (locationOf_eq_some_iff place dest).1 hl
  rw [move, finOf_val, hl]
  cases dest with
  | mail m => exact absurd ⟨m, rfl⟩ away
  | slot k => rfl
  | bay n => rfl
  | _ => simp [Location.code] at code; omega

theorem exportCart_placed {m : Fin 2} (hl : locationOf place = some (.mail m)) :
    exportCart h i place s = requestMove h 14 i (.mail m) (placedRequest h i (.mail m)) s := by
  rw [exportCart, finOf_val, mailOf, hl]
  rfl

end

/-- A cartridge cannot go from where it is to a destination (R120, check 3). -/
def MoveBarred (i : CartId) (c : Cart) (dest : Location) (s : State) : Prop :=
  c.location = .outside ∨ c.location = .missing ∨ c.location = dest ∨
    ((∀ n, dest ≠ .bay n) ∧ ∃ j, namedAt dest s = some j ∧ j ≠ i) ∨ (∃ m ∈ s.mounts, m.cart = some i) ∨
    positionAt dest s = none ∨ (c.location ≠ .picker ∧ positionAt c.location s = none)

/-- The place at the destination keeps another cartridge out, unless it is a bay (R120). -/
theorem moveAllowed_eq (i : CartId) (c : Cart) (dest : Location) (s : State) : ∃ free : Bool,
    (free = false ↔ (∀ n, dest ≠ .bay n) ∧ ∃ j, namedAt dest s = some j ∧ j ≠ i) ∧ moveAllowed i c dest s =
      (decide (c.location ≠ .outside) && decide (c.location ≠ .missing) && decide (c.location ≠ dest) && free &&
        !namedByQueue i s && (positionAt dest s).isSome &&
        (decide (c.location = .picker) || (positionAt c.location s).isSome)) := by
  refine ⟨_, ?_, rfl⟩
  cases dest with
  | bay n => simp
  | _ =>
    split
    · next n bay => cases bay
    · cases namedAt _ s <;> simp

theorem moveAllowed_false_iff (i : CartId) (c : Cart) (dest : Location) (s : State) :
    moveAllowed i c dest s = false ↔ MoveBarred i c dest s := by
  obtain ⟨free, taken, allowed⟩ := moveAllowed_eq i c dest s
  rw [allowed, MoveBarred, ← taken, ← namedByQueue_iff]
  simp only [Bool.and_eq_false_iff, Bool.or_eq_false_iff, decide_eq_false_iff_not, Bool.not_eq_false',
    Option.isSome_eq_false_iff, Option.isNone_iff_eq_none, not_not, ne_eq, or_assoc]

section
variable {code : Nat} {req : Cart → MountRequest}

theorem requestMove_notFound (hn : s.cdr.records[i] = none) :
    requestMove h code i dest req s = refuse h code .notFound s := by
  rw [requestMove, recordAt, hn]

section
variable (hc : s.cdr.records[i] = some c)
include hc

theorem requestMove_barred (bad : MoveBarred i c dest s) : requestMove h code i dest req s = refuse h code .badState s := by
  rw [requestMove, recordAt, hc]
  exact if_pos ((moveAllowed_false_iff i c dest s).2 bad)

theorem requestMove_full (good : ¬ MoveBarred i c dest s) (full : 8 ≤ s.mounts.length) :
    requestMove h code i dest req s = refuse h code .noRoom s := by
  rw [requestMove, recordAt, hc]
  exact (if_neg (mt (moveAllowed_false_iff i c dest s).1 good)).trans (if_pos full)

theorem requestMove_queued (good : ¬ MoveBarred i c dest s) (room : s.mounts.length < 8) :
    requestMove h code i dest req s = enqueueMount (req c) (answer h code .ok .none s) := by
  rw [requestMove, recordAt, hc]
  exact (if_neg (mt (moveAllowed_false_iff i c dest s).1 good)).trans (if_neg (Nat.not_le.2 room))

end

end

/-! ## SCAN (R120) -/

theorem scan_queued (there : ∃ m ∈ s.mounts, m.kind = .scan) : scan h s = refuse h 16 .badState s :=
  if_pos (by simpa using there)

theorem scan_full (free : ∀ m ∈ s.mounts, m.kind ≠ .scan) (full : 8 ≤ s.mounts.length) :
    scan h s = refuse h 16 .noRoom s :=
  (if_neg (by simpa using free)).trans (if_pos full)

theorem scan_joins (free : ∀ m ∈ s.mounts, m.kind ≠ .scan) (room : s.mounts.length < 8) :
    scan h s = enqueueMount (serverRequest h .scan none .none) (answer h 16 .ok .none s) :=
  (if_neg (by simpa using free)).trans (if_neg (Nat.not_le.2 room))

/-! ## IMPORT (R107) -/

section
variable {mailSlot pool slot : Nat} {label : List Byte}

/-- A label that no record may be given: out of its form, or one that a record carries (R90, R107). -/
def LabelBad (label : List Byte) (s : State) : Prop :=
  label.length ≠ 8 ∨ (∃ b ∈ label, b.toNat < 32 ∨ 126 < b.toNat) ∨ (∀ b ∈ label, b = 32#8) ∨
    ∃ (i : CartId) (c : Cart), s.cdr.records[i] = some c ∧ c.label = label

theorem labelTaken_iff (label : List Byte) (s : State) : labelTaken label s = true ↔
    ∃ (i : CartId) (c : Cart), s.cdr.records[i] = some c ∧ c.label = label := by
  simp [labelTaken, recordAt, -Fin.getElem_fin]

theorem labelBad_iff (label : List Byte) (s : State) :
    (labelOk label = false ∨ labelTaken label s = true) ↔ LabelBad label s := by
  rw [← Bool.not_eq_true, labelOk_iff, labelTaken_iff, LabelBad, not_and_or, not_and_or, or_assoc, or_assoc]
  refine or_congr Iff.rfl (or_congr ?_ (or_congr ?_ Iff.rfl))
  · simp only [not_forall, not_and_or, not_le, exists_prop]
  · simp only [not_exists, not_and, not_not, ne_eq]

theorem importCart_badArgument (bad : (mailSlot ≠ 49 ∧ mailSlot ≠ 50) ∨ LabelBad label s ∨ 7 < pool ∨ slot = 0 ∨ 48 < slot) :
    importCart h mailSlot label pool slot s = refuse h 15 .badArgument s := by
  unfold importCart
  split
  · next m p k hm hp hk =>
    refine if_pos ((labelBad_iff label s).2 ?_)
    have mail := (mailOf_eq_some_iff mailSlot m).1 hm
    have number := (finOf_eq_some_iff p).1 hp
    have place := (slotOf_eq_some_iff slot k).1 hk
    rcases bad with bad | bad | bad | bad | bad
    · omega
    · exact bad
    · omega
    · omega
    · omega
  · rfl

theorem emptyIndex_none (full : ∀ i : CartId, s.cdr.records[i] ≠ none) : emptyIndex s = none :=
  List.find?_eq_none.2 fun i _ => by simpa [recordAt, -Fin.getElem_fin] using full i

theorem emptyIndex_lowest (free : s.cdr.records[i] = none) (lower : ∀ j : CartId, j < i → s.cdr.records[j] ≠ none) :
    emptyIndex s = some i := by
  rw [emptyIndex, List.find?_eq_findSome?_guard]
  refine findSome?_finRange_first (f := Option.guard _) (k := i) ?_ fun j hj => ?_
  · simp [Option.guard, recordAt, -Fin.getElem_fin, free]
  · simp [Option.guard, recordAt, -Fin.getElem_fin, lower j hj]

section
variable {m : Fin 2} {p : Fin 8} {k : Fin 48} (hm : mailSlot = 49 + m.val) (hp : pool = p) (hk : slot = k.val + 1)
  (good : ¬ LabelBad label s)
include hm hp hk good

/-- With its operands in their ranges an IMPORT is tested for its places, then for an index, then for room (R107). -/
theorem importCart_read : importCart h mailSlot label pool slot s =
    if namedAt (.mail m) s ≠ none ∨ namedAt (.slot k) s ≠ none then refuse h 15 .badState s
    else (emptyIndex s).elim (refuse h 15 .noRoom s) fun i =>
      if 8 ≤ s.mounts.length then refuse h 15 .noRoom s
      else enqueueMount (serverRequest h .importCart (some i) (.slot k))
        (answer h 15 .ok (.index i) (putRecord i (importedRecord label p m k) s)) := by
  have mail : mailOf mailSlot = some m := (mailOf_eq_some_iff mailSlot m).2 (by omega)
  have number : finOf 8 pool = some p := (finOf_eq_some_iff p).2 hp
  have place : slotOf slot = some k := (slotOf_eq_some_iff slot k).2 hk
  rw [importCart, mail, number, place]
  refine (if_neg (mt (labelBad_iff label s).1 good)).trans (if_congr ?_ rfl ?_)
  · rw [Option.isSome_iff_ne_none, Option.isSome_iff_ne_none]
  · cases emptyIndex s <;> rfl

end

end

/-! ## Merged mounts (R121) -/

theorem MountClass.max_eq (a b : MountClass) : a.max b =
    if a = .urgent ∨ b = .urgent then .urgent else if a = .normal ∨ b = .normal then .normal else .background := by
  cases a <;> cases b <;> rfl

section
variable {target : MountTarget} {cls : MountClass} {r : Requester} {tag : Nat} {fill : Option LaneId}

/-- A request of the queue into which an internal request for its cartridge is merged (R121). -/
def mergedMount (cls : MountClass) (r : Requester) (tag : Nat) (fill : Option LaneId) (m : MountRequest) : MountRequest :=
  { m with
    cls := m.cls.max cls
    requesters := addRequester r tag m.requesters
    tag := if m.requesters.head?.map Prod.fst = some r then tag else m.tag
    fillLane := if fill.isSome then fill else m.fillLane }

theorem offerMount_merges (named : ∃ m ∈ s.mounts, m.cart = some i) : offerMount i target cls r tag fill s =
    (true, { s with mounts := s.mounts.map fun m => if m.cart = some i then mergedMount cls r tag fill m else m }) :=
  if_pos ((namedByQueue_iff i s).2 named)

end

end Sys2Proof.Machine

namespace Sys2Proof.Proofs

open Sys2Proof Sys2Proof.Machine

/-- Settles O42: MOVE and EXPORT by the destination, then by the record and the room; IMPORT by its operands, its places and
the empty index; an internal request by whether the queue names its cartridge. -/
theorem loaderRequestsQueued : Obligations.LoaderRequestsQueued := by
  refine ⟨fun h index place s credit => ?requests, fun h mailSlot label pool slot s credit => ?imports,
    fun i target cls r tag fill s => ?offers⟩
  case requests =>
    intro u does queue
    have moves {t} : move h index place u = t → does (.move h index place) t :=
      exec_taken (c := .move h index place) credit rfl
    have exports {t} : exportCart h index place u = t → does (.exportCart h index place) t :=
      exec_taken (c := .exportCart h index place) credit rfl
    have scans {t} : scan h u = t → does (.scan h) t := exec_taken (c := .scan h) credit rfl
    refine ⟨fun bad => moves (move_badArgument bad), fun bad => exports (exportCart_badArgument bad), ?placed,
      fun there => scans (scan_queued there), fun free full => scans (scan_full free full),
      fun free room => scans (scan_joins free room)⟩
    case placed =>
      rintro i dest rfl located bound mail done
      have goes {t} (e : requestMove h (placedCode dest) i dest (placedRequest h i dest) u = t) : done t := by
        refine ⟨fun away => moves ((move_placed located bound away).trans e), ?_⟩
        rintro ⟨m, rfl⟩
        exact exports ((exportCart_placed located).trans e)
      rw [placedCode_eq located]
      refine ⟨fun none => goes (requestMove_notFound none), fun c record => ?_⟩
      intro bad ok
      refine ⟨fun barred => goes (requestMove_barred record barred),
        fun free full => goes (requestMove_full record free full), fun free room => ?queued⟩
      case queued =>
        obtain ⟨moved, exported⟩ := goes (requestMove_queued record free room)
        refine ⟨fun m at_ => ?_, fun n at_ => ?_, fun k at_ => ?_⟩
        · subst at_
          exact exported ⟨m, rfl⟩
        · subst at_
          exact moved nofun
        · subst at_
          by_cases returns : (∃ n, c.location = .bay n) ∧ c.home = k
          · obtain ⟨⟨n, bay⟩, home⟩ := id returns
            rw [placedRequest_dismount bay home] at moved
            rw [if_pos returns]
            exact moved nofun
          · rw [placedRequest_move returns] at moved
            rw [if_neg returns]
            exact moved nofun
  case imports =>
    intro u done labelBad
    have imports {t} : importCart h mailSlot label pool slot u = t → done t :=
      exec_taken (c := .importCart h mailSlot label pool slot) credit rfl
    refine ⟨fun bad => imports (importCart_badArgument bad), fun m p k hm hp hk good => ?_⟩
    intro taken
    have reads := importCart_read (h := h) hm hp hk good
    refine ⟨fun named => imports (reads.trans (if_pos named)), fun free full => imports (reads.trans ?_),
      fun i free none lower room => ?_⟩
    · refine (if_neg free).trans ?_
      rcases full with full | full
      · rw [emptyIndex_none full, Option.elim_none]
      · cases emptyIndex u with
        | none => rfl
        | some i => exact if_pos full
    · intro v
      refine imports (reads.trans ((if_neg free).trans ?_))
      rw [emptyIndex_lowest none lower, Option.elim_some, if_neg (Nat.not_le.2 room)]
      have same : v.mounts = u.mounts := by
        show (putRecord i _ u).mounts = _
        rw [cdrOnly_putRecord]
      rw [← same]
      rfl
  case offers =>
    intro named present merged
    refine ⟨fun there => (offerMount_merges there).trans ?_, fun free full => ?_, fun free room => ?_⟩
    · have merges (m : MountRequest) : mergedMount cls r tag fill m = merged m := by
        have lane : (if fill.isSome then fill else m.fillLane) = if fill = none then m.fillLane else fill := by
          cases fill <;> rfl
        rw [mergedMount, MountClass.max_eq, lane]
        rfl
      simp only [merges]
    · exact offerMount_full (Bool.eq_false_iff.2 (mt (namedByQueue_iff i s).1 free)) full
    · exact offerMount_joins (Bool.eq_false_iff.2 (mt (namedByQueue_iff i s).1 free)) room

end Sys2Proof.Proofs
end

section
/-! PROOFS. Told engines: what the verify engine and the restore, told of a plan's end, leave of the loader, the location map,
the mount queue and the notices (R73, R74, R121, R163, R164, R167). -/

namespace Sys2Proof.Machine

variable {a s t : State}

/-- From `a` to `s` the loader and the location map stand, no request of the mount queue has been taken into service, and of
the notices none has left. -/
structure LoaderSpared (a s : State) : Prop where
  ldr : s.ldr = a.ldr
  map : s.cdr.map = a.cdr.map
  mounts : (∀ x ∈ a.mounts, x.inService = false) → ∀ x ∈ s.mounts, x.inService = false
  notices : a.link.notices <+: s.link.notices

theorem LoaderSpared.refl (s : State) : LoaderSpared s s := ⟨rfl, rfl, id, [], List.append_nil _⟩

/-- A change of other pieces alone. -/
theorem LoaderSpared.other (h : LoaderSpared a s) (ldr : t.ldr = s.ldr) (map : t.cdr.map = s.cdr.map)
    (mounts : t.mounts = s.mounts) (link : t.link = s.link) : LoaderSpared a t :=
  ⟨ldr.trans h.ldr, map.trans h.map, by rw [mounts]; exact h.mounts, by rw [link]; exact h.notices⟩

section
variable (h : LoaderSpared a s)
include h

/-! ## Updates of one piece -/

theorem loaderSpared_modLane (n : LaneId) (f : Lane → Lane) : LoaderSpared a (modLane n f s) := h.other rfl rfl rfl rfl
theorem loaderSpared_modVfy (f : Verify → Verify) : LoaderSpared a (modVfy f s) := h.other rfl rfl rfl rfl
theorem loaderSpared_modRse (f : Restore → Restore) : LoaderSpared a (modRse f s) := h.other rfl rfl rfl rfl
theorem loaderSpared_post (d : Due) : LoaderSpared a (post d s) := h.other rfl rfl rfl rfl
theorem loaderSpared_laneReport (n : LaneId) : LoaderSpared a (laneReport n s) :=
  loaderSpared_post (loaderSpared_post (loaderSpared_post (loaderSpared_post (loaderSpared_post h _) _) _) _) _

theorem loaderSpared_sendCommand (n : LaneId) (c : DriveCommand) : LoaderSpared a (sendCommand n c s) :=
  h.other rfl rfl rfl rfl
theorem loaderSpared_waitRead (c : ReadClient) (k : Nat) : LoaderSpared a (waitRead c k s) := h.other rfl rfl rfl rfl
theorem loaderSpared_takeRead (k : Nat) : LoaderSpared a (takeRead k s) := h.other rfl rfl rfl rfl

theorem loaderSpared_modCtx (n : LaneId) (f : VerifyContext → VerifyContext) : LoaderSpared a (modCtx n f s) :=
  h.other rfl rfl rfl rfl

theorem loaderSpared_modActive (f : RestoreContext → RestoreContext) : LoaderSpared a (modActive f s) :=
  h.other rfl rfl rfl rfl

theorem loaderSpared_startDamage (upTo : Nat) (cause : SegmentCause) (after : AfterDamage) :
    LoaderSpared a (startDamage upTo cause after s) := h.other rfl rfl rfl rfl

theorem loaderSpared_letsGo {n : LaneId} (k : LetsGo n s t) : LoaderSpared a t := by
  obtain ⟨_, _, _, _, -, rfl⟩ := k
  exact h.other rfl rfl rfl rfl

theorem loaderSpared_raised (m k : Nat) : LoaderSpared a (raised m k s).2 := by
  unfold raised
  split
  · exact h
  · exact h.other rfl rfl rfl rfl

theorem loaderSpared_offerNotice (b : NoticeBody) : LoaderSpared a (offerNotice b s) := by
  refine ⟨?_, ?_, ?_, h.notices.trans ?_⟩
  · rw [offerNotice_frame]
    exact h.ldr
  · rw [offerNotice_frame]
    exact h.map
  · rw [offerNotice_frame]
    exact h.mounts
  · unfold offerNotice
    split
    · exact ⟨[], List.append_nil _⟩
    · exact ⟨_, rfl⟩

/-! ## Lanes (R73, R74) -/

theorem loaderSpared_setLaneState (n : LaneId) (st : LaneState) : LoaderSpared a (setLaneState n st s) := by
  rw [setLaneState_frame]
  exact h.other rfl rfl rfl rfl

theorem loaderSpared_becomeReady (n : LaneId) : LoaderSpared a (becomeReady n s) :=
  (loaderSpared_setLaneState h n .ready).other rfl rfl rfl rfl

theorem loaderSpared_endPass (n : LaneId) (res : VerifyResult) : LoaderSpared a (endPass n res s) := by
  by_cases idle : s.vfy.contexts[n].state = .idle
  · rw [endPass_of_idle idle]
    exact h
  · rw [endPass_of_pass idle]
    exact loaderSpared_post (loaderSpared_offerNotice (loaderSpared_modCtx
      (loaderSpared_letsGo h (letsGo_withdrawPass n s)) n _) _) _

theorem loaderSpared_sendEject (n : LaneId) : LoaderSpared a (sendEject n s) :=
  loaderSpared_endPass (loaderSpared_setLaneState (loaderSpared_sendCommand h n .eject) n .unloading) n _

theorem loaderSpared_markLocate (n : LaneId) : LoaderSpared a (markLocate n s) := by
  unfold markLocate
  split
  · exact h.other (by rw [setNeedsLocate_frame]) (setNeedsLocate_map n true s) (by rw [setNeedsLocate_frame])
      (by rw [setNeedsLocate_frame])
  · exact h

theorem loaderSpared_releasePlace (n : LaneId) : LoaderSpared a (releasePlace n s) := by
  obtain ⟨_, freed⟩ := releasePlace_frame n s
  rw [freed]
  exact h.other rfl rfl rfl rfl

theorem loaderSpared_grantRestore (n : LaneId) : LoaderSpared a (grantRestore n s) := by
  rw [grantRestore_eq]
  exact loaderSpared_markLocate (loaderSpared_releasePlace (loaderSpared_setLaneState (loaderSpared_modLane h n _) n _) n) n

theorem loaderSpared_doRelease (n : LaneId) : LoaderSpared a (doRelease n s) := by
  have freed := loaderSpared_modLane h n
    fun l => { l with activity := .none, releasing := false, discard := false, readBlock := none }
  rw [doRelease_eq]
  dsimp only
  split
  · exact loaderSpared_grantRestore freed n
  · split
    · exact loaderSpared_sendEject freed n
    · exact loaderSpared_becomeReady (loaderSpared_modLane freed n _) n

theorem loaderSpared_releaseLane (n : LaneId) : LoaderSpared a (releaseLane n s) := by
  by_cases free : s.lanes[n].command = none
  · rw [releaseLane_free free]
    exact loaderSpared_doRelease h n
  · rw [releaseLane_waits free]
    exact loaderSpared_modLane h n _

theorem loaderSpared_laneRead (n : LaneId) (b : Nat) : LoaderSpared a (laneRead n b s) := by
  have asked := loaderSpared_modLane h n fun l => { l with readBlock := some b }
  unfold laneRead
  dsimp only
  split
  · exact h
  · split
    · exact loaderSpared_sendCommand asked n _
    · exact loaderSpared_setLaneState (loaderSpared_sendCommand asked n _) n _

theorem loaderSpared_suspendPass (n : LaneId) (cause : SuspendCause) : LoaderSpared a (suspendPass n cause s) := by
  have suspended := loaderSpared_modCtx h n fun c => { c with state := .suspended, cause := some cause }
  unfold suspendPass
  dsimp only
  split
  · exact loaderSpared_releaseLane h n
  · exact loaderSpared_modCtx h n _
  · split
    · exact loaderSpared_releaseLane suspended n
    · exact loaderSpared_releaseLane
        (loaderSpared_letsGo (loaderSpared_modCtx suspended n _) (letsGo_withdrawRead n _ _)) n
    · split
      · exact loaderSpared_releaseLane suspended n
      · exact loaderSpared_releaseLane (loaderSpared_letsGo (loaderSpared_modCtx suspended n _) (letsGo_freeRead n _ _)) n
    · exact loaderSpared_releaseLane suspended n

theorem loaderSpared_claimRestore (n : LaneId) : LoaderSpared a (claimRestore n s) := by
  have pends : LoaderSpared a (pendRestore n s) := loaderSpared_laneReport (loaderSpared_modLane h n _) n
  unfold claimRestore
  split
  · exact loaderSpared_grantRestore h n
  · exact loaderSpared_grantRestore h n
  · exact pends
  · exact pends
  · exact pends
  · exact loaderSpared_suspendPass pends n _
  · exact loaderSpared_suspendPass pends n _
  · exact h

theorem loaderSpared_leaveLane (n : LaneId) : LoaderSpared a (leaveLane n s) := by
  unfold leaveLane
  split
  · exact loaderSpared_releaseLane h n
  · split
    · exact loaderSpared_laneReport (loaderSpared_modLane h n _) n
    · exact h

/-! ## The restore (R163, R164, R167) -/

theorem loaderSpared_finishRestore (r : RestoreResult) : LoaderSpared a (finishRestore r s) := by
  unfold finishRestore
  split
  · exact h
  · next c _ =>
    refine loaderSpared_post (loaderSpared_modRse (loaderSpared_offerNotice ?_ _) _) _
    split
    · exact h
    · exact loaderSpared_leaveLane h _

theorem loaderSpared_restoreRead : LoaderSpared a (restoreRead s) := by
  have reads := loaderSpared_modActive h fun c => { c with stage := .read, pages := true }
  unfold restoreRead
  split
  · exact h
  · dsimp only
    split
    · exact loaderSpared_laneRead reads _ _
    · exact reads

theorem loaderSpared_startRead : LoaderSpared a (startRead s) := by
  have asks := loaderSpared_modActive h fun c => { c with state := .reading, stage := .pages }
  unfold startRead
  dsimp only
  split
  · exact loaderSpared_restoreRead (loaderSpared_takeRead asks _)
  · exact loaderSpared_waitRead asks _ _

theorem loaderSpared_restoreClaim (n : LaneId) : LoaderSpared a (restoreClaim n s) := by
  have claims := loaderSpared_claimRestore (loaderSpared_modActive h fun c => { c with lane := some n }) n
  unfold restoreClaim
  dsimp only
  split
  · exact loaderSpared_startRead claims
  · exact loaderSpared_modActive claims _

/-- An offer to the mount queue takes no request into service (R121). -/
theorem loaderSpared_offerMount (i : CartId) (target : MountTarget) (cls : MountClass) (r : Requester) (tag : Nat)
    (fill : Option LaneId) : LoaderSpared a (offerMount i target cls r tag fill s).2 := by
  unfold offerMount
  split
  · refine ⟨h.ldr, h.map, fun idle x hx => ?_, h.notices⟩
    obtain ⟨m, hm, rfl⟩ := List.mem_map.1 hx
    have was := h.mounts idle m hm
    split
    · exact was
    · exact was
  · split
    · exact h
    · refine ⟨h.ldr, h.map, fun idle x hx => ?_, h.notices⟩
      rcases List.mem_append.1 hx with old | new
      · exact h.mounts idle x old
      · rw [List.mem_singleton.1 new]

theorem loaderSpared_restoreMount : LoaderSpared a (restoreMount s) := by
  unfold restoreMount
  split
  · exact h
  · split
    · exact h
    · exact loaderSpared_modActive (loaderSpared_offerMount h _ _ _ _ _ _) _

end

/-- The restore leaves the lane it holds, if any, on its way to another (R163). -/
def laneLeft (c : RestoreContext) (s : State) : State :=
  match c.lane with
  | none => s
  | some n => modActive (fun c => { c with lane := none }) (if servesRestore n s = true then releaseLane n s else s)

/-- The restore seeks its cartridge, which it does not hold: out of reach, in a lane, or to be mounted (R163, R164). -/
def seekCartridge (c : RestoreContext) (i : CartId) (label : List Byte) (s : State) : State :=
  if c.start = none ∧ reachable i label s = false then startDamage (c.runEnd.getD c.next) .cartridge .find s
  else (usingLane i s).elim (restoreMount s) fun n => restoreClaim n s

theorem reach_eq {c : RestoreContext} {i : CartId} {label : List Byte} (hc : s.rse.active = some c)
    (cart : c.cart = some (i, label)) :
    reach s = if holdsMounted c i s = true then startRead s else seekCartridge c i label (laneLeft c s) := by
  unfold reach
  rw [hc]
  dsimp only
  rw [cart]
  refine if_congr Iff.rfl rfl (if_congr Iff.rfl rfl ?_)
  show (match usingLane i (laneLeft c s) with | some n => _ | none => _) = _
  cases usingLane i (laneLeft c s) <;> rfl

section
variable (h : LoaderSpared a s)
include h

theorem loaderSpared_laneLeft (c : RestoreContext) : LoaderSpared a (laneLeft c s) := by
  unfold laneLeft
  split
  · exact h
  · refine loaderSpared_modActive ?_ _
    split
    · exact loaderSpared_releaseLane h _
    · exact h

theorem loaderSpared_seekCartridge (c : RestoreContext) (i : CartId) (label : List Byte) :
    LoaderSpared a (seekCartridge c i label s) := by
  unfold seekCartridge
  split
  · exact loaderSpared_startDamage h _ _ _
  · cases usingLane i s with
    | none => exact loaderSpared_restoreMount h
    | some n => exact loaderSpared_restoreClaim h n

theorem loaderSpared_reach : LoaderSpared a (reach s) := by
  cases hc : s.rse.active with
  | none =>
    rw [reach, hc]
    exact h
  | some c =>
    cases cart : c.cart with
    | none =>
      rw [reach, hc]
      dsimp only
      rw [cart]
      exact h
    | some p =>
      rw [reach_eq hc cart]
      split
      · exact loaderSpared_startRead h
      · exact loaderSpared_seekCartridge (loaderSpared_laneLeft h c) c _ _

theorem loaderSpared_completeRestore : LoaderSpared a (completeRestore s) := by
  unfold completeRestore
  split
  · exact h
  · exact loaderSpared_finishRestore h _

theorem loaderSpared_restNotFound : LoaderSpared a (restNotFound s) := by
  unfold restNotFound
  split
  · exact h
  · exact loaderSpared_completeRestore (loaderSpared_modActive (loaderSpared_raised h _ _) _)

theorem loaderSpared_findNext : LoaderSpared a (findNext s) := by
  unfold findNext
  split
  · exact h
  · split
    · split
      · exact loaderSpared_restNotFound h
      · exact loaderSpared_reach (loaderSpared_modActive h _)
    · dsimp only
      split
      · exact loaderSpared_restNotFound h
      · exact loaderSpared_reach (loaderSpared_modActive h _)

/-! ## The engines told (R125, R147, R164) -/

theorem loaderSpared_restorePlanEnded (i : Option CartId) (lane : Option LaneId) (failure : Option PlanReason) :
    LoaderSpared a (restorePlanEnded i lane failure s) := by
  have told := loaderSpared_modActive h fun c => { c with mountAsked := false }
  unfold restorePlanEnded
  split
  · exact h
  · split
    · dsimp only
      split
      · exact loaderSpared_finishRestore (loaderSpared_letsGo told (letsGo_emptySlot 0 .restore _)) _
      · exact loaderSpared_reach told
      · exact loaderSpared_findNext (loaderSpared_modActive told _)
    · exact h

theorem loaderSpared_verifyPlanEnded (i : Option CartId) (failure : Option PlanReason) :
    LoaderSpared a (verifyPlanEnded i failure s) := by
  refine loaderSpared_post ?_ _
  split
  · exact h
  · split
    · exact loaderSpared_modVfy h _
    · exact loaderSpared_offerNotice (loaderSpared_modVfy h _) _

theorem loaderSpared_tellEngines (m : MountRequest) (p : Plan) (failure : Option PlanReason) :
    LoaderSpared a (tellEngines m p failure s) := by
  have verify : LoaderSpared a (if hasRequester .verify m = true then verifyPlanEnded m.cart failure s else s) := by
    split
    · exact loaderSpared_verifyPlanEnded h _ _
    · exact h
  unfold tellEngines
  dsimp only
  split
  · exact loaderSpared_restorePlanEnded verify _ _ _
  · exact verify

end

end Sys2Proof.Machine
end

section
/-! PROOFS. Plan ends: the end of a plan, what the engines are told, and a loader fault (R118, R121, R125 to R127, R147, R164,
R167). -/

namespace Sys2Proof.Machine

variable {s : State} {m : MountRequest} {p : Plan} {r : PlanReason}

/-! ## After a plan (R121, R125, R127) -/

/-- Every lane that has been turned away for room offers again, in the order of the lanes (R121). -/
theorem forEach_pickNoRoom (lanes : List LaneId) (s : State) :
    forEach lanes (fun n s => if s.lanes[n].pickNoRoom = true then post (.scratchPick n) s else s) s =
      { s with due := s.due ++ (lanes.filter fun n => s.lanes[n].pickNoRoom).map Due.scratchPick } := by
  induction lanes generalizing s with
  | nil => simp [forEach]
  | cons n lanes ih =>
    by_cases turned : s.lanes[n].pickNoRoom = true
    · refine (congrArg (forEach lanes _) (if_pos turned)).trans ((ih (post (.scratchPick n) s)).trans ?_)
      rw [List.filter_cons_of_pos (p := fun n : LaneId => s.lanes[n].pickNoRoom) turned]
      simp [post]
    · refine (congrArg (forEach lanes _) (if_neg turned)).trans ((ih s).trans ?_)
      rw [List.filter_cons_of_neg (p := fun n : LaneId => s.lanes[n].pickNoRoom) turned]

/-- What an end of a plan makes due: no serve test owed earlier stays, and one comes behind the offers (R121, R125). -/
def dueAfterPlan (s : State) : List Due :=
  s.due.filter (fun d => decide (d ≠ .serveTest)) ++
    (allLanes.filter fun n => s.lanes[n].pickNoRoom).map Due.scratchPick ++ [.verifyStart, .restoreRoom, .serveTest]

theorem afterPlan_eq (s : State) : afterPlan s = { releaseDoor s with due := dueAfterPlan s } := by
  rw [afterPlan, mountRoomNotice, releaseDoor_eq]
  dsimp only
  rw [forEach_pickNoRoom]
  simp only [post, dropDue, dueAfterPlan, List.append_assoc, List.cons_append, List.nil_append]

/-! ## The notices and the engines told (R125, R126) -/

theorem hasRequester_iff (q : Requester) (m : MountRequest) : hasRequester q m = true ↔ ∃ x ∈ m.requesters, x.1 = q := by
  simp [hasRequester]

theorem planLane_mount {n : LaneId} (hk : p.kind = .mount) (ht : p.target = .lane n) : planLane p = some n := by
  rw [planLane, hk, ht]

theorem planLane_none (h : p.kind ≠ .mount ∨ ∀ n, p.target ≠ .lane n) : planLane p = none := by
  unfold planLane
  split
  · next n kind target => exact absurd target (h.resolve_left (not_not.2 kind) n)
  · rfl

/-- The notice of a plan's success (R125, R126). -/
def successNotice (m : MountRequest) (p : Plan) : NoticeBody :=
  if p.kind = .scan then .scanDone p.missing p.unknown p.skipped else .planDone m.kind m.cart m.target m.tag m.requesters

/-- The notice of a plan's failure (R125). -/
def failureNotice (m : MountRequest) (p : Plan) (r : PlanReason) (s : State) : NoticeBody :=
  if m.kind = .mount ∨ m.kind = .dismount then
    .mountFailed m.kind m.cart m.tag m.requesters r p.current (namedAt .picker s)
  else .moveFailed m.kind m.cart m.tag m.requesters r p.current (namedAt .picker s)

/-- A plan at its end: its notice offered, its engines told, and what follows (R125). -/
def planEnd (m : MountRequest) (p : Plan) (failure : Option PlanReason) (b : NoticeBody) (s : State) : State :=
  afterPlan (tellEngines m p failure (offerNotice b (closePlan s)))

section
variable (hm : inService s = some m) (hp : s.ldr.plan = some p)
include hm hp

theorem planSucceeds_eq : planSucceeds s = planEnd m p none (successNotice m p) s := by
  rw [planSucceeds, hm, hp, successNotice]
  dsimp only
  split
  · next scan => rw [if_pos scan]; rfl
  · next other => rw [if_neg other]; rfl

theorem planFails_eq (r : PlanReason) : planFails r s = planEnd m p (some r) (failureNotice m p r s) s := by
  rw [planFails, hm, hp, failureNotice]
  dsimp only
  split
  · next mount => rw [if_pos (.inl mount)]; rfl
  · next dismount => rw [if_pos (.inr dismount)]; rfl
  · next mount dismount => rw [if_neg (not_or.2 ⟨mount, dismount⟩)]; rfl

end

/-! ## What an end of a plan leaves (R125) -/

section
variable (m : MountRequest) (p : Plan) (failure : Option PlanReason) (b : NoticeBody) (s : State)

theorem closePlan_idle : ∀ x ∈ (closePlan s).mounts, x.inService = false :=
  fun x hx => by simpa using (List.mem_filter.1 hx).2

theorem told_spared : LoaderSpared (offerNotice b (closePlan s)) (tellEngines m p failure (offerNotice b (closePlan s))) :=
  loaderSpared_tellEngines (.refl _) m p failure

theorem planEnd_ldr : (planEnd m p failure b s).ldr = { s.ldr with
    state := .idle
    plan := none
    ramp := -1
    remaining := 0
    doorHold := none } := by
  rw [planEnd, afterPlan_eq, releaseDoor_eq]
  dsimp only
  rw [(told_spared m p failure b s).ldr, offerNotice_frame]
  rfl

theorem planEnd_mounts : ∀ x ∈ (planEnd m p failure b s).mounts, x.inService = false := by
  rw [planEnd, afterPlan_eq, releaseDoor_eq]
  refine (told_spared m p failure b s).mounts ?_
  rw [offerNotice_frame]
  exact closePlan_idle s

theorem planEnd_map : (planEnd m p failure b s).cdr.map = s.cdr.map := by
  rw [planEnd, afterPlan_eq, releaseDoor_eq]
  refine (told_spared m p failure b s).map.trans ?_
  rw [offerNotice_frame]
  rfl

theorem planEnd_serveTest : .serveTest ∈ (planEnd m p failure b s).due := by
  rw [planEnd, afterPlan_eq]
  simp [dueAfterPlan]

/-- With room in the notice queue the plan's notice stands there behind the older ones, before any that the engines place. -/
theorem planEnd_notice (room : s.link.notices.length < 64) :
    (planEnd m p failure b s).link.notices[s.link.notices.length]? = some { body := b, placed := s.ttu.time } := by
  have offered : (offerNotice b (closePlan s)).link.notices =
      s.link.notices ++ [{ body := b, placed := s.ttu.time }] :=
    congrArg (fun t : State => t.link.notices) (if_neg (Nat.not_le.2 room))
  obtain ⟨more, later⟩ := (told_spared m p failure b s).notices
  rw [planEnd, afterPlan_eq, releaseDoor_eq]
  dsimp only
  rw [← later, offered]
  simp

end

/-! ## The engines (R31, R147, R164, R167) -/

section
variable {i : Option CartId} {lane : Option LaneId} {failure : Option PlanReason}

theorem restorePlanEnded_other (h : ∀ c, s.rse.active = some c → c.mountAsked = false ∨ c.cart.map Prod.fst ≠ i) :
    restorePlanEnded i lane failure s = s := by
  unfold restorePlanEnded
  split
  · rfl
  · next c hc =>
    refine if_neg fun ⟨asked, cart⟩ => ?_
    rcases h c hc with free | other
    · exact Bool.noConfusion (free.symm.trans asked)
    · exact other cart.symm

/-- The restore with its request for a mount answered, and `f` made of its context. -/
def mountAnswered (f : RestoreContext → RestoreContext) (c : RestoreContext) (s : State) : State :=
  { s with rse := { s.rse with active := some (f { c with mountAsked := false }) } }

section
variable {c : RestoreContext} (hc : s.rse.active = some c) (asked : c.mountAsked = true) (cart : c.cart.map Prod.fst = i)
include hc asked cart

theorem restorePlanEnded_failed : restorePlanEnded i lane (some r) s =
    finishRestore (.mountFailed r) (emptySlot .restore (mountAnswered id c s)) := by
  rw [restorePlanEnded, hc]
  refine (if_pos ⟨asked, cart.symm⟩).trans ?_
  rw [modActive, hc]
  rfl

theorem restorePlanEnded_reaches {n : LaneId} : restorePlanEnded i (some n) none s = reach (mountAnswered id c s) := by
  rw [restorePlanEnded, hc]
  refine (if_pos ⟨asked, cart.symm⟩).trans ?_
  rw [modActive, hc]
  rfl

theorem restorePlanEnded_finds : restorePlanEnded i none none s =
    findNext (mountAnswered (fun c => { c with state := .finding }) c s) := by
  rw [restorePlanEnded, hc]
  refine (if_pos ⟨asked, cart.symm⟩).trans ?_
  simp only [modActive, hc, Option.map_some]
  rfl

end

theorem verifyPlanEnded_other (h : ∀ q ∈ s.vfy.queue, q.mountAsked = false ∨ some q.cart ≠ i) :
    verifyPlanEnded i failure s = post .verifyStart s := by
  have none : s.vfy.queue.find? (fun q => q.mountAsked && decide (some q.cart = i)) = none := by
    refine List.find?_eq_none.2 fun q hq => ?_
    rcases h q hq with free | other
    · simp [free]
    · simp [other]
  rw [verifyPlanEnded, none]

section
variable {front rest : List VerifyRequest} {q : VerifyRequest} (asked : q.mountAsked = true) (cart : some q.cart = i)
  (before : ∀ x ∈ front, x.mountAsked = false ∨ some x.cart ≠ i)
include asked cart before

theorem not_mem_before : q ∉ front := fun there =>
  (before q there).elim (fun free => Bool.noConfusion (free.symm.trans asked)) fun other => other cart

variable (hq : s.vfy.queue = front ++ q :: rest)
include hq

/-- The oldest verify request that had asked for the mount is the one told (R147). -/
theorem find?_mountAsked : s.vfy.queue.find? (fun q => q.mountAsked && decide (some q.cart = i)) = some q := by
  refine List.find?_eq_some_iff_append.2 ⟨by simp [asked, cart], front, rest, hq, fun x hx => ?_⟩
  rcases before x hx with free | other
  · simp [free]
  · simp [other]

theorem verifyPlanEnded_mounted : verifyPlanEnded i none s = post .verifyStart
    { s with vfy := { s.vfy with queue := front ++ { q with mountAsked := false } :: rest } } := by
  have left := not_mem_before asked cart before
  rw [verifyPlanEnded, find?_mountAsked asked cart before hq]
  dsimp only
  rw [modVfy, hq, List.replace_append_right left, List.replace_cons_self]

theorem verifyPlanEnded_failed : verifyPlanEnded i (some r) s = post .verifyStart
    (requestNotice q (.mountFailed r) { s with vfy := { s.vfy with queue := front ++ rest } }) := by
  have left := not_mem_before asked cart before
  rw [verifyPlanEnded, find?_mountAsked asked cart before hq]
  dsimp only
  rw [modVfy, hq, List.erase_append_right _ left, List.erase_cons_head]

end

end

end Sys2Proof.Machine

namespace Sys2Proof.Proofs

open Sys2Proof Sys2Proof.Machine

/-- Settles O47: both ends of a plan are one end with their notice; the engines told spare the loader, the map and the
notices; the restore by what it is told, the verify queue by its oldest request that asked. -/
theorem planEndsAndLoaderFaults : Obligations.PlanEndsAndLoaderFaults := by
  intro m p r code s
  refine ⟨fun service plan => ?ends, rfl, fun i lane failure => ⟨fun c hc asked cart => ?restore, restorePlanEnded_other,
    fun front q rest hq asked cart before _ => ?verify, verifyPlanEnded_other⟩⟩
  case ends =>
    intro ended tell closed finish
    have finishes (v : State) : afterPlan v = finish v := by
      rw [afterPlan_eq, releaseDoor]
      dsimp only [finish]
      cases v.ldr.doorHold <;> rfl
    have tells (failure : Option PlanReason) (v : State) : tellEngines m p failure v = tell failure v := by
      have lane : planLane p = if p.kind = .mount then (match p.target with | .lane n => some n | _ => none) else none := by
        by_cases mount : p.kind = .mount
        · rw [if_pos mount]
          cases target : p.target with
          | lane n => exact planLane_mount mount target
          | _ => exact planLane_none (.inr fun n lane => nomatch target.symm.trans lane)
        · rw [if_neg mount]
          exact planLane_none (.inl mount)
      have verify : (if hasRequester .verify m = true then verifyPlanEnded m.cart failure v else v) =
          if ∃ q ∈ m.requesters, q.1 = .verify then verifyPlanEnded m.cart failure v else v :=
        if_congr (hasRequester_iff .verify m) rfl rfl
      rw [tellEngines, verify, lane]
      exact if_congr (hasRequester_iff .restore m) rfl rfl
    have ends (failure : Option PlanReason) (b : NoticeBody) :
        planEnd m p failure b s = finish (tell failure (offerNotice b closed)) := by
      rw [planEnd, finishes, tells]
      rfl
    have leaves (failure : Option PlanReason) (b : NoticeBody) : ended (planEnd m p failure b s) :=
      ⟨planEnd_ldr m p failure b s, planEnd_mounts m p failure b s, planEnd_serveTest m p failure b s,
        planEnd_map m p failure b s⟩
    have success := planSucceeds_eq service plan
    have fails := planFails_eq service plan r
    refine ⟨success.trans (ends _ _), fails.trans (ends _ _), ⟨success ▸ leaves _ _, fails ▸ leaves _ _⟩,
      fun room => ⟨failureNotice m p r s, ?_, rfl⟩⟩
    rw [fails]
    exact planEnd_notice m p _ _ s room
  case restore =>
    intro v
    refine ⟨fun x failed => ?_, fun good placed => ?_, fun good unplaced => ?_⟩
    · subst failed
      exact restorePlanEnded_failed hc asked cart
    · subst good
      obtain ⟨n, rfl⟩ := Option.ne_none_iff_exists'.1 placed
      exact restorePlanEnded_reaches hc asked cart
    · subst good unplaced
      exact restorePlanEnded_finds hc asked cart
  case verify =>
    refine ⟨fun good => ?_, fun x failed => ?_⟩
    · subst good
      exact verifyPlanEnded_mounted asked cart before hq
    · subst failed
      exact verifyPlanEnded_failed asked cart before hq

end Sys2Proof.Proofs
end

section
/-! PROOFS. The restore's own state: what the lanes, the pages and a block given up leave of it (R73, R74, R153, R168). -/

namespace Sys2Proof.Machine

variable {n : LaneId} {s t : State} {c : RestoreContext}

/-! ## Lanes leave the restore (R73, R74, R153) -/

section
variable (n : LaneId) (s : State)

@[simp] theorem markLocate_rse : (markLocate n s).rse = s.rse := by
  unfold markLocate
  split <;> simp

@[simp] theorem grantRestore_rse : (grantRestore n s).rse = s.rse := by simp [grantRestore_eq]

@[simp] theorem sendEject_rse : (sendEject n s).rse = s.rse := by simp [sendEject, sendCommand]

@[simp] theorem becomeReady_rse : (becomeReady n s).rse = s.rse := by simp [becomeReady]

@[simp] theorem doRelease_rse : (doRelease n s).rse = s.rse := by
  rw [doRelease_eq]
  dsimp only
  split
  · simp
  · split <;> simp

@[simp] theorem releaseLane_rse : (releaseLane n s).rse = s.rse := by
  unfold releaseLane
  split <;> simp

@[simp] theorem pendRestore_rse : (pendRestore n s).rse = s.rse := rfl

end

/-- What lets pages and reads go leaves the restore. -/
theorem LetsGo.rse (h : LetsGo n s t) : t.rse = s.rse := by
  obtain ⟨_, _, _, _, -, rfl⟩ := h
  rfl

@[simp] theorem withdrawRead_rse (r : ReadClient) (s : State) : (withdrawRead r s).rse = s.rse :=
  (letsGo_withdrawRead 0 r s).rse

@[simp] theorem suspendPass_rse (n : LaneId) (cause : SuspendCause) (s : State) : (suspendPass n cause s).rse = s.rse := by
  unfold suspendPass
  dsimp only
  split
  · simp
  · simp
  · split
    · simp
    · simp
    · split <;> simp
    · simp

@[simp] theorem claimRestore_rse (n : LaneId) (s : State) : (claimRestore n s).rse = s.rse := by
  unfold claimRestore
  split <;> simp

/-! ## The active context (R160) -/

/-- The state with `c` as the context of the active restore. -/
def withActive (c : RestoreContext) (s : State) : State := { s with rse := { s.rse with active := some c } }

theorem modActive_active (hc : s.rse.active = some c) (f : RestoreContext → RestoreContext) :
    modActive f s = withActive (f c) s := by
  rw [modActive, hc]
  rfl

/-- A block given up leaves of the restore the context without its block (R168). -/
theorem giveUp_rse (ends : Bool) (hc : s.rse.active = some c) :
    (giveUp ends s).rse = { s.rse with active := some (withoutBlock c) } := by
  have pages (v : State) : ((if ends = true then abandonPages .restore c.pageCount
      else surrenderPages .restore c.pageCount) v).rse = v.rse := by
    split
    · exact (letsGo_abandonPages 0 _ _ v).rse
    · exact (letsGo_surrenderPages 0 _ _ v).rse
  have unread (n : LaneId) : (if c.stage = .read ∧ servesRestore n s = true then withdrawLaneRead n s else s).rse =
      s.rse := by
    split
    · exact (letsGo_withdrawLaneRead n s).rse
    · rfl
  rw [giveUp, hc]
  dsimp only
  rw [modActive_rse, pages, withdrawRead_rse]
  cases c.lane with
  | none =>
    dsimp only
    rw [hc]
    rfl
  | some n =>
    dsimp only
    rw [unread, hc]
    rfl

end Sys2Proof.Machine
end

section
/-! PROOFS. Reaching a block: the catalog search, the cartridge and its lane, the read, the mount, and the restore's ends
(R142, R161 to R165, R167, R168). -/

namespace Sys2Proof.Machine

variable {s : State} {c : RestoreContext} {n : LaneId} {i : CartId} {label : List Byte}

/-! ## The catalog search (R142) -/

/-- A run holds a stream's sequence (R142). -/
def RunHolds (st : StreamId) (q : Nat) (r : CatRun) : Prop := r.stream = st ∧ r.first ≤ q ∧ q ≤ r.last

/-- An entry with its first run that holds the sequence, if it has one (R142). -/
def heldIn (st : StreamId) (q : Nat) (e : CatEntry) : Option (CatEntry × CatRun) :=
  (e.runs.find? fun r => decide (r.stream = st) && decide (r.first ≤ q) && decide (q ≤ r.last)).map fun r => (e, r)

section
variable {st : StreamId} {q : Nat} {e : CatEntry}

theorem searchCatalog_eq (st : StreamId) (q : Nat) (s : State) :
    searchCatalog st q s = s.cat.entries.findSome? (heldIn st q) := rfl

theorem heldIn_none (h : ∀ r ∈ e.runs, ¬ RunHolds st q r) : heldIn st q e = none := by
  simpa [heldIn, RunHolds] using h

theorem heldIn_first {before behind : List CatRun} {r : CatRun} (runs : e.runs = before ++ r :: behind)
    (first : ∀ y ∈ before, ¬ RunHolds st q y) (holds : RunHolds st q r) : heldIn st q e = some (e, r) := by
  rw [heldIn, List.find?_eq_some_iff_append.2 ⟨?holds, before, behind, runs, ?first⟩]
  · rfl
  case holds => simpa [RunHolds, and_assoc] using holds
  case first => simpa [RunHolds, imp_iff_not_or, or_assoc] using first

theorem searchCatalog_none (h : ∀ e ∈ s.cat.entries, ∀ r ∈ e.runs, ¬ RunHolds st q r) : searchCatalog st q s = none :=
  List.findSome?_eq_none_iff.2 fun e he => heldIn_none (h e he)

/-- The oldest entry with a run that holds the sequence, and its first such run. -/
theorem searchCatalog_oldest {older newer : List CatEntry} {before behind : List CatRun} {r : CatRun}
    (entries : s.cat.entries = older ++ e :: newer) (none : ∀ x ∈ older, ∀ y ∈ x.runs, ¬ RunHolds st q y)
    (runs : e.runs = before ++ r :: behind) (first : ∀ y ∈ before, ¬ RunHolds st q y) (holds : RunHolds st q r) :
    searchCatalog st q s = some (e, r) := by
  have missed : older.findSome? (heldIn st q) = Option.none :=
    List.findSome?_eq_none_iff.2 fun x hx => heldIn_none (none x hx)
  rw [searchCatalog_eq, entries, List.findSome?_append, missed, Option.none_or, List.findSome?_cons,
    heldIn_first runs first holds]

end

/-! ## The cartridge's whereabouts (R92, R162, R163) -/

theorem reachable_iff (i : CartId) (label : List Byte) (s : State) : reachable i label s = true ↔
    ∃ r, s.cdr.records[i] = some r ∧ r.label = label ∧ r.location ≠ .outside ∧ r.location ≠ .missing := by
  rw [reachable, recordAt]
  cases s.cdr.records[i] with
  | none => simp
  | some r => simp [and_assoc]

/-- The cartridge that an explicit start names is gone: no record of its index has its label and a place in the library. -/
theorem reachable_eq_false_iff (i : CartId) (label : List Byte) (s : State) : reachable i label s = false ↔
    ∀ r, s.cdr.records[i] = some r → r.label ≠ label ∨ r.location = .outside ∨ r.location = .missing := by
  rw [Bool.eq_false_iff, Ne, reachable_iff, not_exists]
  refine forall_congr' fun r => ?_
  rw [not_and, not_and_or, not_and_or, not_not, not_not]

/-- A lane has a cartridge in use: mounted there unless ejected, or in its bay on the way in or out (R92). -/
def InUse (i : CartId) (s : State) (n : LaneId) : Prop := (s.lanes[n].mounted = some i ∧ s.lanes[n].state ≠ .ejected) ∨
  (namedAt (.bay n) s = some i ∧ (s.lanes[n].state = .loading ∨ s.lanes[n].state = .unloading))

theorem inUseBy_iff (i : CartId) (n : LaneId) (s : State) : inUseBy i n s = true ↔ InUse i s n := by
  simp [inUseBy, InUse]

theorem usingLane_eq_find? (i : CartId) (s : State) : usingLane i s = Fin.find? fun n => inUseBy i n s := by
  rw [usingLane, Fin.find?_eq_find?_finRange]
  rfl

theorem usingLane_eq_some_iff (i : CartId) (n : LaneId) (s : State) :
    usingLane i s = some n ↔ InUse i s n ∧ ∀ m < n, ¬ InUse i s m := by
  rw [usingLane_eq_find?, Fin.find?_eq_some_iff, inUseBy_iff]
  refine and_congr_right fun _ => forall₂_congr fun m _ => ?_
  rw [← inUseBy_iff, Bool.eq_false_iff]

theorem usingLane_eq_none_iff (i : CartId) (s : State) : usingLane i s = none ↔ ∀ m, ¬ InUse i s m := by
  rw [usingLane_eq_find?, Fin.find?_eq_none_iff]
  refine forall_congr' fun m => ?_
  rw [← inUseBy_iff, Bool.eq_false_iff]

theorem namedByQueue_eq_false (unnamed : ∀ m ∈ s.mounts, m.cart ≠ some i) : namedByQueue i s = false := by
  rw [Bool.eq_false_iff, Ne, namedByQueue_iff]
  rintro ⟨m, hm, named⟩
  exact unnamed m hm named

theorem servesRestore_iff (n : LaneId) (s : State) :
    servesRestore n s = true ↔ s.lanes[n].activity = .restore ∧ s.lanes[n].releasing = false := by
  simp [servesRestore]

section
variable (hc : s.rse.active = some c)
include hc

/-! ## The next sequence found (R161, R162) -/

/-- The context with all from next wanted to last counted as not found. -/
def allNotFound (c : RestoreContext) : RestoreContext := { c with
  notFound := c.notFound + (c.last + 1 - c.next)
  next := c.last + 1
  missedAny := c.missedAny || decide (c.next ≤ c.last) }

theorem restNotFound_counts (countable : c.notFound + (c.last + 1 - c.next) ≤ 4294967295) :
    restNotFound s = completeRestore (withActive (allNotFound c) s) := by
  rw [restNotFound, hc]
  dsimp only
  rw [raised, if_pos (show _ ≤ max32 from countable)]
  exact congrArg completeRestore (modActive_active hc _)

theorem findNext_unheld (catalog : c.start = none) (h : ∀ e ∈ s.cat.entries, ∀ r ∈ e.runs, ¬ RunHolds c.stream c.next r) :
    findNext s = restNotFound s := by
  rw [findNext, hc]
  dsimp only
  rw [catalog, searchCatalog_none h]

/-- The context that has found its next sequence in a run of an entry. -/
def foundIn (e : CatEntry) (r : CatRun) (c : RestoreContext) : RestoreContext := { c with
  state := .finding
  cart := some (e.cart, e.label)
  block := some e.block
  runEnd := some (min r.last c.last) }

theorem findNext_found {e : CatEntry} {r : CatRun} (catalog : c.start = none)
    (found : searchCatalog c.stream c.next s = some (e, r)) : findNext s = reach (withActive (foundIn e r c) s) := by
  rw [findNext, hc]
  dsimp only
  rw [catalog, found]
  exact congrArg reach (modActive_active hc _)

/-- The context that goes to a block of the cartridge it has been started with. -/
def startsAt (st : RestoreStart) (c : RestoreContext) : RestoreContext := { c with
  state := .finding
  cart := some (st.cart, st.label)
  block := some (c.block.getD st.block) }

section
variable {st : RestoreStart} (explicit : c.start = some st)
include explicit

theorem findNext_explicit : findNext s =
    if reachable st.cart st.label s = false ∨ (recordAt st.cart s).elim 0 Cart.endOfData ≤ c.block.getD st.block then
      restNotFound s
    else reach (withActive (startsAt st c) s) := by
  rw [findNext, hc]
  dsimp only
  rw [explicit]
  dsimp only
  rw [modActive_active hc]
  rfl

theorem findNext_gone (gone : reachable st.cart st.label s = false) : findNext s = restNotFound s := by
  rw [findNext_explicit hc explicit, if_pos (.inl gone)]

section
variable {r : Cart} (record : s.cdr.records[st.cart] = some r)
include record

theorem findNext_past (past : r.endOfData ≤ c.block.getD st.block) : findNext s = restNotFound s := by
  rw [findNext_explicit hc explicit, recordAt, record]
  exact if_pos (.inr past)

theorem findNext_starts (here : reachable st.cart st.label s = true) (below : c.block.getD st.block < r.endOfData) :
    findNext s = reach (withActive (startsAt st c) s) := by
  rw [findNext_explicit hc explicit, recordAt, record]
  exact if_neg (not_or.2 ⟨by rw [here]; decide, Nat.not_le.2 below⟩)

end

end

/-! ## The read (R43, R165) -/

/-- The context that asks for a block's pages. -/
def asksPages (c : RestoreContext) : RestoreContext := { c with state := .reading, stage := .pages }

theorem startRead_granted (first : s.pool.waiting = []) (room : s.pool.held.read + 16 ≤ s.pool.quotas.read) :
    startRead s = restoreRead (takeRead 16 (withActive (asksPages c) s)) := by
  rw [startRead, modActive_active hc]
  exact if_pos ⟨first, (readFits_iff _ _).2 room⟩

theorem startRead_waits (full : s.pool.waiting ≠ [] ∨ s.pool.quotas.read < s.pool.held.read + 16) :
    startRead s = waitRead .restore 16 (withActive (asksPages c) s) := by
  rw [startRead, modActive_active hc]
  refine if_neg fun ⟨first, fits⟩ => full.elim (· first) fun much => ?_
  exact Nat.not_le.2 much ((readFits_iff _ _).1 fits)

/-- The context that has its block's pages and reads. -/
def reads (c : RestoreContext) : RestoreContext := { c with stage := .read, pages := true }

theorem restoreRead_asks {b : Nat} (lane : c.lane = some n) (block : c.block = some b) :
    restoreRead s = laneRead n b (withActive (reads c) s) := by
  rw [restoreRead, hc]
  dsimp only
  rw [lane, block, modActive_active hc]
  rfl

/-! ## The cartridge reached (R163) -/

section
variable (cart : c.cart = some (i, label))
include cart

section
variable (lane : c.lane = some n) (serves : servesRestore n s = true)
include lane serves

theorem reach_mounted (mounted : s.lanes[n].mounted = some i) : reach s = startRead s := by
  have held : holdsMounted c i s = true := by
    rw [holdsMounted, lane]
    simp [serves, mounted, -Fin.getElem_fin]
  rw [reach_eq hc cart, if_pos held]

/-- A lane that holds another cartridge is left before the cartridge is sought. -/
theorem reach_leaves (other : s.lanes[n].mounted ≠ some i) :
    reach s = reach (withActive { c with lane := none } (releaseLane n s)) := by
  have left : laneLeft c s = withActive { c with lane := none } (releaseLane n s) := by
    have active : (releaseLane n s).rse.active = some c := by rw [releaseLane_rse, hc]
    rw [laneLeft, lane]
    dsimp only
    rw [if_pos serves, modActive_active active]
  have held : holdsMounted c i s = false := by
    rw [holdsMounted, lane]
    simp [serves, other, -Fin.getElem_fin]
  rw [reach_eq hc cart, if_neg (by rw [held]; decide), left,
    reach_eq (c := { c with lane := none }) rfl cart]
  rfl

end

/-- Without a lane the cartridge is sought at once. -/
theorem reach_unplaced (lane : c.lane = none) : reach s = seekCartridge c i label s := by
  rw [reach_eq hc cart, holdsMounted, laneLeft, lane]
  rfl

/-! ## The mount (R121, R164) -/

/-- The context that waits for a mount it has asked for, or could not yet ask for. -/
def waitsMount (asked : Bool) (c : RestoreContext) : RestoreContext :=
  { c with lane := none, state := .waitingMount, mountAsked := asked }

theorem restoreMount_eq : restoreMount s =
    modActive (waitsMount (offerMount i .anyRead .urgent .restore c.tag none s).1)
      (offerMount i .anyRead .urgent .restore c.tag none s).2 := by
  rw [restoreMount, hc]
  dsimp only
  rw [cart]
  rfl

variable (unnamed : ∀ m ∈ s.mounts, m.cart ≠ some i)
include unnamed

theorem restoreMount_full (full : 8 ≤ s.mounts.length) : restoreMount s = withActive (waitsMount false c) s := by
  rw [restoreMount_eq hc cart, offerMount_full (namedByQueue_eq_false unnamed) full, modActive_active hc]

theorem restoreMount_joins (room : s.mounts.length < 8) : restoreMount s = withActive (waitsMount true c)
    (enqueueMount { kind := .mount, cart := some i, target := .anyRead, cls := .urgent, requesters := [(.restore, c.tag)],
                    tag := c.tag, fillLane := none, inService := false, rebuilt := none } s) := by
  rw [restoreMount_eq hc cart, offerMount_joins (namedByQueue_eq_false unnamed) room]
  exact modActive_active (s := enqueueMount _ s) hc _

end

/-! ## The lane claimed (R163) -/

/-- The lane claimed for the restore. -/
def claimed (n : LaneId) (c : RestoreContext) (s : State) : State :=
  claimRestore n (withActive { c with lane := some n } s)

theorem restoreClaim_eq : restoreClaim n s = if servesRestore n (claimed n c s) = true then startRead (claimed n c s)
    else withActive { c with lane := some n, state := .waitingMount } (claimed n c s) := by
  have active : (claimed n c s).rse.active = some { c with lane := some n } := by
    rw [claimed, claimRestore_rse]
    rfl
  rw [restoreClaim, modActive_active hc, ← claimed, modActive_active active]

/-! ## What the neighbours tell the restore (R163, R164) -/

theorem restoreLane_waits (waits : c.state = .waitingMount ∧ c.lane = some n) : restoreLane n s =
    if servesRestore n s = true then startRead s
    else if s.lanes[n].claim = .restore then s else reach s := by
  rw [restoreLane, hc]
  exact if_pos waits

theorem restoreLane_other (other : c.state ≠ .waitingMount ∨ c.lane ≠ some n) : restoreLane n s = s := by
  rw [restoreLane, hc]
  exact if_neg (not_and_or.2 other)

theorem restoreRoom_asks (waits : c.state = .waitingMount) (lane : c.lane = none) (unasked : c.mountAsked = false) :
    restoreRoom s = restoreMount s := by
  rw [restoreRoom, hc]
  exact if_pos ⟨waits, lane, unasked⟩

theorem restoreRoom_other (other : c.state ≠ .waitingMount ∨ c.lane ≠ none ∨ c.mountAsked = true) : restoreRoom s = s := by
  rw [restoreRoom, hc]
  refine if_neg fun ⟨waits, lane, unasked⟩ => ?_
  rcases other with h | h | h
  · exact h waits
  · exact h lane
  · exact Bool.noConfusion (h.symm.trans unasked)

/-! ## The restore's ends (R167, R168) -/

theorem completeRestore_eq : completeRestore s = finishRestore (completeResult c) s := by
  rw [completeRestore, hc]

/-- A change of the context behind a block given up finds the context without its block. -/
theorem giveUp_left (ends : Bool) (f : RestoreContext → RestoreContext) :
    modActive f (giveUp ends s) =
      { giveUp ends s with rse := { s.rse with active := some (f (withoutBlock c)) } } := by
  rw [modActive, giveUp_rse ends hc]
  rfl

theorem restoreLaneFault_first (first : c.laneFaults = 0) : restoreLaneFault s =
    post .restoreGo { giveUp false s with rse := { s.rse with active := some (survivor c) } } := by
  rw [restoreLaneFault, hc]
  dsimp only
  rw [if_pos first, first, giveUp_left hc]
  rfl

theorem restoreLaneFault_again (again : c.laneFaults ≠ 0) : restoreLaneFault s = finishRestore .laneFault
    { giveUp true s with rse := { s.rse with active := some { withoutBlock c with lane := none } } } := by
  rw [restoreLaneFault, hc]
  dsimp only
  rw [if_neg again, giveUp_left hc, decide_eq_true again]

end

end Sys2Proof.Machine

namespace Sys2Proof.Proofs

open Sys2Proof Sys2Proof.Machine

/-- Settles O53: the next sequence by the catalog search or the explicit start, the cartridge by the lane that has it, the
read by its pages, the mount by the queue's room, and the restore's ends by its counts. -/
theorem restoreReaches : Obligations.RestoreReaches := by
  intro c s hc withCtx holds noneLeft countable
  refine ⟨fun catalog unheld few => ?_, fun older e newer before r behind catalog entries none runs first here => ?_,
    fun st explicit => ?explicit, fun i label n cart lane activity kept => ?held,
    ⟨startRead_granted hc, startRead_waits hc, fun n b => restoreRead_asks hc⟩,
    fun n => ⟨fun waits => ?reports, restoreLane_other hc⟩, restoreRoom_asks hc, restoreRoom_other hc,
    fun i label cart lane => ?sought, fun i label cart unnamed => ?mount, fun i label n => ?claim, completeRestore_eq hc,
    restoreLaneFault_first hc, restoreLaneFault_again hc⟩
  · exact (findNext_unheld hc catalog unheld).trans (restNotFound_counts hc few)
  · exact findNext_found hc catalog (searchCatalog_oldest entries none runs first here)
  case explicit =>
    intro b gone
    have away : reachable st.cart st.label s = false ↔ gone := reachable_eq_false_iff st.cart st.label s
    refine ⟨fun lost few => ?_, fun r record past few => ?_, fun r record there below => ?_⟩
    · exact (findNext_gone hc explicit (away.2 lost)).trans (restNotFound_counts hc few)
    · exact (findNext_past hc explicit record past).trans (restNotFound_counts hc few)
    · exact findNext_starts hc explicit record (by simpa using mt away.1 there) below
  case held =>
    have serves := (servesRestore_iff n s).2 ⟨activity, kept⟩
    refine ⟨reach_mounted hc cart lane serves, fun other => (reach_leaves hc cart lane serves other).trans ?_⟩
    rw [withActive, releaseLane_rse]
  case reports =>
    have told := restoreLane_waits hc waits
    have serves := servesRestore_iff n s
    refine ⟨fun activity kept => told.trans (if_pos (serves.2 ⟨activity, kept⟩)), fun gone => ?_⟩
    have left : ¬ servesRestore n s = true := fun on => by
      obtain ⟨activity, kept⟩ := serves.1 on
      exact gone.elim (· activity) fun leaving => Bool.noConfusion (leaving.symm.trans kept)
    rw [told, if_neg left]
    exact ⟨fun pends => if_pos pends, fun free => if_neg free⟩
  case sought =>
    rw [reach_unplaced hc cart lane, seekCartridge]
    refine ⟨fun catalog gone => if_pos ⟨catalog, gone⟩, fun there => ?_⟩
    have stays : ¬ (c.start = none ∧ reachable i label s = false) := fun ⟨catalog, gone⟩ =>
      there.elim (· catalog) fun here => Bool.noConfusion (gone.symm.trans here)
    rw [if_neg stays]
    exact ⟨fun n user => by rw [user, Option.elim_some], fun free => by rw [free, Option.elim_none]⟩
  case mount => exact ⟨restoreMount_full hc cart unnamed, restoreMount_joins hc cart unnamed⟩
  case claim =>
    intro inUse v granted
    have serves : servesRestore n v = true ↔ granted := servesRestore_iff n v
    have claims := restoreClaim_eq (n := n) hc
    exact ⟨reachable_iff i label s, inUseBy_iff i n s, usingLane_eq_some_iff i n s, usingLane_eq_none_iff i s,
      fun on => claims.trans (if_pos (serves.2 on)), fun off => claims.trans (if_neg (mt serves.1 off))⟩

end Sys2Proof.Proofs
end

section
/-! PROOFS. Catalog: the room report, the lanes' places, the entries, and CAT_RELEASE (R133 to R136, R139). -/

namespace Sys2Proof.Machine

variable {s : State} {n : LaneId} {h : Hdr} {k : Nat} {expected : Option Nat}

/-! ## The room report (R136) -/

/-- Of the lanes of a list those in HOLD for catalog room ask again, in the list's order (R136, log entry 3). -/
theorem forEach_catalogHold (lanes : List LaneId) (s : State) :
    forEach lanes (fun n s => if s.lanes[n].holdReason = some .catalogFull then post (.catalogHold n) s else s) s =
      { s with due := s.due ++
          (lanes.filter fun n => decide (s.lanes[n].holdReason = some .catalogFull)).map Due.catalogHold } := by
  induction lanes generalizing s with
  | nil => simp [forEach]
  | cons n lanes ih =>
    rw [forEach, List.foldl_cons, ← forEach]
    by_cases holds : s.lanes[n].holdReason = some .catalogFull
    · rw [if_pos holds, ih]
      simp [holds, post, -Fin.getElem_fin]
      rfl
    · rw [if_neg holds, ih]
      simp [holds, -Fin.getElem_fin]

theorem roomReport_room (room : 0 < freeRoom s) : roomReport s = { s with due := s.due ++
    (allLanes.filter fun n => decide (s.lanes[n].holdReason = some .catalogFull)).map Due.catalogHold } :=
  (if_pos room).trans (forEach_catalogHold allLanes s)

theorem roomReport_full (full : freeRoom s = 0) : roomReport s = s := if_neg (by rw [full]; decide)

@[simp] theorem roomReport_cat (s : State) : (roomReport s).cat = s.cat := by
  rcases Nat.eq_zero_or_pos (freeRoom s) with full | room
  · rw [roomReport_full full]
  · rw [roomReport_room room]

/-! ## Places (R133, R135) -/

/-- A notice and a change of the catalog go in either order (R188). -/
theorem modCat_offerNotice (f : Catalog → Catalog) (b : NoticeBody) (s : State) :
    modCat f (offerNotice b s) = offerNotice b (modCat f s) := by
  unfold offerNotice
  rw [modCat_link]
  split <;> rfl

theorem askPlace_holds (held : s.cat.places[n] = true) : askPlace n s = (true, s) := if_pos held

section
variable (free : s.cat.places[n] = false)
include free

theorem askPlace_granted (room : 0 < freeRoom s) : askPlace n s =
    (true, { s with cat := { s.cat with places := s.cat.places.set n true, fullReported := false } }) :=
  (if_neg (by rw [free]; decide)).trans (if_pos room)

variable (full : freeRoom s = 0)
include full

theorem askPlace_full : askPlace n s = if s.cat.fullReported = true then (false, s) else
    (false, modCat (fun c => { c with fullReported := true })
      (offerNotice (.catalogFull n s.cat.entries.length) s)) :=
  (if_neg (by rw [free]; decide)).trans (if_neg (by rw [full]; decide))

theorem askPlace_refused (told : s.cat.fullReported = true) : askPlace n s = (false, s) :=
  (askPlace_full free full).trans (if_pos told)

/-- The first refusal since the last grant is told (R135). -/
theorem askPlace_tells (untold : s.cat.fullReported = false) : askPlace n s =
    (false, offerNotice (.catalogFull n s.cat.entries.length) { s with cat := { s.cat with fullReported := true } }) := by
  rw [askPlace_full free full, if_neg (by rw [untold]; decide), modCat_offerNotice]
  rfl

end

theorem releasePlace_held (held : s.cat.places[n] = true) :
    releasePlace n s = roomReport { s with cat := { s.cat with places := s.cat.places.set n false } } := if_pos held

theorem releasePlace_free (free : s.cat.places[n] = false) : releasePlace n s = s := if_neg (by rw [free]; decide)

/-! ## Entries (R134, R135) -/

section
variable {i : CartId} {label : List Byte} {block : Nat} {runs : List Run}

theorem insertEntry_below (below : s.cat.entries.length + 1 ≠ 3584) :
    insertEntry n i label block runs s = entered n i label block runs s := by
  rw [insertEntry_eq]
  exact if_neg (by rwa [entered_length])

theorem insertEntry_reaches {old : CatEntry} (reaches : s.cat.entries.length + 1 = 3584)
    (oldest : s.cat.entries.head? = some old) : insertEntry n i label block runs s =
      offerNotice (.catalogHigh 3584 old.serial (s.cat.nextSerial + 1)) (entered n i label block runs s) := by
  have stays : (entered n i label block runs s).cat.entries.head? = some old := by
    rw [entered, List.head?_append, oldest]
    rfl
  rw [insertEntry_eq]
  dsimp only
  rw [entered_length, reaches, if_pos rfl, stays]
  rfl

end

/-! ## CAT_RELEASE (R139) -/

/-- The state without its `k` oldest entries. -/
def dropOldest (k : Nat) (s : State) : State := { s with cat := { s.cat with entries := s.cat.entries.drop k } }

theorem catRelease_badArgument (bad : 4096 < k ∨ s.cat.entries.length < k) :
    catRelease h k expected s = refuse h 26 .badArgument s := if_pos bad

section
variable (bound : k ≤ 4096) (there : k ≤ s.cat.entries.length)
include bound there

theorem catRelease_badState (named : expected ≠ none)
    (other : (s.cat.entries.head?.map fun e => e.serial.toNat) ≠ expected) :
    catRelease h k expected s = refuse h 26 .badState s :=
  (if_neg (not_or.2 ⟨Nat.not_lt.2 bound, Nat.not_lt.2 there⟩)).trans
    (if_pos ⟨Option.isSome_iff_ne_none.2 named, other⟩)

section
variable (oldest : expected = none ∨ (s.cat.entries.head?.map fun e => e.serial.toNat) = expected)
include oldest

theorem catRelease_keeps : catRelease h k expected s =
    answer h 26 .ok (.count (keepEntries (List.drop k) s).cat.entries.length) (keepEntries (List.drop k) s) := by
  refine (if_neg (not_or.2 ⟨Nat.not_lt.2 bound, Nat.not_lt.2 there⟩)).trans (if_neg fun ⟨named, other⟩ => ?_)
  exact oldest.elim (Option.isSome_iff_ne_none.1 named) other

theorem catRelease_none (zero : k = 0) :
    catRelease h k expected s = answer h 26 .ok (.count s.cat.entries.length) s := by
  have same : keepEntries (List.drop 0) s = s := if_neg (Nat.lt_irrefl s.cat.entries.length)
  rw [catRelease_keeps bound there oldest, zero, same]

theorem catRelease_drops (more : 0 < k) : catRelease h k expected s =
    answer h 26 .ok (.count (s.cat.entries.length - k)) (roomReport (dropOldest k s)) := by
  have fewer : (dropOldest k s).cat.entries.length < s.cat.entries.length := by
    rw [dropOldest, List.length_drop]
    omega
  have left : keepEntries (List.drop k) s = roomReport (dropOldest k s) := if_pos fewer
  rw [catRelease_keeps bound there oldest, left, roomReport_cat, dropOldest, List.length_drop]

end

end

end Sys2Proof.Machine

namespace Sys2Proof.Proofs

open Sys2Proof Sys2Proof.Machine

/-- Settles O27: CAT_RELEASE by its operands, the entry by the high mark, a place by the free room, and the room report by
the lanes in HOLD. -/
theorem catalogRoomAndEntries : Obligations.CatalogRoomAndEntries := by
  refine ⟨fun h k expected s credit => ?release, fun n i label block runs s => ?entry⟩
  case release =>
    intro u done oldest
    have releases {t} : catRelease h k expected u = t → done t :=
      exec_taken (c := .catRelease h k expected) credit rfl
    exact ⟨fun bad => releases (catRelease_badArgument bad),
      fun bound there named other => releases (catRelease_badState bound there named other),
      fun bound there oldestIs => ⟨fun zero => releases (catRelease_none bound there oldestIs zero),
        fun more => releases (catRelease_drops bound there oldestIs more)⟩⟩
  case entry =>
    intro e t
    have joined : entered n i label block runs s = t := rfl
    have below := insertEntry_below (n := n) (i := i) (label := label) (block := block) (runs := runs) (s := s)
    have reaches {old} := insertEntry_reaches (n := n) (i := i) (label := label) (block := block) (runs := runs) (s := s)
      (old := old)
    rw [joined] at below reaches
    exact ⟨below, fun old => reaches, askPlace_holds,
      askPlace_granted, askPlace_refused, askPlace_tells, releasePlace_held, releasePlace_free, rfl, roomReport_room,
      roomReport_full⟩

end Sys2Proof.Proofs
end

section
/-! PROOFS. Verify passes: the start test and its mounts, a pass from its first block to its last, the checks of a block, and
the ends of a pass (R43, R141, R146 to R152, R157). -/

namespace Sys2Proof.Machine

variable {n : LaneId} {s : State} {i : CartId} {r : VerifyRequest} {used : List LaneId}

/-! ## The start test (R146) -/

/-- The start test hands the lanes it has started on, and the state, from each request to the next (R146). -/
theorem testRequests_eq_foldl (l : List VerifyRequest) (used : List LaneId) (s : State) :
    testRequests l used s = (l.foldl (fun a r => testRequest r a.1 a.2) (used, s)).2 := by
  induction l generalizing used s with
  | nil => rfl
  | cons r l ih => exact ih _ _

theorem underPass_iff (i : CartId) (s : State) : underPass i s = true ↔
    ∃ n : LaneId, s.vfy.contexts[n].state ≠ .idle ∧ s.vfy.contexts[n].cart = i := by
  rw [underPass, allLanes_any_iff]
  simp only [Bool.and_eq_true, decide_eq_true_eq]

theorem testRequest_gone (gone : reachable r.cart r.label s = false) : testRequest r used s =
    (used, requestNotice r .noCartridge (modVfy (fun v => { v with queue := v.queue.erase r }) s)) := if_pos gone

section
variable (here : reachable r.cart r.label s = true)
include here

theorem testRequest_underPass (under : underPass r.cart s = true) : testRequest r used s = (used, s) :=
  (if_neg (by rw [here]; decide)).trans (if_pos under)

variable (free : ¬ underPass r.cart s = true)
include free

theorem testRequest_inUse (user : usingLane r.cart s = some n) : testRequest r used s =
    if s.vfy.contexts[n].state = .idle ∧ verifyGrants n s = true ∧ n ∉ used then
      (n :: used, startPass n r (grantVerify n s))
    else (used, s) := by
  rw [testRequest, if_neg (by rw [here]; decide), if_neg free, user]
  exact if_congr (and_congr_right' (and_congr_right' (by simp))) rfl rfl

theorem testRequest_unused (nobody : usingLane r.cart s = none) : testRequest r used s = (used, verifyMount r s) := by
  rw [testRequest, if_neg (by rw [here]; decide), if_neg free, nobody]

end

/-! ## The mount asked for (R121, R147) -/

/-- A request for a mount stands for the verify engine: asked for by a queued request, or in the mount queue (R147). -/
def MountStands (s : State) : Prop := (∃ q ∈ s.vfy.queue, q.mountAsked = true) ∨
  ∃ m ∈ s.mounts, ∃ p ∈ m.requesters, p.1 = .verify

theorem mountStands_iff (s : State) : MountStands s ↔ s.vfy.queue.any VerifyRequest.mountAsked = true ∨
    s.mounts.any (fun m => m.requesters.any fun p => decide (p.1 = .verify)) = true := by
  simp only [MountStands, List.any_eq_true, decide_eq_true_eq]

theorem verifyMount_stands (stands : MountStands s) : verifyMount r s = s := if_pos ((mountStands_iff s).1 stands)

/-- A request of the mount queue into which the verify engine's, of the lowest class and without a lane to fill, is merged
as a new requester (R121). -/
theorem mergedMount_verify {m : MountRequest} {tag : Nat} (new : ∀ p ∈ m.requesters, p.1 ≠ .verify) :
    mergedMount .background .verify tag none m = { m with requesters := m.requesters ++ [(.verify, tag)] } := by
  have cls : m.cls.max .background = m.cls := by cases m.cls <;> rfl
  have joins : addRequester .verify tag m.requesters = m.requesters ++ [(.verify, tag)] := by
    refine if_neg fun there => ?_
    obtain ⟨p, hp, verify⟩ := List.any_eq_true.1 there
    exact new p hp (of_decide_eq_true verify)
  have later : m.requesters.head?.map Prod.fst ≠ some .verify := by
    intro first
    obtain ⟨p, head, fst⟩ := Option.map_eq_some_iff.1 first
    exact new p (List.mem_of_mem_head? head) fst
  rw [mergedMount, cls, joins, if_neg later]
  rfl

/-- The mount that a verify request asks for, of the lowest class (R121, R147). -/
def backgroundMount (r : VerifyRequest) : MountRequest :=
  { kind := .mount, cart := some r.cart, target := .anyRead, cls := .background,
    requesters := [(.verify, originTag r.origin)], tag := originTag r.origin, fillLane := none, inService := false,
    rebuilt := none }

section
variable {front rest : List VerifyRequest}

theorem queue_replace_asked (queue : s.vfy.queue = front ++ r :: rest) (first : r ∉ front) :
    s.vfy.queue.replace r { r with mountAsked := true } = front ++ { r with mountAsked := true } :: rest := by
  rw [queue, List.replace_append_right first, List.replace_cons_self]

variable (unasked : ¬ MountStands s)
include unasked

theorem verifyMount_offers : verifyMount r s =
    let a := offerMount r.cart .anyRead .background .verify (originTag r.origin) none s
    if a.1 = true then modVfy (fun v => { v with queue := v.queue.replace r { r with mountAsked := true } }) a.2 else a.2 :=
  if_neg (mt (mountStands_iff s).2 unasked)

theorem verifyMount_full (unnamed : ∀ m ∈ s.mounts, m.cart ≠ some r.cart) (full : 8 ≤ s.mounts.length) :
    verifyMount r s = s := by
  rw [verifyMount_offers unasked, offerMount_full (namedByQueue_eq_false unnamed) full]
  rfl

section
variable (queue : s.vfy.queue = front ++ r :: rest) (first : r ∉ front)
include queue first

theorem verifyMount_merges (named : ∃ m ∈ s.mounts, m.cart = some r.cart) : verifyMount r s = { s with
    vfy := { s.vfy with queue := front ++ { r with mountAsked := true } :: rest }
    mounts := s.mounts.map fun m => if m.cart = some r.cart then
      { m with requesters := m.requesters ++ [(.verify, originTag r.origin)] } else m } := by
  have merged : (s.mounts.map fun m => if m.cart = some r.cart then
      mergedMount .background .verify (originTag r.origin) none m else m) =
      s.mounts.map fun m => if m.cart = some r.cart then
        { m with requesters := m.requesters ++ [(.verify, originTag r.origin)] } else m :=
    List.map_congr_left fun m hm => by
      rw [mergedMount_verify fun p hp verify => unasked (.inr ⟨m, hm, p, hp, verify⟩)]
  rw [verifyMount_offers unasked, offerMount_merges named, merged, ← queue_replace_asked queue first]
  rfl

theorem verifyMount_joins (unnamed : ∀ m ∈ s.mounts, m.cart ≠ some r.cart) (room : s.mounts.length < 8) :
    verifyMount r s = enqueueMount (backgroundMount r)
      { s with vfy := { s.vfy with queue := front ++ { r with mountAsked := true } :: rest } } := by
  rw [verifyMount_offers unasked, offerMount_joins (namedByQueue_eq_false unnamed) room, ← queue_replace_asked queue first]
  rfl

end

end

/-! ## A pass from its start to its next block (R43, R148, R149) -/

/-- The context of a pass that starts for a request on the cartridge of record `c`: END is the end of data minus 1 (R148). -/
def started (r : VerifyRequest) (c : Cart) : VerifyContext :=
  { VerifyContext.idle with
    state := .running
    cart := r.cart
    label := r.label
    origin := r.origin
    first := r.first
    last := (match r.last with
      | some b => b
      | none => (c.endOfData : Int) - 1)
    next := r.first }

theorem startPass_eq {c : Cart} (record : s.cdr.records[r.cart] = some c) : startPass n r s =
    passAdvance n { s with vfy := { s.vfy with
      queue := s.vfy.queue.erase r
      contexts := s.vfy.contexts.set n (started r c) } } := by
  rw [startPass, recordAt, record]
  rfl

theorem passAdvance_complete (past : s.vfy.contexts[n].last < (s.vfy.contexts[n].next : Int)) :
    passAdvance n s = completePass n s := if_pos past

section
variable (more : (s.vfy.contexts[n].next : Int) ≤ s.vfy.contexts[n].last)
include more

theorem passAdvance_waits (halted : s.vfy.contexts[n].state ≠ .running) : passAdvance n s = s :=
  (if_neg (Int.not_lt.2 more)).trans (if_neg halted)

theorem passAdvance_running (runs : s.vfy.contexts[n].state = .running) : passAdvance n s = passPages n s :=
  (if_neg (Int.not_lt.2 more)).trans (if_pos runs)

end

/-- The pass asks for its next block's pages (R149). -/
def asksBlock (n : LaneId) (s : State) : State := modCtx n (fun c => { c with stage := .pages, inHand := some c.next }) s

theorem passPages_granted (first : s.pool.waiting = []) (room : s.pool.held.read + 16 ≤ s.pool.quotas.read) :
    passPages n s = passRead n (takeRead 16 (asksBlock n s)) := if_pos ⟨first, (readFits_iff _ _).2 room⟩

theorem passPages_waits (full : ¬ (s.pool.waiting = [] ∧ s.pool.held.read + 16 ≤ s.pool.quotas.read)) :
    passPages n s = waitRead (.verify n) 16 (asksBlock n s) :=
  if_neg fun ⟨first, fits⟩ => full ⟨first, (readFits_iff _ _).1 fits⟩

/-! ## The checks of a block (R141, R149 to R151) -/

/-- Two changes of one context agree when they agree on the context that stands there. -/
theorem modCtx_congr {f g : VerifyContext → VerifyContext} (h : f s.vfy.contexts[n] = g s.vfy.contexts[n]) :
    modCtx n f s = modCtx n g s := by
  rw [modCtx, modCtx, upd_congr _ _ f g h]

/-- A 32-bit count within its range rises by 1 (log entry 12). -/
theorem raised_of_lt {k : Nat} (few : k < 4294967295) : raised k 1 s = (k + 1, s) := if_pos (show k + 1 ≤ max32 from few)

section
variable {read : Option (List Byte)}

theorem passBlock_bad {e : BadBlock} (bad : testBlock read s.vfy.contexts[n].label
      (s.vfy.contexts[n].inHand.getD s.vfy.contexts[n].next) = .error e) : passBlock n read s =
    blockDone n (raise .verifyMismatch (some n) (freeRead 16
      (modCtx n (fun c => { c with stage := .check, blockBad := true, pages := false }) s))) := by
  rw [passBlock, bad]
  rfl

theorem passBlock_good {rs : List WalkedRecord} (good : testBlock read s.vfy.contexts[n].label
      (s.vfy.contexts[n].inHand.getD s.vfy.contexts[n].next) = .ok rs) : passBlock n read s =
    passRecords n (modCtx n (fun c => { c with stage := .check, todo := rs }) s) := by
  rw [passBlock, good]

end

theorem passRecords_end (finished : s.vfy.contexts[n].todo = []) : passRecords n s = blockDone n (freeRead 16 s) := by
  rw [passRecords, finished]
  rfl

section
variable {w : WalkedRecord} {rest : List WalkedRecord} (todo : s.vfy.contexts[n].todo = w :: rest)
include todo

theorem passRecords_held (busy : clientBusy (.verify n) s = true) : passRecords n s = s := by
  rw [passRecords, todo]
  exact if_pos busy

theorem passRecords_offers (free : ¬ clientBusy (.verify n) s = true) : passRecords n s =
    offerRecord (.verify n) w (modCtx n (fun c => { c with todo := rest }) s) := by
  rw [passRecords, todo]
  exact if_neg free

end

section
variable (few : s.vfy.contexts[n].records < 4294967295)
include few

theorem passOutcome_good {bytes : List Byte} : passOutcome n (.good bytes) s =
    passRecords n (modCtx n (fun c => { c with records := c.records + 1 }) s) := by
  rw [passOutcome, raised_of_lt few]
  exact congrArg (passRecords n) (modCtx_congr rfl)

theorem passOutcome_bad {o : Expanded} (bad : o = .corrupt ∨ o = .damaged)
    (fewBad : s.vfy.contexts[n].badRecords < 4294967295) : passOutcome n o s =
    passRecords n (raise .verifyMismatch (some n) (modCtx n (fun c => { c with
      records := c.records + 1
      badRecords := c.badRecords + 1
      blockBad := true }) s)) := by
  have counted : passOutcome n o s = passRecords n (raise .verifyMismatch (some n) (modCtx n (fun c => { c with
      records := s.vfy.contexts[n].records + 1
      badRecords := s.vfy.contexts[n].badRecords + 1
      blockBad := true }) s)) := by
    obtain rfl | rfl := bad
    · rw [passOutcome, raised_of_lt few, raised_of_lt fewBad]
      nofun
    · rw [passOutcome, raised_of_lt few, raised_of_lt fewBad]
      nofun
  rw [counted]
  exact congrArg (fun v => passRecords n (raise .verifyMismatch (some n) v)) (modCtx_congr rfl)

end

/-- The context that has finished the checks of block `b` (R151). -/
def blockCounted (b : Nat) (c : VerifyContext) : VerifyContext := { c with
  checked := c.checked + 1
  badBlocks := if c.blockBad = true then c.badBlocks + 1 else c.badBlocks
  firstBad := if c.blockBad = true ∧ c.firstBad = none then some b else c.firstBad
  next := b + 1
  inHand := none
  stage := .none
  blockBad := false
  todo := []
  pages := false }

theorem blockDone_counts {b : Nat} (hand : s.vfy.contexts[n].inHand = some b)
    (few : s.vfy.contexts[n].checked < 4294967295) (fewBad : s.vfy.contexts[n].badBlocks < 4294967295) :
    blockDone n s = passAdvance n (markEntry s.vfy.contexts[n].cart b
      (if s.vfy.contexts[n].blockBad = true then .bad else .verified) (modCtx n (blockCounted b) s)) := by
  have bad : (if s.vfy.contexts[n].blockBad = true then raised s.vfy.contexts[n].badBlocks 1 s
      else (s.vfy.contexts[n].badBlocks, s)) =
      (if s.vfy.contexts[n].blockBad = true then s.vfy.contexts[n].badBlocks + 1 else s.vfy.contexts[n].badBlocks, s) := by
    rw [raised_of_lt fewBad]
    split <;> rfl
  rw [blockDone, hand, raised_of_lt few]
  dsimp only
  rw [bad]
  exact congrArg (fun v => passAdvance n (markEntry _ _ _ v)) (modCtx_congr rfl)

/-! ## A complete pass (R152) -/

/-- The pass of a context raises verified to on the cartridge of record `r` (R152). -/
def Raises (c : VerifyContext) (r : Cart) : Prop := c.badBlocks = 0 ∧ c.first ≤ r.verifiedTo ∧ r.label = c.label

section
variable {c : VerifyContext}

theorem raiseVerified_raises {r : Cart} (record : s.cdr.records[c.cart] = some r) (raises : Raises c r) :
    raiseVerified c s = { s with cdr := { s.cdr with records := s.cdr.records.set c.cart (some { r with
      verifiedTo := min r.endOfData (max r.verifiedTo (c.last + 1).toNat) }) } } := by
  rw [raiseVerified, recordAt, record]
  exact (if_pos raises).trans (modRecord_some _ record)

theorem raiseVerified_stays (stays : ∀ r, s.cdr.records[c.cart] = some r → ¬ Raises c r) : raiseVerified c s = s := by
  rw [raiseVerified, recordAt]
  split
  · rfl
  · next r record => exact if_neg (stays r record)

@[simp] theorem raiseVerified_vfy (c : VerifyContext) (s : State) : (raiseVerified c s).vfy = s.vfy := by
  rw [raiseVerified]
  split
  · rfl
  · split <;> rfl

end

/-- The context's pass is told as ended with a result, and the start test follows (R146, R152). -/
def passTold (n : LaneId) (c : VerifyContext) (res : VerifyResult) (s : State) : State :=
  post .verifyStart (passNotice n c res s)

@[simp] theorem passTold_vfy (n : LaneId) (c : VerifyContext) (res : VerifyResult) (s : State) :
    (passTold n c res s).vfy = s.vfy := by
  rw [passTold, passNotice, post_vfy, offerNotice_vfy]

/-- The context is IDLE, and the lane of a pass that was RUNNING is released (R152). -/
def passLeft (n : LaneId) (c : VerifyContext) (s : State) : State :=
  if c.state = .running then releaseLane n (modCtx n VerifyContext.ended s) else modCtx n VerifyContext.ended s

theorem completePass_eq (n : LaneId) (s : State) : completePass n s =
    passTold n s.vfy.contexts[n] (if s.vfy.contexts[n].badBlocks = 0 then .passed else .failed)
      (passLeft n s.vfy.contexts[n] (raiseVerified s.vfy.contexts[n] s)) := rfl

@[simp] theorem markLocate_vfy (n : LaneId) (s : State) : (markLocate n s).vfy = s.vfy := by
  unfold markLocate
  split <;> simp

/-- The release of a lane under no pass leaves the verify engine (R74). -/
theorem releaseLane_vfy (idle : s.vfy.contexts[n].state = .idle) : (releaseLane n s).vfy = s.vfy := by
  by_cases command : s.lanes[n].command = none
  · rw [releaseLane_free command, doRelease_eq]
    dsimp only
    split
    · simp [grantRestore_eq]
    · split
      · rw [sendEject, endPass_of_idle (by simpa [sendCommand] using idle)]
        simp [sendCommand]
      · simp [becomeReady]
  · rw [releaseLane_waits command]
    rfl

theorem passLeft_vfy (n : LaneId) (c : VerifyContext) (s : State) :
    (passLeft n c s).vfy = (modCtx n VerifyContext.ended s).vfy := by
  rw [passLeft]
  split
  · exact releaseLane_vfy (by rw [modCtx_vfy, upd_same]; rfl)
  · rfl

theorem completePass_context (n : LaneId) (s : State) :
    (completePass n s).vfy.contexts[n] = s.vfy.contexts[n].ended := by
  rw [completePass_eq, passTold_vfy, passLeft_vfy, modCtx_vfy, upd_same, raiseVerified_vfy]

/-! ## A pass that is ended (R157) -/

theorem withdrawPass_none (stage : s.vfy.contexts[n].stage = .none) : withdrawPass n s = s := by
  rw [withdrawPass, stage]

theorem withdrawPass_pages (stage : s.vfy.contexts[n].stage = .pages) :
    withdrawPass n s = withdrawRead (.verify n) s := by
  rw [withdrawPass, stage]

theorem withdrawPass_check (stage : s.vfy.contexts[n].stage = .check) :
    withdrawPass n s = abandonPages (.verify n) 16 s := by
  rw [withdrawPass, stage]
  rfl

theorem unread_eq (l : Lane) : unread l = { l with discard := l.discard || l.command.isSome, readBlock := none } := by
  cases command : l.command <;> simp [unread, command]

theorem withdrawPass_read (stage : s.vfy.contexts[n].stage = .read) : withdrawPass n s = freeRead 16 (modLane n
    (fun l => { l with discard := l.discard || l.command.isSome, readBlock := none }) s) := by
  rw [withdrawPass, stage, ← modLane_congr (unread_eq _), ← withdrawLaneRead_eq]
  rfl

end Sys2Proof.Machine

namespace Sys2Proof.Proofs

open Sys2Proof Sys2Proof.Machine

/-- Settles O51: the start test request by request, a request by where its cartridge is, a pass by its state and next block,
a block by its tests and its records, and the ends of a pass by its state and the stage of its block. -/
theorem verifyStartsAndChecks : Obligations.VerifyStartsAndChecks := by
  refine ⟨fun r used s => ⟨commanded_congr (testRequests_eq_foldl _ _ _), ?tests, fun n c => startPass_eq⟩,
    fun n read bytes w rest s => ⟨fun e => passBlock_bad, fun rs => passBlock_good, passRecords_end, ?offers,
      fun few => passOutcome_good few, fun o bad few fewBad => passOutcome_bad few bad fewBad, fun b => blockDone_counts, ?ends⟩⟩
  case tests =>
    intro gone under
    have away : reachable r.cart r.label s = false ↔ gone := reachable_eq_false_iff r.cart r.label s
    have here : ¬ gone → reachable r.cart r.label s = true := fun there => by simpa using mt away.1 there
    have passes : underPass r.cart s = true ↔ under := underPass_iff r.cart s
    have without (m : LaneId) : inUseBy r.cart m s = false ↔ ¬ InUse r.cart s m := by
      rw [← inUseBy_iff, Bool.eq_false_iff]
    refine ⟨fun lost => testRequest_gone (away.2 lost),
      fun there busy => testRequest_underPass (here there) (passes.2 busy),
      fun n there free user lower => testRequest_inUse (here there) (mt passes.1 free) ?_,
      fun there free nobody => testRequest_unused (here there) (mt passes.1 free) ?_, ?mount⟩
    · exact (usingLane_eq_some_iff r.cart n s).2 ⟨(inUseBy_iff r.cart n s).1 user, fun m hm => (without m).1 (lower m hm)⟩
    · exact (usingLane_eq_none_iff r.cart s).2 fun m => (without m).1 (nobody m)
    case mount =>
      exact ⟨verifyMount_stands,
        fun front rest unasked named queue first => verifyMount_merges unasked queue first named,
        fun unasked full unnamed => verifyMount_full unasked unnamed full,
        fun front rest unasked room unnamed queue first => verifyMount_joins unasked queue first unnamed room⟩
  case offers =>
    intro busy
    have waits : clientBusy (.verify n) s = true ↔ busy := clientBusy_iff (.verify n) s
    exact ⟨fun todo held => passRecords_held todo (waits.2 held),
      fun todo free => passRecords_offers todo (mt waits.1 free)⟩
  case ends =>
    intro ended told finish roomNow asked raises
    refine ⟨fun r record raised => congrArg finish (raiseVerified_raises record raised),
      fun stays => congrArg finish (raiseVerified_stays stays), ?context, passAdvance_complete, passAdvance_waits,
      fun more runs => ⟨fun ⟨first, room⟩ => ?granted, fun full => ?waits⟩, rfl, fun result =>
        ⟨endPass_of_idle, fun on => ?ended⟩⟩
    case context =>
      rw [completePass_context]
      exact (upd_same _ _ _).symm
    case granted => exact (passAdvance_running more runs).trans (passPages_granted first room)
    case waits => exact (passAdvance_running more runs).trans (passPages_waits full)
    case ended =>
      have gives {v : State} (given : withdrawPass n s = v) : endPass n result s = told result (ended v) := by
        rw [endPass_of_pass on, given]
        rfl
      exact ⟨fun stage => gives (withdrawPass_none stage), fun stage => gives (withdrawPass_pages stage),
        fun stage => gives (withdrawPass_read stage), fun stage => gives (withdrawPass_check stage)⟩

end Sys2Proof.Proofs
end

section
/-! PROOFS. Verify requests: VERIFY, VERIFY_SUSPEND, VERIFY_RESUME, VERIFY_CANCEL and the automatic resume (R73, R144, R153 to
R157, R192). -/

namespace Sys2Proof.Machine

variable {h : Hdr} {n : LaneId} {s : State} {i : CartId}

/-! ## VERIFY (R144, R192) -/

theorem blockOf_of_le {b : Nat} (bound : b ≤ 4294967294) : blockOf b = some b := if_pos (Nat.lt_succ_of_le bound)

theorem blockOf_none {b : Nat} (beyond : 4294967294 < b) : blockOf b = none := if_neg (Nat.not_lt.2 beyond)

/-- A last block that the link can carry: 4,294,967,295 spells END (R192). -/
def lastOrEnd (last : Nat) : Option Nat := if last = 4294967295 then none else some last

theorem verifyLast_of_le {last : Nat} (bound : last ≤ 4294967295) : verifyLast last = some (lastOrEnd last) := by
  rw [verifyLast, lastOrEnd]
  by_cases isEnd : last = 4294967295
  · rw [if_pos isEnd]
    exact if_pos isEnd
  · rw [if_neg isEnd, blockOf_of_le (by omega)]
    exact if_neg isEnd

theorem verifyLast_none {last : Nat} (beyond : 4294967295 < last) : verifyLast last = none := by
  rw [verifyLast, blockOf_none (by omega)]
  exact if_neg (Nat.ne_of_gt beyond)

theorem verifyRangeOk_iff {first last : Nat} (bound : first ≤ 4294967294) :
    verifyRangeOk first (lastOrEnd last) = true ↔ first ≤ last := by
  rw [lastOrEnd]
  split
  · exact iff_of_true rfl (by omega)
  · exact decide_eq_true_iff

/-- The verify request of a VERIFY frame on cartridge `i` with record `c` (R144). -/
def frameRequest (h : Hdr) (i : CartId) (c : Cart) (first last : Nat) : VerifyRequest :=
  { cart := i, label := c.label, first := first, last := lastOrEnd last, origin := .server h.tag, mountAsked := false }

theorem suspendedOn_iff (i : CartId) (s : State) : suspendedOn i s = true ↔
    ∃ n : LaneId, s.vfy.contexts[n].state = .suspended ∧ s.vfy.contexts[n].cart = i := by
  rw [suspendedOn, allLanes_any_iff]
  simp only [Bool.and_eq_true, decide_eq_true_eq]

/-- A request in which an operand has no meaning (R144). -/
theorem verify_unread {index first last : Nat}
    (unread : finOf 64 index = none ∨ blockOf first = none ∨ verifyLast last = none) :
    verify h index first last s = refuse h 27 .badArgument s := by
  unfold verify
  split
  · next hi hf hl => simp [hi, hf, hl] at unread
  · rfl

theorem verify_backwards {first last : Nat} (low : first ≤ 4294967294) (high : last ≤ 4294967295)
    (backwards : last < first) : verify h i first last s = refuse h 27 .badArgument s := by
  have bad : verifyRangeOk first (lastOrEnd last) = false :=
    Bool.eq_false_iff.2 (mt (verifyRangeOk_iff low).1 (Nat.not_le.2 backwards))
  rw [verify, finOf_val, blockOf_of_le low, verifyLast_of_le high]
  exact if_pos bad

theorem verify_badArgument {index first last : Nat}
    (bad : 63 < index ∨ 4294967294 < first ∨ 4294967295 < last ∨ last < first) :
    verify h index first last s = refuse h 27 .badArgument s := by
  by_cases outside : 63 < index ∨ 4294967294 < first ∨ 4294967295 < last
  · exact verify_unread (outside.imp finOf_none (Or.imp blockOf_none verifyLast_none))
  · exact verify_backwards (i := ⟨index, by omega⟩) (by omega) (by omega) (by omega)

section
variable {first last : Nat} (low : first ≤ 4294967294) (high : last ≤ 4294967295) (range : first ≤ last)
include low high range

theorem verify_notFound (empty : s.cdr.records[i] = none) : verify h i first last s = refuse h 27 .notFound s := by
  rw [verify, finOf_val, blockOf_of_le low, verifyLast_of_le high]
  dsimp only
  rw [(verifyRangeOk_iff low).2 range, recordAt, empty]
  rfl

variable {c : Cart} (record : s.cdr.records[i] = some c)
include record

/-- Behind the checks of its operands and of its record the request meets those of the engine (R144). -/
theorem verify_checked : verify h i first last s =
    if suspendedOn i s = true then refuse h 27 .badState s
    else if 8 ≤ s.vfy.queue.length then refuse h 27 .noRoom s
    else answer h 27 .ok (.count (s.vfy.queue.length + 1)) (joinVerify (frameRequest h i c first last) s) := by
  rw [verify, finOf_val, blockOf_of_le low, verifyLast_of_le high]
  dsimp only
  rw [(verifyRangeOk_iff low).2 range, recordAt, record]
  rfl

end

/-! ## VERIFY_SUSPEND (R153, R155) -/

/-- A RUNNING pass that is suspended gives up its lane by the stage of its block (R153). -/
theorem suspendPass_running {cause : SuspendCause} (runs : s.vfy.contexts[n].state = .running) : suspendPass n cause s =
    let w := suspended n cause s
    let dropped := modCtx n (fun c => { c with stage := .none, inHand := none }) w
    if s.vfy.contexts[n].stage = .pages then releaseLane n (withdrawRead (.verify n) dropped)
    else if s.vfy.contexts[n].stage = .read ∧ s.lanes[n].command = none then
      releaseLane n (freeRead 16 (modCtx n (fun c => { c with pages := false }) dropped))
    else releaseLane n w := by
  dsimp only
  split
  · next stage => exact suspendPass_pages runs stage
  · next pages =>
    split
    · next free => exact suspendPass_read runs free.1 free.2
    · next flies =>
      refine suspendPass_keeps runs ?_
      cases stage : s.vfy.contexts[n].stage with
      | none => exact .inl rfl
      | pages => exact absurd stage pages
      | read => exact .inr (.inr ⟨rfl, fun free => flies ⟨stage, free⟩⟩)
      | check => exact .inr (.inl rfl)

theorem verifySuspend_badArgument (subject : 3 < h.subject) : verifySuspend h s = refuse h 28 .badArgument s := by
  rw [verifySuspend, finOf_none subject]

section
variable (subject : h.subject = n)
include subject

theorem verifySuspend_badState (halted : s.vfy.contexts[n].state ≠ .running) :
    verifySuspend h s = answer h 28 .badState (.verify s.vfy.contexts[n]) s := by
  rw [verifySuspend, subject, finOf_val]
  exact if_neg halted

theorem verifySuspend_ok (runs : s.vfy.contexts[n].state = .running) : verifySuspend h s =
    answer h 28 .ok (.verify (suspendPass n .server s).vfy.contexts[n]) (suspendPass n .server s) := by
  have suspends : serverSuspend n s = suspendPass n .server s := if_pos runs
  rw [verifySuspend, subject, finOf_val, ← suspends]
  exact if_pos runs

end

/-! ## VERIFY_RESUME and the automatic resume (R73, R154, R155) -/

/-- The lane grants a verify claim: a READ lane in READY, a WRITE lane in READY or HOLD with nothing to write, and no claim
pending on either (R73). -/
def Grants (n : LaneId) (s : State) : Prop := s.lanes[n].claim = .none ∧
  ((s.lanes[n].role = .read ∧ s.lanes[n].state = .ready) ∨
    ((∃ p, s.lanes[n].role = .write p) ∧ (s.lanes[n].state = .ready ∨ s.lanes[n].state = .hold) ∧
      s.asm[n].sealedQueue = []))

theorem verifyGrants_iff (n : LaneId) (s : State) : verifyGrants n s = true ↔ Grants n s := by
  rw [verifyGrants, Grants, Bool.and_eq_true, decide_eq_true_iff]
  refine and_congr_right' ?_
  cases s.lanes[n].role <;> simp

/-- The context of a pass whose claim the lane has granted is RUNNING without a cause (R154). -/
def resumed (n : LaneId) (s : State) : State :=
  modCtx n (fun c => { c with state := .running, cause := none }) (grantVerify n s)

@[simp] theorem grantVerify_vfy (n : LaneId) (s : State) : (grantVerify n s).vfy = s.vfy := by simp [grantVerify_eq]

theorem resumed_stage (n : LaneId) (s : State) :
    (resumed n s).vfy.contexts[n].stage = s.vfy.contexts[n].stage := by
  rw [resumed, modCtx_vfy, upd_same, grantVerify_vfy]

theorem resumePass_advances (free : s.vfy.contexts[n].stage = .none) : resumePass n s = passAdvance n (resumed n s) :=
  if_pos ((resumed_stage n s).trans free)

theorem resumePass_inHand (held : s.vfy.contexts[n].stage ≠ .none) : resumePass n s = resumed n s :=
  if_neg fun free => held ((resumed_stage n s).symm.trans free)

/-- The context claims its lane again by itself (R154). -/
def ClaimsAgain (n : LaneId) (s : State) : Prop := s.vfy.contexts[n].state = .suspended ∧
  (s.vfy.contexts[n].cause = some .restore ∨ s.vfy.contexts[n].cause = some .write) ∧ Grants n s

theorem claimsAgain_iff (n : LaneId) (s : State) : ClaimsAgain n s ↔ s.vfy.contexts[n].state = .suspended ∧
    (s.vfy.contexts[n].cause = some .restore ∨ s.vfy.contexts[n].cause = some .write) ∧ verifyGrants n s = true := by
  rw [verifyGrants_iff, ClaimsAgain]

theorem autoResume_claims (again : ClaimsAgain n s) : autoResume n s = resumePass n s :=
  if_pos ((claimsAgain_iff n s).1 again)

theorem autoResume_stays (other : ¬ ClaimsAgain n s) : autoResume n s = s := if_neg (mt (claimsAgain_iff n s).2 other)

theorem verifyResume_badArgument (subject : 3 < h.subject) : verifyResume h s = refuse h 29 .badArgument s := by
  rw [verifyResume, finOf_none subject]

section
variable (subject : h.subject = n)
include subject

theorem verifyResume_ok (halted : s.vfy.contexts[n].state = .suspended) (grants : Grants n s) : verifyResume h s =
    answer h 29 .ok (.verify (resumePass n s).vfy.contexts[n]) (resumePass n s) := by
  have both := And.intro halted ((verifyGrants_iff n s).2 grants)
  have resumes : serverResume n s = resumePass n s := if_pos both
  rw [verifyResume, subject, finOf_val, ← resumes]
  exact if_pos both

theorem verifyResume_refused (refused : ¬ (s.vfy.contexts[n].state = .suspended ∧ Grants n s)) : verifyResume h s =
    answer h 29 (resumeRefusal n s) (.verify s.vfy.contexts[n]) s := by
  rw [verifyResume, subject, finOf_val]
  exact if_neg (mt (And.imp_right (verifyGrants_iff n s).1) refused)

end

theorem resumeRefusal_other (other : s.vfy.contexts[n].state ≠ .suspended) : resumeRefusal n s = .badState := if_pos other

section
variable (halted : s.vfy.contexts[n].state = .suspended)
include halted

theorem resumeRefusal_busy
    (busy : s.lanes[n].command ≠ none ∨ s.lanes[n].state = .ready ∨ s.lanes[n].state = .hold) :
    resumeRefusal n s = .busy := by
  rw [resumeRefusal, if_neg (not_not.2 halted)]
  split
  · rfl
  · next free => exact if_pos (busy.resolve_left fun flies => free (Option.isSome_iff_ne_none.2 flies))

theorem resumeRefusal_away (free : s.lanes[n].command = none) (ready : s.lanes[n].state ≠ .ready)
    (hold : s.lanes[n].state ≠ .hold) : resumeRefusal n s = .badState := by
  rw [resumeRefusal, if_neg (not_not.2 halted), if_neg (by rw [free]; decide)]
  exact if_neg (not_or.2 ⟨ready, hold⟩)

end

/-! ## VERIFY_CANCEL (R156, R157) -/

section
variable {scope value : Nat}

theorem cancelScopeOf_none (bad : (scope = 0 ∧ 3 < value) ∨ (scope = 1 ∧ 63 < value) ∨ 2 < scope) :
    cancelScopeOf scope value = none := by
  obtain ⟨rfl, beyond⟩ | ⟨rfl, beyond⟩ | beyond := bad
  · rw [cancelScopeOf, if_pos rfl, finOf_none beyond]
    rfl
  · rw [cancelScopeOf, if_neg (by decide), if_pos rfl, finOf_none beyond]
    rfl
  · rw [cancelScopeOf, if_neg (by omega), if_neg (by omega), if_neg (by omega)]

/-- A queued request on cartridge `i` lies within the scope (R156). -/
def scopeAsks (scope value : Nat) (i : CartId) : Bool := decide (scope = 2 ∨ (scope = 1 ∧ value = i.val))

/-- A pass on cartridge `i` and lane `n` lies within the scope (R156). -/
def scopeEnds (scope value : Nat) (n : LaneId) (i : CartId) : Bool :=
  decide (scope = 2 ∨ (scope = 1 ∧ value = i.val) ∨ (scope = 0 ∧ value = n.val))

/-- The scope that a request within the ranges names, and what lies within it (R156, R192). -/
theorem cancelScopeOf_some (good : (scope = 0 ∧ value ≤ 3) ∨ (scope = 1 ∧ value ≤ 63) ∨ scope = 2) :
    ∃ k, cancelScopeOf scope value = some k ∧ (∀ r, k.request r = scopeAsks scope value r.cart) ∧
      ∀ n c, k.pass n c = scopeEnds scope value n c.cart := by
  obtain ⟨rfl, bound⟩ | ⟨rfl, bound⟩ | rfl := good
  · refine ⟨.lane ⟨value, by omega⟩, ?_, fun r => rfl, fun n c => ?_⟩
    · rw [cancelScopeOf, if_pos rfl, finOf_of_lt]
      rfl
    · simp [CancelScope.pass, scopeEnds, Fin.ext_iff]
  · refine ⟨.cart ⟨value, by omega⟩, ?_, fun r => ?_, fun n c => ?_⟩
    · rw [cancelScopeOf, if_neg (by decide), if_pos rfl, finOf_of_lt]
      rfl
    · simp [CancelScope.request, scopeAsks, Fin.ext_iff, eq_comm]
    · simp [CancelScope.pass, scopeEnds, Fin.ext_iff, eq_comm]
  · exact ⟨.all, rfl, fun r => by simp [CancelScope.request, scopeAsks],
      fun n c => by simp [CancelScope.pass, scopeEnds]⟩

theorem verifyCancel_badArgument (bad : (scope = 0 ∧ 3 < value) ∨ (scope = 1 ∧ 63 < value) ∨ 2 < scope) :
    verifyCancel h scope value s = refuse h 30 .badArgument s := by
  rw [verifyCancel, cancelScopeOf_none bad]

/-- What a VERIFY_CANCEL within its ranges ends, and in which order: the reply, the queued requests, the passes (R156). -/
theorem verifyCancel_ends (good : (scope = 0 ∧ value ≤ 3) ∨ (scope = 1 ∧ value ≤ 63) ∨ scope = 2) :
    verifyCancel h scope value s =
      let asked := fun r : VerifyRequest => scopeAsks scope value r.cart
      let queued := s.vfy.queue.filter asked
      let passes := allLanes.filter fun n => decide (s.vfy.contexts[n].state ≠ .idle) &&
        scopeEnds scope value n s.vfy.contexts[n].cart
      post .verifyStart (forEach passes cancelPass (forEach queued (fun r => requestNotice r .cancelled)
        (modVfy (fun v => { v with queue := v.queue.filter fun r => !asked r })
          (answer h 30 .ok (.count (queued.length + passes.length)) s)))) := by
  obtain ⟨k, named, asks, ends⟩ := cancelScopeOf_some good
  have asked : k.request = fun r => scopeAsks scope value r.cart := funext asks
  rw [verifyCancel, named]
  simp only [asked, cancelledPasses, ends]

end

end Sys2Proof.Machine

namespace Sys2Proof.Proofs

open Sys2Proof Sys2Proof.Machine

/-- Settles O48: VERIFY by its operands, the record, the suspended passes and the queue's room. -/
theorem verifyIsQueued : Obligations.VerifyIsQueued := by
  intro h index first last s credit u done
  refine ⟨fun bad => exec_taken credit rfl (verify_badArgument bad), ?_⟩
  rintro i rfl low high range
  refine ⟨fun empty => exec_taken credit rfl (verify_notFound low high range empty), fun c record => ?_⟩
  intro held
  have checked := verify_checked (h := h) low high range record
  have halted : suspendedOn i u = true ↔ held := suspendedOn_iff i u
  refine ⟨fun on => ?_, fun off full => ?_, fun off room => ?_⟩
  · exact exec_taken credit rfl (checked.trans (if_pos (halted.2 on)))
  · exact exec_taken credit rfl (checked.trans ((if_neg (mt halted.1 off)).trans (if_pos full)))
  · exact exec_taken credit rfl (checked.trans ((if_neg (mt halted.1 off)).trans (if_neg (Nat.not_le.2 room))))

/-- Settles O49: VERIFY_SUSPEND and VERIFY_RESUME by the pass's state and the lane's grant, the resume by the block in hand,
VERIFY_CANCEL by its scope. -/
theorem verifySuspendResumeCancel : Obligations.VerifySuspendResumeCancel := by
  refine ⟨fun h n s => ⟨fun credit => ?requests, ?again, resumePass_advances, resumePass_inHand⟩,
    fun h scope value s credit => ?cancel⟩
  case requests =>
    intro u c suspendIs resumeIs refusedWith
    have suspends {t} : verifySuspend h u = t → suspendIs t := exec_taken (c := .verifySuspend h) credit rfl
    have resumes {t} : verifyResume h u = t → resumeIs t := exec_taken (c := .verifyResume h) credit rfl
    refine ⟨fun beyond => ⟨suspends (verifySuspend_badArgument beyond), resumes (verifyResume_badArgument beyond)⟩,
      fun subject => ⟨fun halted => suspends (verifySuspend_badState subject halted), fun runs => ?_,
        fun halted grants => resumes (verifyResume_ok subject halted grants), fun other => ?_,
        fun halted denied => ⟨fun busy => ?_, fun free ready hold => ?_⟩⟩⟩
    · intro w dropped v
      have given : suspendPass n .server u = v := suspendPass_running runs
      exact suspends (given ▸ verifySuspend_ok subject runs)
    · have refused := verifyResume_refused (s := u) subject (fun both => other both.1)
      exact resumes (refused.trans (by rw [resumeRefusal_other other]))
    · have refused := verifyResume_refused (s := u) subject (fun both => denied both.2)
      exact resumes (refused.trans (by rw [resumeRefusal_busy halted busy]))
    · have refused := verifyResume_refused (s := u) subject (fun both => denied both.2)
      exact resumes (refused.trans (by rw [resumeRefusal_away halted free ready hold]))
  case again =>
    intro u c again
    exact ⟨fun on => commanded_congr (autoResume_claims on), fun off => commanded_congr (autoResume_stays off)⟩
  case cancel =>
    intro u done
    have cancels {t} : verifyCancel h scope value u = t → done t :=
      exec_taken (c := .verifyCancel h scope value) credit rfl
    refine ⟨fun bad => cancels (verifyCancel_badArgument bad), fun good => ?_⟩
    intro asked under queued passes v
    have within : (allLanes.filter fun n => decide (u.vfy.contexts[n].state ≠ .idle) &&
        scopeEnds scope value n u.vfy.contexts[n].cart) = passes :=
      List.filter_congr fun n _ => (Bool.decide_and _ _).symm
    refine cancels ((verifyCancel_ends good).trans ?_)
    dsimp only
    rw [within]
    rfl

end Sys2Proof.Proofs
end

section
/-! PROOFS. Restore segments: the block read, its wanted records one at a time, the segments they give, and how the restore
goes on behind them (R31, R44, R165, R166). -/

namespace Sys2Proof.Machine

variable {s : State} {c : RestoreContext}

/-! ## The context changed -/

@[simp] theorem modActive_withActive (f : RestoreContext → RestoreContext) :
    modActive f (withActive c s) = withActive (f c) s := rfl

/-! ## A stretch sent DAMAGED (R163, R165, R166) -/

/-- The segment of the next wanted sequence, DAMAGED (R165). -/
def damagedNext (cause : SegmentCause) (c : RestoreContext) : Segment :=
  { tag := c.tag, stream := c.stream, seq := c.next, cause := cause, bytes := [] }

/-- The context that sends the next sequence of a damaged stretch. -/
def sendsDamaged (cause : SegmentCause) (c : RestoreContext) : RestoreContext :=
  { c with state := .sending, segment := some (damagedNext cause c) }

/-- The context that begins a damaged stretch. -/
def beginsDamage (upTo : Nat) (cause : SegmentCause) (after : AfterDamage) (c : RestoreContext) : RestoreContext :=
  sendsDamaged cause { c with damage := some { upTo := upTo, cause := cause, after := after } }

section
variable (hc : s.rse.active = some c)
include hc

theorem sendDamaged_eq (cause : SegmentCause) : sendDamaged cause s = withActive (sendsDamaged cause c) s :=
  modActive_active hc _

theorem startDamage_eq (upTo : Nat) (cause : SegmentCause) (after : AfterDamage) :
    startDamage upTo cause after s = withActive (beginsDamage upTo cause after c) s := by
  rw [startDamage, modActive_active hc, sendDamaged_eq rfl]
  rfl

/-! ## A block's pages (R44; log entry 41) -/

/-- The pages of the block in hand freed, if the context still holds them. -/
def pagesFreed (c : RestoreContext) (s : State) : State := if c.pages = true then freeRead 16 s else s

theorem withActive_same : withActive c s = s := by rw [withActive, ← hc]

theorem freeBlock_eq : freeBlock s = withActive { c with pages := false } (pagesFreed c s) := by
  rw [freeBlock, hc, pagesFreed]
  dsimp only
  split
  · rw [modActive_active hc]
    rfl
  · next freed =>
    have same : { c with pages := false } = c := by rw [← Bool.eq_false_of_not_eq_true freed]
    rw [same, withActive_same hc]

/-- The context that has left its block. -/
def leavesBlock (c : RestoreContext) : RestoreContext := { c with stage := .start, pages := false }

theorem freeBlock_left : freeBlock (modActive (fun c => { c with stage := .start }) s) =
    withActive (leavesBlock c) (pagesFreed c s) := by
  rw [modActive_active hc, freeBlock_eq rfl, pagesFreed, pagesFreed]
  dsimp only
  split <;> rfl

/-! ## The block's end (R166) -/

omit hc in
theorem nextBlock_of_block {b : Nat} (block : c.block = some b) : nextBlock c = { c with block := some (b + 1) } := by
  rw [nextBlock, block]
  rfl

theorem blockEnd_catalog {k : Nat} (catalog : c.start = none) (runEnd : c.runEnd = some k) : blockEnd s =
    let v := withActive (leavesBlock c) (pagesFreed c s)
    if c.next ≤ k then withActive (beginsDamage k .block .find (leavesBlock c)) v else afterBlock v := by
  rw [blockEnd, hc]
  dsimp only
  rw [catalog, runEnd, freeBlock_left hc]
  dsimp only
  rw [startDamage_eq rfl]

theorem blockEnd_explicit {b : Nat} (explicit : c.start ≠ none) (block : c.block = some b) : blockEnd s =
    afterBlock (withActive { leavesBlock c with block := some (b + 1) } (pagesFreed c s)) := by
  obtain ⟨st, start⟩ := Option.ne_none_iff_exists'.1 explicit
  rw [blockEnd, hc]
  dsimp only
  rw [start, freeBlock_left hc]
  dsimp only
  rw [modActive_withActive, nextBlock_of_block (show (leavesBlock c).block = some b from block)]

theorem afterBlock_complete (beyond : c.last < c.next) : afterBlock s = completeRestore s := by
  rw [afterBlock, hc]
  exact if_pos beyond

theorem afterBlock_finds (within : c.next ≤ c.last) :
    afterBlock s = findNext (withActive { c with state := .finding, stage := .start } s) := by
  rw [afterBlock, hc]
  dsimp only
  rw [if_neg (Nat.not_lt.2 within), modActive_active hc]

/-! ## The block read (R165, R166) -/

/-- The context that has `rs` of its block before it. -/
def walks (rs : List WalkedRecord) (c : RestoreContext) : RestoreContext := { c with stage := .records, todo := rs }

section
variable {read : Option (List Byte)} {label : List Byte} {b : Nat}
variable (cart : c.cart.map Prod.snd = some label) (block : c.block = some b)
include cart block

section
variable {e : BadBlock} (bad : testBlock read label b = .error e) (pages : c.pages = true)
include bad pages

theorem restoreBlock_bad : restoreBlock read s =
    let v := withActive (leavesBlock c) (freeRead 16 s)
    if c.start = none then startDamage (c.runEnd.getD c.next) .block .find v else afterBlock (modActive nextBlock v) := by
  rw [restoreBlock, hc]
  dsimp only
  rw [cart, block, Option.getD_some, Option.getD_some, bad]
  dsimp only
  rw [freeBlock_left hc, pagesFreed, if_pos pages]

theorem restoreBlock_sends {k : Nat} (catalog : c.start = none) (runEnd : c.runEnd = some k) : restoreBlock read s =
    freeRead 16 (withActive (beginsDamage k .block .find (leavesBlock c)) s) := by
  rw [restoreBlock_bad hc cart block bad pages]
  dsimp only
  rw [if_pos catalog, runEnd, startDamage_eq rfl]
  rfl

theorem restoreBlock_passes (explicit : c.start ≠ none) : restoreBlock read s =
    afterBlock (freeRead 16 (withActive { leavesBlock c with block := some (b + 1) } s)) := by
  rw [restoreBlock_bad hc cart block bad pages]
  dsimp only
  rw [if_neg explicit, modActive_withActive, nextBlock_of_block (show (leavesBlock c).block = some b from block)]
  rfl

end

theorem restoreBlock_good {rs : List WalkedRecord} (good : testBlock read label b = .ok rs) :
    restoreBlock read s = restoreRecords (withActive (walks (wantedRecords c rs) c) s) := by
  rw [restoreBlock, hc]
  dsimp only
  rw [cart, block, Option.getD_some, Option.getD_some, good]
  exact congrArg restoreRecords (modActive_active hc _)

end

omit hc in
/-- The wanted records of a block reach to the last sequence, and in catalog mode to the run's end (R165). -/
theorem wantedRecords_eq {last : Nat} (reach : (c.start ≠ none ∧ last = c.last) ∨
      ∃ k, c.start = none ∧ c.runEnd = some k ∧ last = min c.last k) (rs : List WalkedRecord) :
    wantedRecords c rs = rs.filter fun r => decide (r.stream = c.stream.val ∧ c.next ≤ r.seq ∧ r.seq ≤ last) := by
  have upTo : (if c.start.isSome = true then c.last else min c.last (c.runEnd.getD c.last)) = last := by
    obtain ⟨explicit, rfl⟩ | ⟨k, catalog, runEnd, rfl⟩ := reach
    · exact if_pos (Option.isSome_iff_ne_none.2 explicit)
    · rw [catalog, runEnd]
      rfl
  rw [wantedRecords, upTo]
  exact List.filter_congr fun r _ => by rw [Bool.decide_and, Bool.decide_and, Bool.and_assoc]

/-! ## The next wanted record (R31, R165; log entry 16) -/

/-- The context that turns to its next wanted record. -/
def turns (c : RestoreContext) : RestoreContext := { c with stage := .output }

/-- The context `d` asks for its output page: it is granted at once with room and no one waiting, and else waited for
(R43). -/
def asksOutput (d : RestoreContext) (s : State) : State :=
  if s.pool.waiting = [] ∧ readFits 1 s = true then restoreOffer (takeRead 1 (withActive d s))
  else waitRead .restore 1 (withActive d s)

omit hc in
theorem asksOutput_granted (d : RestoreContext)
    (room : s.pool.waiting = [] ∧ s.pool.held.read + 1 ≤ s.pool.quotas.read) :
    asksOutput d s = restoreOffer (takeRead 1 (withActive d s)) :=
  if_pos (room.imp_right (readFits_iff 1 s).2)

omit hc in
theorem asksOutput_waits (d : RestoreContext)
    (full : ¬ (s.pool.waiting = [] ∧ s.pool.held.read + 1 ≤ s.pool.quotas.read)) :
    asksOutput d s = waitRead .restore 1 (withActive d s) :=
  if_neg fun room => full (room.imp_right (readFits_iff 1 s).1)

theorem restoreRecords_none (todo : c.todo = []) : restoreRecords s = blockEnd s := by
  rw [restoreRecords, hc]
  dsimp only
  rw [todo]

/-- The context that has been granted its output page. -/
def holdsOutput (c : RestoreContext) : RestoreContext := { c with outputPage := true }

/-- The context whose next wanted record is with the expander, `rest` being left. -/
def expands (rest : List WalkedRecord) (c : RestoreContext) : RestoreContext :=
  { holdsOutput c with stage := .expand, todo := rest }

/-- The context that in explicit mode counts the sequences before `seq` as not found. -/
def skipsTo (seq : Nat) (c : RestoreContext) : RestoreContext :=
  { c with stage := .output, notFound := c.notFound + (seq - c.next), missedAny := true, next := seq }

section
variable {r : WalkedRecord} {rest : List WalkedRecord} (todo : c.todo = r :: rest)
include todo

theorem restoreRecords_skips (explicit : c.start ≠ none) (gap : c.next < r.seq)
    (countable : c.notFound + (r.seq - c.next) ≤ 4294967295) : restoreRecords s = asksOutput (skipsTo r.seq c) s := by
  have counted : raised c.notFound (r.seq - c.next) s = (c.notFound + (r.seq - c.next), s) := if_pos countable
  have start := Option.isSome_iff_ne_none.2 explicit
  rw [restoreRecords, hc]
  dsimp only
  rw [todo]
  simp only [start, gap, decide_true, Bool.and_self, Bool.or_true, if_true, counted, Nat.max_eq_right gap.le,
    modActive_active hc]
  exact if_neg fun both => explicit both.1

theorem restoreRecords_gap (catalog : c.start = none) (gap : c.next < r.seq) : restoreRecords s =
    withActive (beginsDamage (r.seq - 1) .block .records (turns c)) s := by
  rw [restoreRecords, hc]
  dsimp only
  rw [todo]
  simp only [catalog, gap, Option.isSome_none, Bool.false_and, Bool.or_false, Bool.false_eq_true, if_false, and_self,
    if_true, modActive_active hc]
  rw [startDamage_eq rfl, ← catalog]
  rfl

theorem restoreRecords_next (noGap : r.seq ≤ c.next) : restoreRecords s = asksOutput (turns c) s := by
  have here : ¬ c.next < r.seq := Nat.not_lt.2 noGap
  rw [restoreRecords, hc]
  dsimp only
  rw [todo]
  simp only [here, decide_false, Bool.and_false, Bool.or_false, Bool.false_eq_true, if_false, and_false,
    Nat.max_eq_left noGap, ite_self, modActive_active hc]
  rfl

theorem restoreOffer_eq : restoreOffer s =
    if clientBusy .restore s = true then withActive (holdsOutput c) s
    else offerRecord .restore r (withActive (expands rest c) s) := by
  rw [restoreOffer, hc]
  dsimp only
  rw [todo]
  simp only [modActive_active hc]
  rfl

end

/-! ## The outcome of an expansion (R36, R44, R165) -/

/-- The context whose record's outcome has become a segment. -/
def carries (w : WalkedRecord) (cause : SegmentCause) (bytes : List Byte) (c : RestoreContext) : RestoreContext :=
  { c with
    state := .sending
    stage := .records
    segment := some { tag := c.tag, stream := c.stream, seq := w.seq, cause := cause, bytes := bytes } }

/-- What an outcome makes of the context `c`: a GOOD segment, or a DAMAGED one, for which the output page is freed. -/
def outcomeOf (w : WalkedRecord) (c : RestoreContext) (s : State) : Expanded → State
  | .good bytes => withActive (carries w .none bytes c) s
  | _ => freeRead 1 (withActive { carries w .record [] c with outputPage := false } s)

/-- While wanted records are left the block's pages stay. -/
theorem restoreOutcome_more (w : WalkedRecord) (o : Expanded) (more : c.todo ≠ []) :
    restoreOutcome w o s = outcomeOf w c s o := by
  unfold restoreOutcome
  rw [hc, Option.map_some, if_neg (mt Option.some.inj more)]
  cases o with
  | good bytes => exact modActive_active hc _
  | _ => exact congrArg (freeRead 1) (modActive_active hc _)

/-- The outcome of the last wanted record frees the block's pages. -/
theorem restoreOutcome_last (w : WalkedRecord) (o : Expanded) (last : c.todo = []) (pages : c.pages = true) :
    restoreOutcome w o s = outcomeOf w { c with pages := false } (freeRead 16 s) o := by
  unfold restoreOutcome
  rw [hc, Option.map_some, if_pos (by rw [last]), freeBlock_eq hc, pagesFreed, if_pos pages]
  cases o <;> rfl

/-! ## A segment taken (R44, R165, R187) -/

/-- The context behind a segment taken. -/
def counts (g : Segment) (c : RestoreContext) : RestoreContext :=
  { c with
    good := if g.cause = .none then c.good + 1 else c.good
    damaged := if g.cause = .none then c.damaged else c.damaged + 1
    next := g.seq + 1
    segment := none
    state := .reading
    sentAny := true
    missedAny := c.missedAny || decide (g.cause ≠ .none) }

theorem segmentTaken_eq (g : Segment) (good : c.good < 4294967295) (damaged : c.damaged < 4294967295) :
    segmentTaken g s = restoreGo (withActive { counts g c with outputPage := false }
      (if c.outputPage = true then freeRead 1 s else s)) := by
  have page : (if c.outputPage = true then freeRead 1 (modActive (fun c => { c with outputPage := false }) s) else s) =
      withActive { c with outputPage := false } (if c.outputPage = true then freeRead 1 s else s) := by
    split
    · rw [modActive_active hc]
      rfl
    · next off =>
      have same : { c with outputPage := false } = c := by rw [← Bool.eq_false_of_not_eq_true off]
      rw [same, withActive_same hc]
  rw [segmentTaken, hc]
  dsimp only
  rw [page]
  by_cases isGood : g.cause = .none
  · simp only [isGood, if_true, raised_of_lt good, modActive_withActive, counts]
  · simp only [isGood, if_false, raised_of_lt damaged, modActive_withActive, counts]

/-! ## The restore goes on (R165, R166) -/

section
variable (reading : c.state = .reading)
include reading

/-- The context behind a damaged stretch. -/
def undamaged (c : RestoreContext) : RestoreContext := { c with damage := none }

section
variable {d : Damage} (damage : c.damage = some d)
include damage

theorem restoreGo_damaged (left : c.next ≤ d.upTo) : restoreGo s =
    withActive (beginsDamage d.upTo d.cause d.after c) s := by
  have begun : { c with damage := some d } = c := by rw [← damage]
  rw [restoreGo, hc]
  dsimp only
  rw [reading, damage]
  dsimp only
  rw [if_pos left, sendDamaged_eq hc, ← congrArg (sendsDamaged d.cause) begun]
  rfl

theorem restoreGo_damageDone (done : d.upTo < c.next) : restoreGo s =
    if d.after = .find then afterBlock (withActive (undamaged c) s)
    else restoreRecords (withActive (undamaged c) s) := by
  rw [restoreGo, hc]
  dsimp only
  rw [reading, damage]
  dsimp only
  rw [if_neg (Nat.not_le.2 done), modActive_active hc]
  cases d.after <;> rfl

end

theorem restoreGo_undamaged (whole : c.damage = none) :
    restoreGo s = if c.stage = .records then restoreRecords s else s := by
  rw [restoreGo, hc]
  dsimp only
  rw [reading, whole]

end

end

end Sys2Proof.Machine

namespace Sys2Proof.Proofs

open Sys2Proof Sys2Proof.Machine

/-- Settles O54: the block by its tests, the wanted record by its sequence and the room for its output page, the segment by
the outcome, and the way on by the stretch still to be sent DAMAGED, the run's end and the last sequence. -/
theorem restoreSegments : Obligations.RestoreSegments := by
  intro c s hc withCtx pageRoom take free damaged emptied
  refine ⟨startDamage_eq hc, fun read label b cart block => ⟨fun e bad => ?bad, fun rs last good reach => ?good⟩,
    fun r rest todo => ⟨fun explicit gap few => ?skipped, restoreRecords_gap hc todo, fun noGap => ?next, ?offered⟩,
    fun todo => ⟨restoreRecords_none hc todo, fun k catalog runEnd => ?catalogEnd, fun b => blockEnd_explicit hc⟩,
    fun w bytes o => ⟨restoreOutcome_more hc w _, restoreOutcome_last hc w _, fun bad => ?outcome⟩,
    fun g good damaged => ?taken,
    fun reading => ⟨fun d damage => ?stretch, fun whole stage => ?records, fun whole stage => ?rests⟩,
    afterBlock_complete hc, afterBlock_finds hc⟩
  case bad =>
    exact ⟨fun k catalog runEnd pages => restoreBlock_sends hc cart block bad pages catalog runEnd,
      fun explicit pages => restoreBlock_passes hc cart block bad pages explicit⟩
  case good =>
    rw [restoreBlock_good hc cart block good, wantedRecords_eq reach]
    rfl
  case skipped =>
    have asks := restoreRecords_skips hc todo explicit gap few
    exact ⟨fun room => asks.trans (asksOutput_granted _ room), fun full => asks.trans (asksOutput_waits _ full)⟩
  case next =>
    have asks := restoreRecords_next hc todo noGap
    exact ⟨fun room => asks.trans (asksOutput_granted _ room), fun full => asks.trans (asksOutput_waits _ full)⟩
  case offered =>
    have offers := restoreOffer_eq hc todo
    have busy := clientBusy_iff .restore s
    exact ⟨fun held => offers.trans (if_pos (busy.2 held)), fun free => offers.trans (if_neg (mt busy.1 free))⟩
  case catalogEnd =>
    have ends := blockEnd_catalog hc catalog runEnd
    exact ⟨fun left => ends.trans (if_pos left), fun done => ends.trans (if_neg (Nat.not_le.2 done))⟩
  case outcome =>
    obtain rfl | rfl := bad
    · exact ⟨restoreOutcome_more hc w _, restoreOutcome_last hc w _⟩
    · exact ⟨restoreOutcome_more hc w _, restoreOutcome_last hc w _⟩
  case taken =>
    have goes := segmentTaken_eq hc g good damaged
    refine ⟨fun held => goes.trans (by rw [if_pos held]; rfl), fun off => goes.trans ?_⟩
    rw [if_neg (by rw [off]; decide), ← off]
    rfl
  case stretch =>
    have done := restoreGo_damageDone hc reading damage
    exact ⟨restoreGo_damaged hc reading damage, fun past find => (done past).trans (if_pos find),
      fun past records => (done past).trans (if_neg (by rw [records]; decide))⟩
  case records => exact (restoreGo_undamaged hc reading whole).trans (if_pos stage)
  case rests => exact (restoreGo_undamaged hc reading whole).trans (if_neg stage)

end Sys2Proof.Proofs
end

section
/-! PROOFS. Restore requests: RESTORE and RESTORE_CANCEL, activation, what a restore gives up with its block, and how it ends
(R158, R160, R167 to R169). -/

namespace Sys2Proof.Machine

variable {h : Hdr} {s : State} {c : RestoreContext} {n : LaneId}

/-! ## RESTORE (R158) -/

theorem startOf_none {p : Nat × Nat} (bad : 63 < p.1 ∨ 4294967294 < p.2) : startOf (some p) = none := by
  rw [startOf]
  obtain far | far := bad
  · rw [finOf_none far]
  · rw [blockOf_none far]
    cases finOf 64 p.1 <;> rfl

theorem startOf_some (k : CartId) {b : Nat} (bound : b ≤ 4294967294) :
    startOf (some (k.val, b)) = some (some (k, b)) := by
  rw [startOf, finOf_val, blockOf_of_le bound]

section
variable {first last : Nat} {start : Option (Nat × Nat)}

/-- A request in which an operand has no meaning (R158). -/
theorem restore_badOperand (unread : finOf 32 h.subject = none ∨ startOf start = none) :
    restore h first last start s = refuse h 31 .badArgument s := by
  unfold restore
  split
  · next hi hs => simp [hi, hs] at unread
  · rfl

/-- A request whose sequences are out of their range is refused, whatever its other operands (R158). -/
theorem restore_range (bad : 4294967295 < last ∨ last < first) :
    restore h first last start s = refuse h 31 .badArgument s := by
  unfold restore
  split
  · exact if_pos bad
  · rfl

/-- The request joins the tail of the restore queue, or is refused for want of room (R158; log entry 46). -/
def joinRestore (h : Hdr) (i : StreamId) (first last : Nat) (st : Option RestoreStart) (s : State) : State :=
  if 16 ≤ s.rse.queue.length then refuse h 31 .noRoom s
  else answer h 31 .ok (.count (s.rse.queue.length + 1)) (post .restoreActivate (modRse (fun x => { x with
    queue := x.queue ++ [{ tag := h.tag, stream := i, first := first, last := last, start := st }] }) s))

/-- Behind the checks of its operands the request meets those of its cartridge and of the queue (R158). -/
theorem restore_checked {i : StreamId} {st : Option (CartId × Nat)} (subject : h.subject = i)
    (range : first ≤ last) (high : last ≤ 4294967295) (read : startOf start = some st) :
    restore h first last start s =
      (startRecord st s).elim (refuse h 31 .notFound s) fun r => joinRestore h i first last r s := by
  rw [restore, subject, finOf_val, read]
  dsimp only
  rw [if_neg (show ¬ (max32 < last ∨ last < first) from not_or.2 ⟨Nat.not_lt.2 high, Nat.not_lt.2 range⟩)]
  cases startRecord st s <;> rfl

end

/-! ## RESTORE_CANCEL (R169) -/

section
variable {scope tag : Nat}

theorem restoreScopeOf_none (bad : 1 < scope) : restoreScopeOf scope tag = none := by
  rw [restoreScopeOf, if_neg (by omega), if_neg (by omega)]

/-- A restore with tag `t` lies within the scope (R169). -/
def cancels (scope tag t : Nat) : Bool := decide (scope = 1 ∨ t = tag)

/-- The scope that a request within its range names, and what lies within it (R169, R192; log entry 18). -/
theorem restoreScopeOf_some (good : scope ≤ 1) :
    ∃ k, restoreScopeOf scope tag = some k ∧ inScope k = cancels scope tag := by
  obtain rfl | rfl : scope = 0 ∨ scope = 1 := by omega
  · exact ⟨some tag, rfl, funext fun t => by simp [inScope, cancels, eq_comm]⟩
  · exact ⟨none, rfl, funext fun t => by simp [inScope, cancels]⟩

theorem activeInScope_eq (k : Option Nat) (s : State) :
    activeInScope k s = s.rse.active.any fun c => inScope k c.tag := by
  rw [activeInScope]
  cases s.rse.active <;> rfl

theorem restoreCancel_badArgument (bad : 1 < scope) : restoreCancel h scope tag s = refuse h 32 .badArgument s := by
  rw [restoreCancel, restoreScopeOf_none bad]

/-- The queued restores within the scope, oldest first. -/
def cancelledRestores (scope tag : Nat) (s : State) : List RestoreRequest :=
  s.rse.queue.filter fun r => cancels scope tag r.tag

/-- The reply to a RESTORE_CANCEL that ends `k` restores, and behind it the notices of the queued ones (R169; log entry
46). -/
def queueCancelled (h : Hdr) (scope tag k : Nat) (s : State) : State :=
  forEach (cancelledRestores scope tag s) queuedRestoreNotice
    (modRse (fun x => { x with queue := x.queue.filter fun r => !cancels scope tag r.tag })
      (answer h 32 .ok (.count k) s))

theorem restoreCancel_eq (good : scope ≤ 1) : restoreCancel h scope tag s =
    let active := s.rse.active.any fun c => cancels scope tag c.tag
    let v := queueCancelled h scope tag ((cancelledRestores scope tag s).length + if active = true then 1 else 0) s
    post .restoreActivate (if active = true then finishRestore .cancelled (giveUp true v) else v) := by
  obtain ⟨k, named, within⟩ := restoreScopeOf_some (tag := tag) good
  rw [restoreCancel, named]
  dsimp only
  rw [activeInScope_eq, within]
  rfl

theorem restoreCancel_queued (good : scope ≤ 1)
    (spared : ∀ c, s.rse.active = some c → cancels scope tag c.tag = false) :
    restoreCancel h scope tag s =
      post .restoreActivate (queueCancelled h scope tag (cancelledRestores scope tag s).length s) := by
  have none : (s.rse.active.any fun c => cancels scope tag c.tag) = false :=
    Option.any_eq_false _ _ |>.2 fun c hc => by rw [spared c hc]
  rw [restoreCancel_eq good, none]
  rfl

theorem restoreCancel_active (good : scope ≤ 1) (hc : s.rse.active = some c) (within : cancels scope tag c.tag = true) :
    restoreCancel h scope tag s = post .restoreActivate (finishRestore .cancelled (giveUp true
      (queueCancelled h scope tag ((cancelledRestores scope tag s).length + 1) s))) := by
  rw [restoreCancel_eq good, hc, Option.any_some, within]
  rfl

end

/-! ## Activation (R160) -/

theorem restoreActivate_stays (idle : s.rse.active ≠ none ∨ s.rse.queue = []) : restoreActivate s = s := by
  unfold restoreActivate
  split
  · next active queue => exact absurd idle (by simp [active, queue])
  · rfl

/-- The context of a restore that has just become active (R160). -/
def activated (r : RestoreRequest) : RestoreContext :=
  { tag := r.tag, stream := r.stream, first := r.first, last := r.last, start := r.start, state := .finding,
    next := r.first, cart := none, block := none, runEnd := none, lane := none, mountAsked := false, good := 0,
    damaged := 0, notFound := 0, laneFaults := 0, stage := .start, todo := [], damage := none, pages := false,
    outputPage := false, segment := none, sentAny := false, missedAny := false }

theorem restoreActivate_head {r : RestoreRequest} {rest : List RestoreRequest} (free : s.rse.active = none)
    (queue : s.rse.queue = r :: rest) :
    restoreActivate s = findNext { s with rse := { queue := rest, active := some (activated r) } } := by
  rw [restoreActivate, free, queue]
  rfl

/-! ## What the restore gives up with its block (R168) -/

/-- The read that the restore has asked of its lane is withdrawn. -/
def restoreUnread (c : RestoreContext) (s : State) : State :=
  c.lane.elim s fun n => if c.stage = .read ∧ servesRestore n s = true then modLane n unread s else s

/-- The restore's pages are let go: with its end at once, or as far as no record of it waits or is in expansion. -/
def restorePagesGone (ends : Bool) (k : Nat) (s : State) : State :=
  if ends = true then abandonPages .restore k s else surrenderPages .restore k s

section
variable (hc : s.rse.active = some c)
include hc

theorem giveUp_eq (ends : Bool) : giveUp ends s =
    { restorePagesGone ends c.pageCount (withdrawRead .restore (restoreUnread c s)) with
      rse := { s.rse with active := some (withoutBlock c) } } := by
  have gone : giveUp ends s =
      modActive withoutBlock (restorePagesGone ends c.pageCount (withdrawRead .restore (restoreUnread c s))) := by
    rw [giveUp, hc, restoreUnread]
    dsimp only
    cases c.lane with
    | none => cases ends <;> rfl
    | some n =>
      rw [Option.elim_some, ← withdrawLaneRead_eq]
      cases ends <;> rfl
  rw [← giveUp_rse ends hc, gone]
  rfl

end

/-! ## The end of the active restore (R167) -/

/-- The tests that a lane's report makes due, in their order (log entry 3). -/
theorem laneReport_eq (n : LaneId) (s : State) : laneReport n s =
    { s with due := s.due ++ [.restoreLane n, .verifyResume n, .ejectAsk n, .serveTest, .verifyStart] } := by
  simp [laneReport, post]

/-- What becomes of a lane that the restore leaves: released where it serves the restore, its claim withdrawn where one is
pending, and else as it is (R167). -/
theorem leaveLane_eq (n : LaneId) (s : State) : leaveLane n s =
    if servesRestore n s = true then releaseLane n s
    else if s.lanes[n].claim = .restore then
      { s with
        lanes := upd s.lanes n fun l => { l with claim := .none }
        due := s.due ++ [.restoreLane n, .verifyResume n, .ejectAsk n, .serveTest, .verifyStart] }
    else s := by
  rw [leaveLane, laneReport_eq]
  rfl

@[simp] theorem leaveLane_rse (n : LaneId) (s : State) : (leaveLane n s).rse = s.rse := by
  rw [leaveLane_eq]
  split
  · exact releaseLane_rse n s
  · split <;> rfl

/-- The lane of the context, if it has one, is left. -/
def restoreLeft (c : RestoreContext) (s : State) : State := c.lane.elim s fun n => leaveLane n s

theorem restoreLeft_rse (c : RestoreContext) (s : State) : (restoreLeft c s).rse = s.rse := by
  rw [restoreLeft]
  cases c.lane with
  | none => rfl
  | some n => exact leaveLane_rse n s

theorem finishRestore_eq (hc : s.rse.active = some c) (result : RestoreResult) : finishRestore result s =
    { restoreNotice c result (restoreLeft c s) with
      rse := { s.rse with active := none }
      due := (restoreNotice c result (restoreLeft c s)).due ++ [.restoreActivate] } := by
  have told : finishRestore result s = post .restoreActivate
      (modRse (fun x => { x with active := none }) (restoreNotice c result (restoreLeft c s))) := by
    rw [finishRestore, hc, restoreLeft]
    dsimp only
    cases c.lane <;> rfl
  rw [told, modRse, restoreNotice, offerNotice_rse, restoreLeft_rse]
  rfl

end Sys2Proof.Machine

namespace Sys2Proof.Proofs

open Sys2Proof Sys2Proof.Machine

/-- Settles O52: RESTORE by its operands, its cartridge and the queue's room, RESTORE_CANCEL by its scope and the active
restore, activation by the queue's head, and what a restore gives up and leaves by its lane. -/
theorem restoreRequests : Obligations.RestoreRequests := by
  refine ⟨fun h first last scope tag start s => ⟨fun credit => ?requests, ?activation⟩, fun ends result c s hc => ?ended⟩
  case requests =>
    intro u done cancelIs startBad
    have restores {t} : restore h first last start u = t → done t :=
      exec_taken (c := .restore h first last start) credit rfl
    have cancelled {t} : restoreCancel h scope tag u = t → cancelIs t :=
      exec_taken (c := .restoreCancel h scope tag) credit rfl
    refine ⟨fun bad => restores ?refused, fun i subject range high good => ?queued,
      fun bad => cancelled (restoreCancel_badArgument bad), fun good => ?cancel⟩
    case refused =>
      obtain far | range | range | ⟨p, rfl, bad⟩ := bad
      · exact restore_badOperand (.inl (finOf_none far))
      · exact restore_range (.inl range)
      · exact restore_range (.inr range)
      · exact restore_badOperand (.inr (startOf_none bad))
    case queued =>
      intro join
      have checked {st} (read : startOf start = some st) :=
        restore_checked (h := h) (s := u) subject range high read
      have joins {st r} (read : startOf start = some st) (record : startRecord st u = some r) : join r := by
        have joined : restore h first last start u = joinRestore h i first last r u := by
          rw [checked read, record, Option.elim_some]
        exact ⟨fun full => restores (joined.trans (if_pos full)),
          fun room => restores (joined.trans (if_neg (Nat.not_le.2 room)))⟩
      refine ⟨?_, fun k b named => ?_⟩
      · rintro rfl
        exact joins rfl rfl
      · have read : startOf start = some (some (k, b)) := by
          rw [named]
          exact startOf_some k (Nat.not_lt.1 fun far => good ⟨_, named, .inr far⟩)
        refine ⟨fun empty => restores ?_, fun c record => joins read ?_⟩
        · rw [checked read, startRecord, recordAt, empty]
          rfl
        · rw [startRecord, recordAt, record]
          rfl
    case cancel =>
      intro within queued v
      exact ⟨fun spared => cancelled (restoreCancel_queued good spared),
        fun c active ended => cancelled (restoreCancel_active good active ended)⟩
  case activation =>
    intro u activateIs
    exact ⟨fun idle => commanded_congr (restoreActivate_stays idle),
      fun r rest free queue => commanded_congr (restoreActivate_head free queue)⟩
  case ended =>
    intro serves asked pages freed left told
    have serving (n : LaneId) : serves n = servesRestore n s :=
      Bool.eq_iff_iff.2 (decide_eq_true_iff.trans (servesRestore_iff n s).symm)
    have read : asked = restoreUnread c s := by
      dsimp only [asked]
      rw [restoreUnread]
      cases c.lane with
      | none => rfl
      | some n =>
        dsimp only
        rw [serving, Option.elim_some, show unread = _ from funext unread_eq]
        rfl
    have gone : left = restoreLeft c s := by
      dsimp only [left]
      rw [restoreLeft]
      cases c.lane with
      | none => rfl
      | some n =>
        dsimp only
        rw [serving, Option.elim_some, leaveLane_eq]
    constructor
    · rw [giveUp_eq hc, ← read]
      cases ends <;> rfl
    · rw [finishRestore_eq hc, ← gone]
      rfl

end Sys2Proof.Proofs
end

section
/-! PROOFS. Time unit: writes of several of its slots or sets, the library lines, masks and the armed flags (R173 to R176, R181). -/

namespace Sys2Proof.Machine

/-! ## Several elements of a vector -/

section
variable {α : Type} {k : Nat}

theorem foldl_upd_get (l : List (Fin k)) (once : l.Nodup) (f : Fin k → α → α) (v : Vector α k) (i : Fin k) :
    (l.foldl (fun v j => upd v j (f j)) v)[i] = if i ∈ l then f i v[i] else v[i] := by
  induction l generalizing v with
  | nil => rfl
  | cons j l ih =>
    obtain ⟨fresh, once⟩ := List.nodup_cons.1 once
    rw [List.foldl_cons, ih once, upd_get]
    by_cases same : i = j
    · subst same
      rw [if_neg fresh, if_pos rfl, if_pos List.mem_cons_self]
    · rw [if_neg same]
      exact if_congr (by rw [List.mem_cons, or_iff_right same]) rfl rfl

/-- Elements changed one after another, each at most once, are those elements changed. -/
theorem foldl_upd (l : List (Fin k)) (once : l.Nodup) (f : Fin k → α → α) (v : Vector α k) :
    l.foldl (fun v j => upd v j (f j)) v = Vector.ofFn fun i => if i ∈ l then f i v[i] else v[i] := by
  refine Vector.ext fun i hi => ?_
  rw [Vector.getElem_ofFn]
  exact foldl_upd_get l once f v ⟨i, hi⟩

theorem foldl_upd_finRange (f : Fin k → α → α) (v : Vector α k) :
    (List.finRange k).foldl (fun v j => upd v j (f j)) v = Vector.ofFn fun i => f i v[i] := by
  rw [foldl_upd _ (List.nodup_finRange k)]
  exact congrArg Vector.ofFn (funext fun i => if_pos (List.mem_finRange i))

end

/-! ## Several slots or sets written (R172 to R174, R177) -/

section
variable {α : Type} (l : List α) (s : State) {g : α → State → State}

theorem forEach_captures (f : α → Vector CaptureSlot 8 → Vector CaptureSlot 8)
    (each : ∀ a s, g a s = { s with ttu := { s.ttu with captures := f a s.ttu.captures } }) :
    forEach l g s = { s with ttu := { s.ttu with captures := l.foldl (fun v a => f a v) s.ttu.captures } } := by
  induction l generalizing s with
  | nil => rfl
  | cons a l ih => exact (congrArg (forEach l g) (each a s)).trans (ih _)

theorem forEach_compares (f : α → Vector CompareSlot 4 → Vector CompareSlot 4)
    (each : ∀ a s, g a s = { s with ttu := { s.ttu with compares := f a s.ttu.compares } }) :
    forEach l g s = { s with ttu := { s.ttu with compares := l.foldl (fun v a => f a v) s.ttu.compares } } := by
  induction l generalizing s with
  | nil => rfl
  | cons a l ih => exact (congrArg (forEach l g) (each a s)).trans (ih _)

theorem forEach_triggers (f : α → Vector TriggerSet 8 → Vector TriggerSet 8)
    (each : ∀ a s, g a s = { s with ttu := { s.ttu with triggers := f a s.ttu.triggers } }) :
    forEach l g s = { s with ttu := { s.ttu with triggers := l.foldl (fun v a => f a v) s.ttu.triggers } } := by
  induction l generalizing s with
  | nil => rfl
  | cons a l ih => exact (congrArg (forEach l g) (each a s)).trans (ih _)

end

/-! ## The library lines (R175, R176) -/

theorem getLsbD_lineBit (l i : Fin 8) : (lineBit l).getLsbD i = decide (i = l) := by
  simp [lineBit, BitVec.getLsbD_twoPow, -BitVec.getLsbD_eq_getElem, Fin.ext_iff, eq_comm]

/-- A write gives each line of its mask its level, the held door line excepted (R176). -/
theorem writeLines_line (m d : BitVec 8) (s : State) (l : Fin 8) : (writeLines m d s).ttu.lines.getLsbD l =
    if m.getLsbD l = true ∧ s.ldr.doorHold ≠ some l then d.getLsbD l else s.ttu.lines.getLsbD l := by
  have byMask (n : BitVec 8) : ((s.ttu.lines &&& ~~~ n) ||| (d &&& n)).getLsbD l =
      if n.getLsbD l = true then d.getLsbD l else s.ttu.lines.getLsbD l := by
    cases hn : n.getLsbD l <;> simp [-BitVec.getLsbD_eq_getElem, hn]
  cases held : s.ldr.doorHold with
  | none =>
    rw [writeLines, held]
    exact (byMask m).trans (if_congr (by simp [-BitVec.getLsbD_eq_getElem]) rfl rfl)
  | some k =>
    rw [writeLines, held]
    refine (byMask _).trans (if_congr ?_ rfl rfl)
    simp [-BitVec.getLsbD_eq_getElem, getLsbD_lineBit, eq_comm (a := k)]

/-! ## Masks and the armed flags (R181, R192) -/

theorem maskOf_of_le {n : Nat} (h : n ≤ 255) : maskOf n = some (BitVec.ofNat 8 n) := if_pos (by omega)

theorem maskOf_none {n : Nat} (h : 255 < n) : maskOf n = none := if_neg (by omega)

theorem someMask_of_le {n : Nat} (h1 : 1 ≤ n) (h : n ≤ 255) : someMask n = some (BitVec.ofNat 8 n) :=
  (if_neg (by omega)).trans (maskOf_of_le h)

theorem someMask_none {n : Nat} (h : n = 0 ∨ 255 < n) : someMask n = none := by
  rcases h with rfl | h
  · rfl
  · exact (if_neg (by omega)).trans (maskOf_none h)

theorem getLsbD_mask (n : Nat) (i : Fin 8) : (BitVec.ofNat 8 n).getLsbD i = n.testBit i := by
  simp [-BitVec.getLsbD_eq_getElem, BitVec.getLsbD_ofNat]

theorem getLsbD_foldl_lineBit (p : Fin 8 → Prop) [DecidablePred p] (l : List (Fin 8)) (m : BitVec 8) (i : Fin 8) :
    (l.foldl (fun m j => if p j then m ||| lineBit j else m) m).getLsbD i =
      (m.getLsbD i || decide (i ∈ l ∧ p i)) := by
  induction l generalizing m with
  | nil => simp
  | cons j l ih =>
    rw [List.foldl_cons, ih]
    by_cases same : i = j
    · subst same
      by_cases flag : p i <;> simp [-BitVec.getLsbD_eq_getElem, flag, getLsbD_lineBit]
    · by_cases flag : p j <;> simp [-BitVec.getLsbD_eq_getElem, flag, getLsbD_lineBit, same]

/-- Bit n of the armed flags is set n's flag (R181). -/
theorem getLsbD_armedFlags (s : State) (i : Fin 8) : (armedFlags s).getLsbD i = s.ttu.triggers[i].armed := by
  refine (getLsbD_foldl_lineBit _ allEight 0 i).trans ?_
  simp [allEight]

end Sys2Proof.Machine
end

section
/-! PROOFS. Time unit requests: the trigger, capture, line and compare requests (R173, R175, R176, R181). -/

namespace Sys2Proof.Machine

variable {h : Hdr} {mask : Nat} {s : State}

/-! ## TRIGGER_ARM, TRIGGER_DISARM and TRIGGER_FIRE (R181) -/

/-- The eight sets with those of a mask armed or disarmed (R181). -/
def armedSets (mask : Nat) (b : Bool) (s : State) : State := { s with ttu := { s.ttu with
  triggers := Vector.ofFn fun i : Fin 8 =>
    let t := s.ttu.triggers[i]
    if mask.testBit i = true then { t with armed := b } else t } }

theorem setArmed_eq (b : Bool) : setArmed (BitVec.ofNat 8 mask) b s = armedSets mask b s := by
  refine (forEach_triggers allEight s
    (fun i v => upd v i fun t => if mask.testBit i = true then { t with armed := b } else t) fun i s => ?_).trans ?_
  · rw [getLsbD_mask]
    split
    · rfl
    · rw [upd_self _ _ _ rfl]
  · rw [allEight, foldl_upd_finRange]
    rfl

/-- A lane or the loader is in FAULT (R181). -/
theorem anyFault_iff (s : State) :
    anyFault s = true ↔ s.ldr.state = .fault ∨ ∃ n : LaneId, s.lanes[n].state = .fault := by
  simp [anyFault, mem_allLanes]

theorem guardedIn_iff (s : State) : guardedIn (BitVec.ofNat 8 mask) s = true ↔
    ∃ i : Fin 8, mask.testBit i = true ∧ s.ttu.triggers[i].faultGuard = true := by
  simp [guardedIn, allEight, -Fin.getElem_fin, -BitVec.getLsbD_eq_getElem, getLsbD_mask]

theorem triggerArm_badArgument (bad : mask = 0 ∨ 255 < mask) : triggerArm h mask s = refuse h 33 .badArgument s := by
  rw [triggerArm, someMask_none bad]

theorem triggerDisarm_badArgument (bad : mask = 0 ∨ 255 < mask) :
    triggerDisarm h mask s = refuse h 34 .badArgument s := by
  rw [triggerDisarm, someMask_none bad]

theorem triggerFire_badArgument (bad : mask = 0 ∨ 255 < mask) : triggerFire h mask s = refuse h 35 .badArgument s := by
  rw [triggerFire, someMask_none bad]

section
variable (low : 1 ≤ mask) (high : mask ≤ 255)
include low high

theorem triggerArm_eq : triggerArm h mask s =
    if guardedIn (BitVec.ofNat 8 mask) s = true ∧ anyFault s = true then refuse h 33 .faulted s
    else answer h 33 .ok (.armed (armedFlags (armedSets mask true s))) (armedSets mask true s) := by
  rw [triggerArm, someMask_of_le low high]
  dsimp only
  rw [setArmed_eq]

theorem triggerDisarm_ok : triggerDisarm h mask s =
    answer h 34 .ok (.armed (armedFlags (armedSets mask false s))) (armedSets mask false s) := by
  rw [triggerDisarm, someMask_of_le low high]
  dsimp only
  rw [setArmed_eq]

theorem triggerFire_ok : triggerFire h mask s =
    let w := wave (fireNow s) ((List.finRange 8).filter fun i => mask.testBit i && s.ttu.triggers[i].armed) s
    answer h 35 .ok (.fired s.ttu.time w.1 (armedFlags w.2)) w.2 := by
  rw [triggerFire, someMask_of_le low high]
  simp only [armedOf, allEight, getLsbD_mask]

end

/-! ## CAPTURE_READ (R173; log entry 44) -/

theorem captureRead_badArgument {clear : Bool} (bad : mask = 0 ∨ 255 < mask) :
    captureRead h mask clear s = refuse h 36 .badArgument s := by
  rw [captureRead, someMask_none bad]

theorem emptySlots_eq (mask : Nat) (s : State) :
    forEach ((List.finRange 8).filter fun i : Fin 8 => mask.testBit i) emptySlotOf s = { s with ttu := { s.ttu with
      captures := Vector.ofFn fun i : Fin 8 =>
        let c := s.ttu.captures[i]
        if mask.testBit i = true then { c with full := false, lost := false } else c } } := by
  refine (forEach_captures _ s (fun i v => upd v i fun c => { c with full := false, lost := false })
    fun i s => rfl).trans ?_
  rw [foldl_upd _ ((List.nodup_finRange 8).filter _)]
  simp

theorem captureRead_ok {clear : Bool} (low : 1 ≤ mask) (high : mask ≤ 255) : captureRead h mask clear s =
    answer h 36 .ok (.captured s.ttu.time
        (((List.finRange 8).filter fun i : Fin 8 => mask.testBit i).map fun i => (i, s.ttu.captures[i])))
      (if clear = true then
        forEach ((List.finRange 8).filter fun i : Fin 8 => mask.testBit i) emptySlotOf s else s) := by
  rw [captureRead, someMask_of_le low high]
  simp only [maskedSlots, allEight, getLsbD_mask, emptySlots_eq]
  split
  · rfl
  · rfl

/-! ## LINES_SET and COMPARE_FORCE (R175, R176) -/

theorem linesSet_badArgument {data : Nat} (bad : 255 < mask ∨ 255 < data) :
    linesSet h mask data s = refuse h 37 .badArgument s := by
  unfold linesSet
  rcases bad with bad | bad
  · rw [maskOf_none bad]
  · rw [maskOf_none bad]
    cases maskOf mask <;> rfl

theorem linesSet_ok {data : Nat} (hm : mask ≤ 255) (hd : data ≤ 255) : linesSet h mask data s =
    let l := (writeLines (BitVec.ofNat 8 mask) (BitVec.ofNat 8 data) s).ttu.lines
    answer h 37 .ok (.linesAt s.ttu.time l) { s with ttu := { s.ttu with lines := l } } := by
  rw [linesSet, maskOf_of_le hm, maskOf_of_le hd]
  rfl

theorem compareForce_badArgument {slot : Nat} (bad : 3 < slot) :
    compareForce h slot s = refuse h 38 .badArgument s := by
  rw [compareForce, finOf_none (by omega)]

theorem compareForce_ok (c : Fin 4) : compareForce h c s =
    let l := (writeLines s.ttu.compares[c].lineMask s.ttu.compares[c].lineData s).ttu.lines
    answer h 38 .ok (.lines l) { s with ttu := { s.ttu with lines := l } } := by
  rw [compareForce, finOf_val]
  rfl

end Sys2Proof.Machine

namespace Sys2Proof.Proofs

open Sys2Proof Sys2Proof.Machine

/-- Settles O55: each request by its own equation, refused and carried out, the flags and lines read bit by bit. -/
theorem timeUnitRequests : Obligations.TimeUnitRequests := by
  refine ⟨?sets, ?slots⟩
  case sets =>
    intro h mask s hc u does flags sets armedBy guarded
    have guards : guarded ↔ guardedIn (BitVec.ofNat 8 mask) u = true ∧ anyFault u = true :=
      and_congr (guardedIn_iff u).symm (anyFault_iff u).symm
    refine ⟨fun bad => ⟨?_, ?_, ?_⟩, fun low high => ⟨fun hg => ?_, fun hg => ⟨_, getLsbD_armedFlags _, ?_⟩,
      ⟨_, getLsbD_armedFlags _, ?_⟩, _, getLsbD_armedFlags _, ?_⟩⟩
    · exact exec_taken hc rfl (triggerArm_badArgument bad)
    · exact exec_taken hc rfl (triggerDisarm_badArgument bad)
    · exact exec_taken hc rfl (triggerFire_badArgument bad)
    · exact exec_taken hc rfl ((triggerArm_eq low high).trans (if_pos (guards.1 hg)))
    · exact exec_taken hc rfl ((triggerArm_eq low high).trans (if_neg (mt guards.2 hg)))
    · exact exec_taken hc rfl (triggerDisarm_ok low high)
    · exact exec_taken hc rfl (triggerFire_ok low high)
  case slots =>
    intro h mask data clear s hc u does emptied linesAre
    refine ⟨fun bad => ?_, fun low high => ?_, fun bad => ?_, fun hm hd => ⟨_, writeLines_line _ _ u, ?_⟩, fun bad => ?_,
      fun c hdata => ⟨_, writeLines_line _ _ u, ?_⟩⟩
    · exact exec_taken hc rfl (captureRead_badArgument bad)
    · refine exec_taken hc rfl ((captureRead_ok low high).trans ?_)
      rw [emptySlots_eq]
    · exact exec_taken hc rfl (linesSet_badArgument bad)
    · exact exec_taken hc rfl (linesSet_ok hm hd)
    · exact exec_taken hc rfl (compareForce_badArgument bad)
    · subst hdata
      exact exec_taken hc rfl (compareForce_ok c)

end Sys2Proof.Proofs
end

section
/-! PROOFS. Trigger tables and settings: TABLE_WRITE of the trigger, capture, compare and settings tables, and what their items
spell (R173, R174, R177, R186). -/

namespace Sys2Proof.Machine

/-! ## Lists of items (Section 12.2) -/

section
variable {α β : Type} {f : α → Option β}

theorem mapM_eq_some_iff (l : List α) (k : List β) : l.mapM f = some k ↔ l.map f = k.map some := by
  induction l generalizing k with
  | nil => cases k <;> simp
  | cons x l ih =>
    cases k with
    | nil => cases hx : f x <;> simp [hx, Option.bind_eq_some_iff]
    | cons y k => simp [Option.bind_eq_some_iff, ← ih]

/-- Items that all read, one or more of them, give what they read as. -/
theorem readAll_some {l : List α} {k : List β} (hl : l ≠ []) (h : l.map f = k.map some) : readAll f l = some k :=
  (if_neg (by simpa using hl)).trans ((mapM_eq_some_iff l k).2 h)

/-- No item, or one that does not read, spoils the list (log entry 18). -/
theorem readAll_unread {l : List α} (h : l = [] ∨ ∃ a ∈ l, f a = none) : readAll f l = none := by
  rcases h with rfl | ⟨a, ha, bad⟩
  · rfl
  · exact readAll_none ha bad

theorem mapM_isSome_iff (l : List α) : (l.mapM f).isSome = true ↔ ∀ x ∈ l, (f x).isSome = true := by
  induction l with
  | nil => simp
  | cons x l ih =>
    rw [List.mapM_cons, List.forall_mem_cons, ← ih]
    cases f x <;> cases l.mapM f <;> simp

theorem length_of_mapM {l : List α} {k : List β} (h : l.mapM f = some k) : k.length = l.length := by
  simpa using (congrArg List.length ((mapM_eq_some_iff l k).1 h)).symm

/-- Items that read each as what a function says give the list of that. -/
theorem eq_map_of_mapM {g : α → β} (hg : ∀ x y, f x = some y → y = g x) {l : List α} {k : List β}
    (h : l.mapM f = some k) : k = l.map g := by
  rw [mapM_eq_some_iff] at h
  induction l generalizing k with
  | nil => simpa using h.symm
  | cons x l ih =>
    cases k with
    | nil => simp at h
    | cons y k =>
      simp only [List.map_cons, List.cons.injEq] at h ⊢
      exact ⟨hg x y h.1, ih h.2⟩

end

/-! ## Numbers and masks (R192) -/

theorem finOf_isSome_iff (k n : Nat) : (finOf k n).isSome = true ↔ n < k := by
  by_cases h : n < k <;> simp [finOf, h]

theorem maskOf_isSome_iff (n : Nat) : (maskOf n).isSome = true ↔ n ≤ 255 := by
  rw [maskOf, ← Nat.lt_succ_iff]
  split_ifs with h <;> simp [h]

theorem maskOf_value {n : Nat} {m : BitVec 8} (h : maskOf n = some m) : m = BitVec.ofNat 8 n := by
  unfold maskOf at h
  split at h
  · exact (Option.some.inj h).symm
  · cases h

theorem word32Of_isSome_iff (n : Nat) : (word32Of n).isSome = true ↔ n ≤ 4294967295 := by
  by_cases h : n ≤ max32
  · simp [word32Of, h, show n ≤ 4294967295 from h]
  · simp [word32Of, h, show ¬ n ≤ 4294967295 from h]

theorem triggerModeOf_isSome_iff (n : Nat) : (triggerModeOf n).isSome = true ↔ n ≤ 1 := by
  unfold triggerModeOf
  split_ifs <;> simp <;> omega

theorem triggerModeOf_value {n : Nat} {m : TriggerMode} (h : triggerModeOf n = some m) :
    m = if n = 0 then .once else .repeating := by
  unfold triggerModeOf at h
  split_ifs at h ⊢ <;> cases h <;> rfl

/-! ## Sources and factors (R171, R172, R177; log entries 18 and 27) -/

/-- A pair of a kind's code and a qualifier that names an event or any of its kind (R171, log entry 27). -/
def EventOk (a : SourceArg) : Prop := a.kind ≤ 11 ∧ (a.qual = 255 ∨ (5 ≤ a.kind ∧ a.kind ≤ 10 ∧ a.qual ≤ 3) ∨
  (a.kind = 11 ∧ a.qual ≤ 31))

/-- How many qualifiers the kind of each code has (R171). -/
theorem eventQualifiers_of_code (n : Nat) : (eventKindOf n).map eventQualifiers =
    if n ≤ 4 then some 0 else if n ≤ 10 then some 4 else if n = 11 then some 32 else none := by
  by_cases known : n < 12
  · have each : ∀ i : Fin 12, (eventKindOf i).map eventQualifiers =
        if i.val ≤ 4 then some 0 else if i.val ≤ 10 then some 4 else if i.val = 11 then some 32 else none := by decide
    exact each ⟨n, known⟩
  · rw [if_neg (by omega), if_neg (by omega), if_neg (by omega), eventKindOf,
      List.getElem?_eq_none (by simpa using known)]
    rfl

theorem qualOf_isSome_iff (k : EventKind) (q : Nat) :
    (qualOf k q).isSome = true ↔ q = 255 ∨ q < eventQualifiers k := by
  unfold qualOf
  split_ifs <;> simp [*]

theorem qualOf_value {k : EventKind} {n : Nat} {q : Option Nat} (h : qualOf k n = some q) :
    q = if n = 255 then none else some n := by
  unfold qualOf at h
  split_ifs at h ⊢ <;> cases h <;> rfl

/-- The event, or the kind of events, that a pair names. -/
def eventOf (a : SourceArg) : Option (EventKind × Option Nat) :=
  (eventKindOf a.kind).bind fun k => (qualOf k a.qual).map fun q => (k, q)

theorem eventOf_isSome_iff (a : SourceArg) : (eventOf a).isSome = true ↔ EventOk a := by
  have count := eventQualifiers_of_code a.kind
  unfold eventOf EventOk
  cases kind : eventKindOf a.kind with
  | none =>
    have beyond : 11 < a.kind := by
      rw [kind, Option.map_none] at count
      split_ifs at count
      omega
    exact iff_of_false Bool.false_ne_true (by omega)
  | some k =>
    rw [kind] at count
    simp only [Option.map_some, Option.bind_some, Option.isSome_map, qualOf_isSome_iff] at count ⊢
    split_ifs at count <;> simp only [Option.some.injEq] at count <;> omega

theorem eventOf_value {a : SourceArg} {k : EventKind} {q : Option Nat} (h : eventOf a = some (k, q)) :
    eventKindOf a.kind = some k ∧ q = if a.qual = 255 then none else some a.qual := by
  simp only [eventOf, Option.bind_eq_some_iff, Option.map_eq_some_iff, Prod.mk.injEq] at h
  obtain ⟨k, kind, q, qual, rfl, rfl⟩ := h
  exact ⟨kind, qualOf_value qual⟩

theorem sourceOf_eq (a : SourceArg) : sourceOf a =
    if a.kind = 12 then some .byAction else (eventOf a).map fun e => .event e.1 e.2 := by
  unfold sourceOf eventOf
  cases eventKindOf a.kind with
  | none => rfl
  | some k => cases h : qualOf k a.qual <;> simp [h]

theorem factorOf_eq (a : SourceArg) : factorOf a =
    if a.kind = 12 then some .none else (eventOf a).map fun e => .event e.1 e.2 := by
  unfold factorOf eventOf
  cases eventKindOf a.kind with
  | none => rfl
  | some k => cases h : qualOf k a.qual <;> simp [h]

theorem sourceOf_isSome_iff (a : SourceArg) : (sourceOf a).isSome = true ↔ a.kind = 12 ∨ EventOk a := by
  rw [sourceOf_eq, ← eventOf_isSome_iff]
  split_ifs <;> simp [*]

theorem factorOf_isSome_iff (a : SourceArg) : (factorOf a).isSome = true ↔ a.kind = 12 ∨ EventOk a := by
  rw [factorOf_eq, ← eventOf_isSome_iff]
  split_ifs <;> simp [*]

/-- Code 12 names no event (log entry 18). -/
theorem eventKindOf_ne_twelve {n : Nat} {k : EventKind} (h : eventKindOf n = some k) : n ≠ 12 := by
  rintro rfl
  cases h

/-- What a pair spells, where code 12 stands for no event and any other pair for what it names. -/
theorem event_or_twelve {α : Type} {twelve x : α} {event : EventKind → Option Nat → α} {a : SourceArg}
    (read : (if a.kind = 12 then some twelve else (eventOf a).map fun e => event e.1 e.2) = some x) :
    (a.kind = 12 → x = twelve) ∧
      ∀ k, eventKindOf a.kind = some k → x = event k (if a.qual = 255 then none else some a.qual) := by
  split_ifs at read with code
  · cases read
    exact ⟨fun _ => rfl, fun k kind => absurd code (eventKindOf_ne_twelve kind)⟩
  · obtain ⟨⟨k, q⟩, named, rfl⟩ := Option.map_eq_some_iff.1 read
    obtain ⟨kind, qual⟩ := eventOf_value named
    refine ⟨fun other => absurd other code, fun k' kind' => ?_⟩
    rw [← Option.some.inj (kind.symm.trans kind'), ← qual]

theorem sourceOf_value {a : SourceArg} {src : Source} (read : sourceOf a = some src) : (a.kind = 12 → src = .byAction) ∧
    ∀ k, eventKindOf a.kind = some k → src = .event k (if a.qual = 255 then none else some a.qual) :=
  event_or_twelve ((sourceOf_eq a).symm.trans read)

theorem factorOf_value {a : SourceArg} {x : Factor} (read : factorOf a = some x) : (a.kind = 12 → x = .none) ∧
    ∀ k, eventKindOf a.kind = some k → x = .event k (if a.qual = 255 then none else some a.qual) :=
  event_or_twelve ((factorOf_eq a).symm.trans read)

/-! ## Actions (R177, R179) -/

/-- An action's arguments in their ranges (R177). -/
def ActionOk (x : ActionArg) : Prop :=
  (x.kind = 0 ∧ x.x ≤ 7) ∨ (x.kind = 1 ∧ x.x ≤ 255 ∧ x.y ≤ 255) ∨ x.kind = 2 ∨ x.kind = 3 ∨
    ((x.kind = 4 ∨ x.kind = 5) ∧ x.x ≤ 3) ∨ (x.kind = 6 ∧ x.x ≤ 65535) ∨
    (x.kind = 7 ∧ x.x ≤ 3 ∧ 1 ≤ x.y ∧ x.y ≤ 4294967295)

/-- What an action of a set spells, its arguments in their ranges (R179). -/
def spelledAction (x : ActionArg) : Action :=
  match x.kind with
  | 0 => .capture (Fin.ofNat 8 x.x)
  | 1 => .lines (BitVec.ofNat 8 x.x) (BitVec.ofNat 8 x.y)
  | 2 => .stop .decel
  | 3 => .stop .instant
  | 4 => .suspendVerify (Fin.ofNat 4 x.x)
  | 5 => .resumeVerify (Fin.ofNat 4 x.x)
  | 6 => .notice x.x
  | _ => .compareArm (Fin.ofNat 4 x.x) x.y

theorem finOf_eq_ofNat {k n : Nat} [NeZero k] (h : n < k) : finOf k n = some (Fin.ofNat k n) :=
  (finOf_of_lt h).trans (congrArg some (Fin.ext (Nat.mod_eq_of_lt h).symm))

theorem actionOf_ok {x : ActionArg} (ok : ActionOk x) : actionOf x = some (spelledAction x) := by
  obtain ⟨kind, x, y⟩ := x
  obtain ⟨rfl, h⟩ | ⟨rfl, hx, hy⟩ | rfl | rfl | ⟨rfl | rfl, h⟩ | ⟨rfl, h⟩ | ⟨rfl, hx, h1, hy⟩ := ok
  · exact congrArg (Option.map Action.capture) (finOf_eq_ofNat (Nat.lt_succ_of_le h))
  · show (maskOf x).bind (fun m => (maskOf y).bind fun d => some (Action.lines m d)) = _
    rw [maskOf_of_le hx, maskOf_of_le hy]
    rfl
  · rfl
  · rfl
  · exact congrArg (Option.map Action.suspendVerify) (finOf_eq_ofNat (Nat.lt_succ_of_le h))
  · exact congrArg (Option.map Action.resumeVerify) (finOf_eq_ofNat (Nat.lt_succ_of_le h))
  · exact if_pos h
  · show (finOf 4 x).bind (fun c => if 1 ≤ y ∧ y ≤ max32 then some (Action.compareArm c y) else none) = _
    rw [finOf_eq_ofNat (Nat.lt_succ_of_le hx), Option.bind_some, if_pos ⟨h1, hy⟩]
    rfl

theorem actionOf_range {x : ActionArg} (read : (actionOf x).isSome = true) : ActionOk x := by
  unfold ActionOk
  unfold actionOf at read
  split_ifs at read with capture lines decel instant suspend resume notice code arm delay
  · rw [Option.isSome_map, finOf_isSome_iff] at read
    omega
  · obtain ⟨_, read⟩ := Option.isSome_iff_exists.1 read
    simp only [Option.bind_eq_bind, Option.bind_eq_some_iff] at read
    obtain ⟨m, hm, d, hd, -⟩ := read
    have mask := (maskOf_isSome_iff x.x).1 (by rw [hm]; rfl)
    have data := (maskOf_isSome_iff x.y).1 (by rw [hd]; rfl)
    omega
  · omega
  · omega
  · rw [Option.isSome_map, finOf_isSome_iff] at read
    omega
  · rw [Option.isSome_map, finOf_isSome_iff] at read
    omega
  · omega
  · cases read
  · obtain ⟨_, read⟩ := Option.isSome_iff_exists.1 read
    obtain ⟨c, hc, -⟩ := Option.bind_eq_some_iff.1 read
    have slot := (finOf_isSome_iff 4 x.x).1 (by rw [hc]; rfl)
    obtain ⟨low, high⟩ : 1 ≤ x.y ∧ x.y ≤ 4294967295 := delay
    omega
  · obtain ⟨_, read⟩ := Option.isSome_iff_exists.1 read
    obtain ⟨_, -, none⟩ := Option.bind_eq_some_iff.1 read
    cases none
  · cases read

theorem actionOf_isSome_iff (x : ActionArg) : (actionOf x).isSome = true ↔ ActionOk x :=
  ⟨actionOf_range, fun ok => by rw [actionOf_ok ok]; rfl⟩

theorem actionOf_value (x : ActionArg) (y : Action) (h : actionOf x = some y) : y = spelledAction x := by
  have ok := (actionOf_isSome_iff x).1 (by rw [h]; rfl)
  exact Option.some.inj (h.symm.trans (actionOf_ok ok))

/-! ## Items of the tables (R173, R174, R177) -/

/-- A set of a trigger table write is read field by field, then tested as a whole (R177). -/
theorem triggerOf_eq_some_iff (a : TriggerArg) (i : Fin 8) (t : TriggerSet) : triggerOf a = some (i, t) ↔
    finOf 8 a.number = some i ∧ factorOf a.factor = some t.factor ∧ a.actions.mapM actionOf = some t.actions ∧
      maskOf a.chain = some t.chain ∧ triggerModeOf a.mode = some t.mode ∧
      (t.actions.length ≤ 2 ∧ t.chain.getLsbD i = false) ∧ t.armed = false ∧ t.faultGuard = a.faultGuard := by
  simp only [triggerOf, Option.bind_eq_bind, Option.bind_eq_some_iff, Option.ite_none_right_eq_some, Option.some.injEq,
    Prod.mk.injEq]
  constructor
  · rintro ⟨i, hi, factor, hf, actions, ha, chain, hc, mode, hm, tested, rfl, rfl⟩
    exact ⟨hi, hf, ha, hc, hm, tested, rfl, rfl⟩
  · rintro ⟨hi, hf, ha, hc, hm, tested, armed, guarded⟩
    refine ⟨_, hi, _, hf, _, ha, _, hc, _, hm, tested, rfl, ?_⟩
    rw [← armed, ← guarded]

theorem triggerOf_isSome_iff (a : TriggerArg) : (triggerOf a).isSome = true ↔
    a.number ≤ 7 ∧ (a.factor.kind = 12 ∨ EventOk a.factor) ∧ a.actions.length ≤ 2 ∧ (∀ x ∈ a.actions, ActionOk x) ∧
      a.chain ≤ 255 ∧ a.chain.testBit a.number = false ∧ a.mode ≤ 1 := by
  simp only [← actionOf_isSome_iff, ← mapM_isSome_iff, ← factorOf_isSome_iff, ← maskOf_isSome_iff,
    ← triggerModeOf_isSome_iff, show a.number ≤ 7 ↔ a.number < 8 from Nat.lt_succ_iff.symm]
  constructor
  · intro some
    obtain ⟨⟨i, t⟩, read⟩ := Option.isSome_iff_exists.1 some
    obtain ⟨number, factor, actions, chain, mode, ⟨few, self⟩, -, -⟩ := (triggerOf_eq_some_iff a i t).1 read
    have own := (finOf_eq_some_iff i).1 number
    rw [maskOf_value chain, getLsbD_mask, ← own] at self
    rw [length_of_mapM actions] at few
    rw [factor, actions, chain, mode]
    exact ⟨own ▸ i.2, rfl, few, rfl, rfl, self, rfl⟩
  · rintro ⟨number, factor, few, actions, chain, self, mode⟩
    obtain ⟨factor, hf⟩ := Option.isSome_iff_exists.1 factor
    obtain ⟨actions, ha⟩ := Option.isSome_iff_exists.1 actions
    obtain ⟨chain, hc⟩ := Option.isSome_iff_exists.1 chain
    obtain ⟨mode, hm⟩ := Option.isSome_iff_exists.1 mode
    refine Option.isSome_iff_exists.2 ⟨(⟨a.number, number⟩, ⟨false, factor, actions, chain, mode, a.faultGuard⟩),
      (triggerOf_eq_some_iff a _ _).2 ⟨finOf_of_lt number, hf, ha, hc, hm, ⟨?_, ?_⟩, rfl, rfl⟩⟩
    · rw [length_of_mapM ha]
      exact few
    · rw [maskOf_value hc, getLsbD_mask]
      exact self

theorem captureOf_eq_some_iff (p : Nat × SourceArg) (i : Fin 8) (src : Source) :
    captureOf p = some (i, src) ↔ finOf 8 p.1 = some i ∧ sourceOf p.2 = some src := by
  simp [captureOf, Option.bind_eq_some_iff]

theorem captureOf_isSome_iff (p : Nat × SourceArg) :
    (captureOf p).isSome = true ↔ p.1 ≤ 7 ∧ (p.2.kind = 12 ∨ EventOk p.2) := by
  rw [← sourceOf_isSome_iff, ← Nat.lt_succ_iff, ← finOf_isSome_iff, captureOf]
  cases finOf 8 p.1 <;> cases sourceOf p.2 <;> simp

/-- A slot of a compare table write is read field by field (R174). -/
theorem compareOf_eq_some_iff (a : CompareArg) (i : Fin 4) (x : CompareSlot) : compareOf a = some (i, x) ↔
    finOf 4 a.slot = some i ∧ word32Of a.value = some a.value ∧ maskOf a.lineMask = some x.lineMask ∧
      maskOf a.lineData = some x.lineData ∧ maskOf a.triggerMask = some x.triggerMask ∧ x.enabled = a.enabled ∧
      x.value = BitVec.ofNat 32 a.value := by
  simp only [compareOf, Option.bind_eq_bind, Option.bind_eq_some_iff, Option.some.injEq, Prod.mk.injEq]
  constructor
  · rintro ⟨i, hi, v, hv, m, hm, d, hd, t, ht, rfl, rfl⟩
    obtain ⟨-, rfl⟩ := (word32Of_eq_some_iff _ _).1 hv
    exact ⟨hi, hv, hm, hd, ht, rfl, rfl⟩
  · rintro ⟨hi, hv, hm, hd, ht, enabled, value⟩
    refine ⟨_, hi, _, hv, _, hm, _, hd, _, ht, rfl, ?_⟩
    rw [← enabled, ← value]

theorem compareOf_isSome_iff (a : CompareArg) : (compareOf a).isSome = true ↔
    a.slot ≤ 3 ∧ a.value ≤ 4294967295 ∧ a.lineMask ≤ 255 ∧ a.lineData ≤ 255 ∧ a.triggerMask ≤ 255 := by
  rw [show a.slot ≤ 3 ↔ a.slot < 4 from Nat.lt_succ_iff.symm]
  constructor
  · intro some
    obtain ⟨⟨i, x⟩, read⟩ := Option.isSome_iff_exists.1 some
    obtain ⟨hi, hv, hm, hd, ht, -, -⟩ := (compareOf_eq_some_iff a i x).1 read
    exact ⟨(finOf_isSome_iff _ _).1 (by rw [hi]; rfl), (word32Of_isSome_iff _).1 (by rw [hv]; rfl),
      (maskOf_isSome_iff _).1 (by rw [hm]; rfl), (maskOf_isSome_iff _).1 (by rw [hd]; rfl),
      (maskOf_isSome_iff _).1 (by rw [ht]; rfl)⟩
  · rintro ⟨slot, value, mask, data, triggers⟩
    exact Option.isSome_iff_exists.2 ⟨(⟨a.slot, slot⟩, ⟨a.enabled, BitVec.ofNat 32 a.value, _, _, _⟩),
      (compareOf_eq_some_iff a _ _).2 ⟨finOf_of_lt slot, (word32Of_eq_some_iff _ _).2 ⟨value, rfl⟩, maskOf_of_le mask,
        maskOf_of_le data, maskOf_of_le triggers, rfl, rfl⟩⟩

theorem compareOf_value {a : CompareArg} {i : Fin 4} {x : CompareSlot} (read : compareOf a = some (i, x)) :
    a.slot = i ∧ x = { enabled := a.enabled, value := BitVec.ofNat 32 a.value, lineMask := BitVec.ofNat 8 a.lineMask,
                       lineData := BitVec.ofNat 8 a.lineData, triggerMask := BitVec.ofNat 8 a.triggerMask } := by
  obtain ⟨slot, -, mask, data, triggers, enabled, value⟩ := (compareOf_eq_some_iff a i x).1 read
  refine ⟨(finOf_eq_some_iff i).1 slot, ?_⟩
  rw [← enabled, ← value, ← maskOf_value mask, ← maskOf_value data, ← maskOf_value triggers]

/-! ## The writes (R173, R174, R177) -/

section
variable {h : Hdr} {s : State}

theorem writeTriggers_unread {sets : List TriggerArg} (bad : sets = [] ∨ ∃ a ∈ sets, triggerOf a = none) :
    writeTriggers h sets s = refuse h 6 .badArgument s := by
  rw [writeTriggers, readAll_unread bad]

theorem writeTriggers_read {sets : List TriggerArg} {ts : List (Fin 8 × TriggerSet)} (hne : sets ≠ [])
    (read : sets.map triggerOf = ts.map some) : writeTriggers h sets s =
      if ts.any (fun t => s.ttu.triggers[t.1].armed) = true then refuse h 6 .busy s
      else answer h 6 .ok .none { s with
        ttu := { s.ttu with triggers := ts.foldl (fun v t => v.set t.1 t.2) s.ttu.triggers } } := by
  rw [writeTriggers, readAll_some hne read]
  exact if_congr Iff.rfl rfl
    (congrArg (answer h 6 .ok .none) (forEach_triggers ts s (fun t v => v.set t.1 t.2) fun t s => rfl))

theorem writeCaptures_unread {pairs : List (Nat × SourceArg)} (bad : pairs = [] ∨ ∃ p ∈ pairs, captureOf p = none) :
    writeCaptures h pairs s = refuse h 6 .badArgument s := by
  rw [writeCaptures, readAll_unread bad]

theorem writeCaptures_read {pairs : List (Nat × SourceArg)} {ps : List (Fin 8 × Source)} (hne : pairs ≠ [])
    (read : pairs.map captureOf = ps.map some) : writeCaptures h pairs s = answer h 6 .ok .none { s with
      ttu := { s.ttu with
        captures := ps.foldl (fun v p => v.set p.1 { v[p.1] with source := p.2, full := false, lost := false })
          s.ttu.captures } } := by
  rw [writeCaptures, readAll_some hne read]
  exact congrArg (answer h 6 .ok .none) (forEach_captures ps s
    (fun p v => v.set p.1 { v[p.1] with source := p.2, full := false, lost := false }) fun p s => rfl)

theorem writeCompares_unread {slots : List CompareArg} (bad : slots = [] ∨ ∃ a ∈ slots, compareOf a = none) :
    writeCompares h slots s = refuse h 6 .badArgument s := by
  rw [writeCompares, readAll_unread bad]

theorem writeCompares_read {slots : List CompareArg} {cs : List (Fin 4 × CompareSlot)} (hne : slots ≠ [])
    (read : slots.map compareOf = cs.map some) : writeCompares h slots s = answer h 6 .ok .none { s with
      ttu := { s.ttu with compares := cs.foldl (fun v c => v.set c.1 c.2) s.ttu.compares } } := by
  rw [writeCompares, readAll_some hne read]
  exact congrArg (answer h 6 .ok .none) (forEach_compares cs s (fun c v => v.set c.1 c.2) fun c s => rfl)

/-! ## Settings (R186) -/

/-- Names 1 to 10 are settings (R192). -/
theorem settingOf_none {n : Nat} (h : n = 0 ∨ 10 < n) : settingOf n = none := by
  rcases h with rfl | h
  · rfl
  · rw [settingOf, if_neg (by omega), List.getElem?_eq_none (by simp; omega)]

theorem settingPair_none {p : Nat × Nat} (name : p.1 = 0 ∨ 10 < p.1) : settingPair p = none := by
  rw [settingPair, settingOf_none name]
  rfl

/-- The pairs of a write, each value clamped into its setting's range (R186). -/
def clampedPairs (ns : List SettingName) (pairs : List (Nat × Nat)) : List (SettingName × Nat) :=
  (ns.zip pairs).map fun q => (q.1, q.1.clamp q.2.2)

theorem map_settingPair {pairs : List (Nat × Nat)} {ns : List SettingName}
    (names : pairs.map (fun p => settingOf p.1) = ns.map some) :
    pairs.map settingPair = (clampedPairs ns pairs).map some := by
  induction pairs generalizing ns with
  | nil => simp [clampedPairs]
  | cons p pairs ih =>
    cases ns with
    | nil => simp at names
    | cons n ns =>
      simp only [List.map_cons, List.cons.injEq] at names
      obtain ⟨name, names⟩ := names
      have first : settingPair p = some (n, n.clamp p.2) := by rw [settingPair, name]; rfl
      exact congrArg₂ List.cons first (ih names)

theorem writeSettings_unread {pairs : List (Nat × Nat)} (bad : pairs = [] ∨ ∃ p ∈ pairs, p.1 = 0 ∨ 10 < p.1) :
    writeSettings h pairs s = refuse h 6 .badArgument s := by
  rw [writeSettings, readAll_unread (bad.imp_right fun ⟨p, hp, name⟩ => ⟨p, hp, settingPair_none name⟩)]

theorem writeSettings_read {pairs : List (Nat × Nat)} {ns : List SettingName} (hne : pairs ≠ [])
    (names : pairs.map (fun p => settingOf p.1) = ns.map some) : writeSettings h pairs s =
      forEach (clampedPairs ns pairs) applySetting
        (answer h 6 .ok (.taken ((pairs.map Prod.fst).zip ((clampedPairs ns pairs).map Prod.snd))) s) := by
  rw [writeSettings, readAll_some hne (map_settingPair names)]

end

end Sys2Proof.Machine

namespace Sys2Proof.Proofs

open Sys2Proof Sys2Proof.Machine

/-- Settles O22: each table's write refused, busy or carried out, what each kind of item spells, and the settings applied
pair by pair. -/
theorem writeTriggerTablesAndSettings : Obligations.WriteTriggerTablesAndSettings := by
  refine ⟨?writes, ?items, ?settings, ?ranges⟩
  case writes =>
    intro h sets pairs slots s hc u
    refine ⟨fun bad => ?_, fun ts hne read => ?_, fun bad => ?_, fun ps hne read => ?_, fun bad => ?_,
      fun cs hne read => ?_⟩
    · exact exec_taken hc rfl (writeTriggers_unread bad)
    · have armed : ts.any (fun t => u.ttu.triggers[t.1].armed) = true ↔ ∃ t ∈ ts, u.ttu.triggers[t.1].armed = true :=
        List.any_eq_true
      refine ⟨fun busy => ?_, fun free => ?_⟩
      · exact exec_taken hc rfl ((writeTriggers_read hne read).trans (if_pos (armed.2 busy)))
      · refine exec_taken hc rfl ((writeTriggers_read hne read).trans (if_neg (mt armed.1 ?_)))
        rintro ⟨t, ht, on⟩
        exact Bool.false_ne_true ((free t ht).symm.trans on)
    · exact exec_taken hc rfl (writeCaptures_unread bad)
    · exact exec_taken hc rfl (writeCaptures_read hne read)
    · exact exec_taken hc rfl (writeCompares_unread bad)
    · exact exec_taken hc rfl (writeCompares_read hne read)
  case items =>
    intro kinds known qualifier
    refine ⟨fun a => ⟨triggerOf_isSome_iff a, fun i t read => ?_⟩,
      fun p => ⟨captureOf_isSome_iff p, fun i src read => ?_⟩, fun a => ⟨compareOf_isSome_iff a, fun i x read => compareOf_value read⟩⟩
    · obtain ⟨number, factor, actions, chain, mode, -, armed, guarded⟩ := (triggerOf_eq_some_iff a i t).1 read
      obtain ⟨none, event⟩ := factorOf_value factor
      exact ⟨(finOf_eq_some_iff i).1 number, armed, maskOf_value chain, guarded, triggerModeOf_value mode, none, event,
        eq_map_of_mapM actionOf_value actions⟩
    · obtain ⟨number, source⟩ := (captureOf_eq_some_iff p i src).1 read
      exact ⟨(finOf_eq_some_iff i).1 number, sourceOf_value source⟩
  case settings =>
    intro h pairs s hc u done
    refine ⟨fun bad => exec_taken hc rfl (writeSettings_unread bad), ?_⟩
    intro ns hne names taken
    refine exec_taken hc rfl ((writeSettings_read hne names).trans (congrArg (fun f => forEach _ f _) ?_))
    funext ⟨n, x⟩ v
    cases n <;> rfl
  case ranges => exact ⟨by decide, rfl, by decide⟩

end Sys2Proof.Proofs
end

section
/-! PROOFS. Compare match and tick: the compare test of an advance, the expiries and the advance itself (R83, R170, R174, R175;
log entry 4). -/

namespace Sys2Proof.Machine

/-! ## The compare test (R174, R175) -/

theorem matching_eq (s : State) : matching s = (List.finRange 4).filter fun c : Fin 4 =>
    s.ttu.compareOwed[c] && s.ttu.compares[c].enabled && decide (s.ttu.compares[c].value = s.ttu.time) := by
  simp only [matching, CompareSlot.matchesAt, Bool.and_assoc]

/-- The level of a line once slots have acted: that of the first slot that masks it, the held door line excepted (R175,
R176). -/
def levelAfter (cs : List (Fin 4)) (s : State) (l : Fin 8) : Bool :=
  match cs.find? fun c : Fin 4 => s.ttu.compares[c].lineMask.getLsbD l with
  | none => s.ttu.lines.getLsbD l
  | some c => if s.ldr.doorHold = some l then s.ttu.lines.getLsbD l else s.ttu.compares[c].lineData.getLsbD l

theorem levelAfter_held {cs : List (Fin 4)} {s : State} {l : Fin 8} (held : s.ldr.doorHold = some l) :
    levelAfter cs s l = s.ttu.lines.getLsbD l := by
  unfold levelAfter
  split
  · rfl
  · exact if_pos held

theorem levelAfter_cons (c : Fin 4) (cs : List (Fin 4)) (s : State) (l : Fin 8) : levelAfter (c :: cs) s l =
    if s.ttu.compares[c].lineMask.getLsbD l = true ∧ s.ldr.doorHold ≠ some l then s.ttu.compares[c].lineData.getLsbD l
    else levelAfter cs s l := by
  by_cases held : s.ldr.doorHold = some l
  · rw [levelAfter_held held, levelAfter_held held, if_neg fun free => free.2 held]
  · cases masked : s.ttu.compares[c].lineMask.getLsbD l with
    | true =>
      rw [if_pos ⟨rfl, held⟩, levelAfter, List.find?_cons, masked]
      exact if_neg held
    | false =>
      rw [if_neg fun own => Bool.false_ne_true own.1, levelAfter, List.find?_cons, masked]
      rfl

/-- Slots that act from the last to the first: of the state they write the lines alone (R175). -/
theorem compareLines_each (cs : List (Fin 4)) (s : State) : ∃ lines : BitVec 8,
    forEach cs.reverse compareLines s = { s with ttu := { s.ttu with lines := lines } } ∧
      ∀ l : Fin 8, lines.getLsbD l = levelAfter cs s l := by
  induction cs with
  | nil => exact ⟨s.ttu.lines, rfl, fun l => rfl⟩
  | cons c cs ih =>
    obtain ⟨lines, later, levels⟩ := ih
    let v : State := { s with ttu := { s.ttu with lines := lines } }
    have last : forEach (c :: cs).reverse compareLines s = compareLines c v := by
      rw [List.reverse_cons, forEach, List.foldl_append]
      exact congrArg (compareLines c) later
    refine ⟨(compareLines c v).ttu.lines, last, fun l => ?_⟩
    rw [levelAfter_cons, ← levels]
    exact writeLines_line _ _ v l

theorem compareLines_lines {cs : List (Fin 4)} {s : State} {lines : BitVec 8}
    (levels : ∀ l : Fin 8, lines.getLsbD l = levelAfter cs s l) :
    forEach cs.reverse compareLines s = { s with ttu := { s.ttu with lines := lines } } := by
  obtain ⟨written, acted, same⟩ := compareLines_each cs s
  rw [acted, BitVec.eq_of_getLsbD_eq (x := written) (y := lines) fun l hl => (same ⟨l, hl⟩).trans (levels ⟨l, hl⟩).symm]

/-- The slots that match disable themselves (R175). -/
theorem disableSlots_eq (cs : List (Fin 4)) (once : cs.Nodup) (s : State) :
    forEach cs (fun c => modTtu fun t => { t with compares := upd t.compares c fun x => { x with enabled := false } }) s =
      { s with ttu := { s.ttu with compares := Vector.ofFn fun c : Fin 4 =>
        if c ∈ cs then { s.ttu.compares[c] with enabled := false } else s.ttu.compares[c] } } := by
  refine (forEach_compares cs s (fun c v => upd v c fun x => { x with enabled := false }) fun c s => rfl).trans ?_
  rw [foldl_upd _ once]

theorem compareMatch_eq (s : State) (lines : BitVec 8)
    (written : forEach (matching s).reverse compareLines s = { s with ttu := { s.ttu with lines := lines } }) :
    compareMatch s = (matching s).foldl
      (fun v (c : Fin 4) => takeEvent .compare (some c.val) v.ttu.compares[c].triggerMask v)
      { s with ttu := { s.ttu with
        lines := lines
        compareOwed := #v[false, false, false, false]
        compares := Vector.ofFn fun c : Fin 4 =>
          if c ∈ matching s then { s.ttu.compares[c] with enabled := false } else s.ttu.compares[c] } } := by
  have once : (matching s).Nodup := (List.nodup_finRange 4).filter _
  unfold compareMatch
  dsimp only
  rw [written, disableSlots_eq _ once]
  rfl

/-- With no test owed the compare test changes nothing (log entry 21). -/
theorem compareMatch_none {s : State} (none : ∀ c : Fin 4, s.ttu.compareOwed[c] = false) : compareMatch s = s := by
  have nothing : matching s = [] := by
    rw [matching, List.filter_eq_nil_iff]
    intro c _
    rw [none c, Bool.false_and]
    exact Bool.false_ne_true
  have cleared : Vector.replicate 4 false = s.ttu.compareOwed :=
    Vector.ext fun c hc => (Vector.getElem_replicate hc).trans (none ⟨c, hc⟩).symm
  unfold compareMatch
  rw [nothing]
  show modTtu (fun t => { t with compareOwed := Vector.replicate 4 false }) s = s
  rw [cleared]
  rfl

/-! ## The tick (R83, R170; log entry 4) -/

theorem countStarve_each (s : State) : forEach allLanes countStarve s = { s with
    gov := Vector.ofFn fun n : LaneId =>
      let g := s.gov[n]
      if s.lanes[n].state = .hold then { g with starve := min 4294967295 (g.starve + 1) } else g } := by
  have one (n : LaneId) (s : State) : countStarve n s = { s with gov := upd s.gov n fun g =>
      if s.lanes[n].state = .hold then { g with starve := min 4294967295 (g.starve + 1) } else g } := by
    unfold countStarve
    split
    · rfl
    · rw [upd_self _ _ _ rfl]
  have each (l : List LaneId) (s : State) : forEach l countStarve s = { s with gov := l.foldl (fun v n => upd v n fun g =>
      if s.lanes[n].state = .hold then { g with starve := min 4294967295 (g.starve + 1) } else g) s.gov } := by
    induction l generalizing s with
    | nil => rfl
    | cons n l ih =>
      refine (congrArg (forEach l countStarve) (one n s)).trans (ih _)
  rw [each, show allLanes = List.finRange 4 from rfl, foldl_upd_finRange]

theorem advance_eq (s : State) : advance s = { s with
    ttu := { s.ttu with
      time := s.ttu.time + 1
      compareOwed := s.ttu.compares.map fun x => x.enabled && decide (x.value = s.ttu.time + 1) }
    gov := Vector.ofFn fun n : LaneId =>
      let g := s.gov[n]
      if s.lanes[n].state = .hold then { g with starve := min 4294967295 (g.starve + 1) } else g } :=
  countStarve_each _

theorem expiries_eq : expiries = [compareMatch,
    commandTimeout 0, sealAge 0, windowExpiry 0, commandTimeout 1, sealAge 1, windowExpiry 1,
    commandTimeout 2, sealAge 2, windowExpiry 2, commandTimeout 3, sealAge 3, windowExpiry 3,
    travelStep, fun s => homingStep s.ldr.homeSensor s, gripTimeout] := rfl

end Sys2Proof.Machine

namespace Sys2Proof.Proofs

open Sys2Proof Sys2Proof.Machine

/-- Settles O56: the compare test by its lines, its slots and its waves; the tick by its list of expiries and the advance. -/
theorem compareMatchAndTick : Obligations.CompareMatchAndTick := by
  intro lines s u found
  have matched : matching u = found := matching_eq u
  refine ⟨fun none => ?_, fun levels => ?_, ?_, fun n homeActive v => ⟨rfl, rfl, rfl, rfl, rfl, rfl, rfl⟩⟩
  · exact outside_congr (compareMatch_none none)
  · rw [← matched] at levels ⊢
    exact outside_congr (compareMatch_eq u lines (compareLines_lines levels))
  · intro tried v starved
    have swept : forEach expiries expire u = v := by rw [expiries_eq]; rfl
    refine (exec_timeBaseTick s).trans (outside_congr ?_)
    show advance (forEach expiries expire u) = _
    rw [swept]
    exact advance_eq v

end Sys2Proof.Proofs
end

section
/-! PROOFS. Time unit spared: the work of other blocks that an action can start leaves the time unit, or of it all but the
library lines (R73, R74, R115, R125, R153, R154, R167). -/

namespace Sys2Proof.Machine

/-! ## Lanes and pages (R43, R44, R73, R74) -/

section
variable (n : LaneId) (s : State)

@[simp] theorem offerNotice_ttu (b : NoticeBody) : (offerNotice b s).ttu = s.ttu := by rw [offerNotice_frame]
@[simp] theorem setNeedsLocate_ttu (b : Bool) : (setNeedsLocate n b s).ttu = s.ttu := by rw [setNeedsLocate_frame]
@[simp] theorem setLaneState_ttu (st : LaneState) : (setLaneState n st s).ttu = s.ttu := by rw [setLaneState_frame]
@[simp] theorem releasePlace_ttu : (releasePlace n s).ttu = s.ttu := by obtain ⟨_, h⟩ := releasePlace_frame n s; rw [h]
@[simp] theorem laneReport_ttu : (laneReport n s).ttu = s.ttu := by simp only [laneReport, post_ttu]
@[simp] theorem sendCommand_ttu (c : DriveCommand) : (sendCommand n c s).ttu = s.ttu := rfl
@[simp] theorem takeRead_ttu (k : Nat) : (takeRead k s).ttu = s.ttu := rfl
@[simp] theorem waitRead_ttu (c : ReadClient) (k : Nat) : (waitRead c k s).ttu = s.ttu := rfl
@[simp] theorem modRecord_ttu (i : CartId) (f : Cart → Cart) : (modRecord i f s).ttu = s.ttu := rfl

theorem LetsGo.ttu {t : State} (h : LetsGo n s t) : t.ttu = s.ttu := by
  obtain ⟨_, _, _, _, -, rfl⟩ := h
  rfl

@[simp] theorem withdrawRead_ttu (c : ReadClient) : (withdrawRead c s).ttu = s.ttu := (letsGo_withdrawRead 0 c s).ttu
@[simp] theorem freeRead_ttu (k : Nat) : (freeRead k s).ttu = s.ttu := (letsGo_freeRead 0 k s).ttu
@[simp] theorem emptySlot_ttu (c : ReadClient) : (emptySlot c s).ttu = s.ttu := (letsGo_emptySlot 0 c s).ttu
@[simp] theorem withdrawPass_ttu : (withdrawPass n s).ttu = s.ttu := (letsGo_withdrawPass n s).ttu

@[simp] theorem endPass_ttu (res : VerifyResult) : (endPass n res s).ttu = s.ttu := by
  by_cases idle : s.vfy.contexts[n].state = .idle
  · rw [endPass_of_idle idle]
  · rw [endPass_of_pass idle]
    simp [passNotice]

@[simp] theorem sendEject_ttu : (sendEject n s).ttu = s.ttu := by simp [sendEject]

@[simp] theorem becomeReady_ttu : (becomeReady n s).ttu = s.ttu := by simp [becomeReady]

@[simp] theorem grantRestore_ttu : (grantRestore n s).ttu = s.ttu := by
  unfold grantRestore
  dsimp only
  split <;> simp

@[simp] theorem doRelease_ttu : (doRelease n s).ttu = s.ttu := by
  unfold doRelease
  dsimp only
  split
  · simp
  · split <;> simp

@[simp] theorem releaseLane_ttu : (releaseLane n s).ttu = s.ttu := by
  unfold releaseLane
  split <;> simp

@[simp] theorem leaveLane_ttu : (leaveLane n s).ttu = s.ttu := by
  unfold leaveLane
  split
  · simp
  · split <;> simp

@[simp] theorem laneRead_ttu (b : Nat) : (laneRead n b s).ttu = s.ttu := by
  unfold laneRead
  dsimp only
  split
  · rfl
  · split <;> simp

/-! ## Verify passes (R152 to R154) -/

@[simp] theorem raiseVerified_ttu (c : VerifyContext) : (raiseVerified c s).ttu = s.ttu := by
  unfold raiseVerified
  split
  · rfl
  · split <;> simp

@[simp] theorem completePass_ttu : (completePass n s).ttu = s.ttu := by
  unfold completePass passNotice
  simp only [post_ttu, offerNotice_ttu]
  split <;> simp

@[simp] theorem passPages_ttu : (passPages n s).ttu = s.ttu := by
  unfold passPages passRead
  dsimp only
  split <;> simp

@[simp] theorem passAdvance_ttu : (passAdvance n s).ttu = s.ttu := by
  unfold passAdvance
  dsimp only
  split
  · simp
  · split <;> simp

@[simp] theorem grantVerify_ttu : (grantVerify n s).ttu = s.ttu := by
  unfold grantVerify
  dsimp only
  split <;> simp

@[simp] theorem resumePass_ttu : (resumePass n s).ttu = s.ttu := by
  unfold resumePass
  dsimp only
  split <;> simp

@[simp] theorem suspendPass_ttu (cause : SuspendCause) : (suspendPass n cause s).ttu = s.ttu := by
  unfold suspendPass
  dsimp only
  split
  · simp
  · simp
  · split
    · simp
    · simp
    · split <;> simp
    · simp

end

/-! ## A plan's failure and a stop (R115, R125, R167) -/

section
variable (s : State)

@[simp] theorem finishRestore_ttu (r : RestoreResult) : (finishRestore r s).ttu = s.ttu := by
  unfold finishRestore restoreNotice
  split
  · rfl
  · dsimp only
    split <;> simp

theorem verifyPlanEnded_ttu (i : Option CartId) (r : PlanReason) : (verifyPlanEnded i (some r) s).ttu = s.ttu := by
  unfold verifyPlanEnded requestNotice
  split <;> simp

theorem restorePlanEnded_ttu (i : Option CartId) (lane : Option LaneId) (r : PlanReason) :
    (restorePlanEnded i lane (some r) s).ttu = s.ttu := by
  unfold restorePlanEnded
  split
  · rfl
  · split <;> simp

theorem tellEngines_ttu (m : MountRequest) (p : Plan) (r : PlanReason) : (tellEngines m p (some r) s).ttu = s.ttu := by
  have verify : (if hasRequester .verify m = true then verifyPlanEnded m.cart (some r) s else s).ttu = s.ttu := by
    split
    · exact verifyPlanEnded_ttu s _ r
    · rfl
  unfold tellEngines
  dsimp only
  split
  · exact (restorePlanEnded_ttu _ _ _ r).trans verify
  · exact verify

/-- A plan's end can drive the held door line to 0; the trigger sets stand (R127). -/
@[simp] theorem planFails_triggers (r : PlanReason) : (planFails r s).ttu.triggers = s.ttu.triggers := by
  have ended (m : MountRequest) (p : Plan) (b : NoticeBody) :
      (afterPlan (tellEngines m p (some r) (offerNotice b (closePlan s)))).ttu.triggers = s.ttu.triggers := by
    rw [afterPlan_eq, releaseDoor_eq]
    dsimp only
    rw [tellEngines_ttu, offerNotice_ttu]
    rfl
  unfold planFails
  split
  · exact ended _ _ _
  · rfl

@[simp] theorem loaderStop_triggers (mode : StopMode) : (loaderStop mode s).ttu.triggers = s.ttu.triggers := by
  unfold loaderStop
  split
  · rfl
  · dsimp only
    split <;> simp
  · dsimp only
    split <;> simp
  · rfl

end

/-! ## Actions (R179) -/

theorem act_triggers (i : Fin 8) (w : Happening) (a : Action) (s : State) :
    (act i w a s).ttu.triggers = s.ttu.triggers := by
  cases a with
  | capture slot => rfl
  | lines m d => rfl
  | stop mode => exact loaderStop_triggers s mode
  | suspendVerify n => simp only [act, serverSuspend]; split <;> simp
  | resumeVerify n => simp only [act, serverResume]; split <;> simp
  | notice code => simp [act]
  | compareArm c delay => rfl

theorem actions_triggers (i : Fin 8) (w : Happening) (l : List Action) (s : State) :
    (forEach l (act i w) s).ttu.triggers = s.ttu.triggers := by
  induction l generalizing s with
  | nil => rfl
  | cons a l ih => exact (ih _).trans (act_triggers i w a s)

end Sys2Proof.Machine
end

section
/-! PROOFS. Waves: what the unit does with an event, the wave that it starts, and what its sets' actions do (R171, R172, R178
to R180). -/

namespace Sys2Proof.Machine

/-! ## The sets that have acted (R178) -/

/-- Trigger sets after those of a list have acted: of them, a set of mode ONCE stands disarmed. -/
def spent (acted : List (Fin 8)) (v : Vector TriggerSet 8) : Vector TriggerSet 8 :=
  Vector.ofFn fun i => { v[i] with armed := v[i].armed && !(decide (i ∈ acted) && decide (v[i].mode = .once)) }

theorem spent_get (acted : List (Fin 8)) (v : Vector TriggerSet 8) (i : Fin 8) : (spent acted v)[i] =
    { v[i] with armed := v[i].armed && !(decide (i ∈ acted) && decide (v[i].mode = .once)) } :=
  Vector.getElem_ofFn i.2

theorem spent_nil (v : Vector TriggerSet 8) : spent [] v = v := by
  refine Vector.ext fun i hi => (spent_get [] v ⟨i, hi⟩).trans ?_
  simp

/-- A set that acts besides: in mode ONCE it is disarmed. -/
theorem spent_append (acted : List (Fin 8)) (i : Fin 8) (v : Vector TriggerSet 8) : spent (acted ++ [i]) v =
    if v[i].mode = .once then upd (spent acted v) i fun t => { t with armed := false } else spent acted v := by
  have each (j : Fin 8) : (spent (acted ++ [i]) v)[j] =
      (if v[i].mode = .once then upd (spent acted v) i fun t => { t with armed := false } else spent acted v)[j] := by
    by_cases once : v[i].mode = .once
    · rw [if_pos once, upd_get, spent_get]
      by_cases same : j = i
      · subst same
        rw [if_pos rfl, spent_get]
        simp [-Fin.getElem_fin, once]
      · rw [if_neg same, spent_get]
        simp [-Fin.getElem_fin, same]
    · rw [if_neg once, spent_get, spent_get]
      by_cases same : j = i
      · subst same
        simp [-Fin.getElem_fin, once]
      · simp [-Fin.getElem_fin, same]
  exact Vector.ext fun j hj => each ⟨j, hj⟩

theorem actSet_triggers (i : Fin 8) (w : Happening) (s : State) : (actSet i w s).ttu.triggers =
    if s.ttu.triggers[i].mode = .once then upd s.ttu.triggers i fun t => { t with armed := false }
    else s.ttu.triggers := by
  unfold actSet
  dsimp only
  split
  · exact congrArg (fun v => upd v i fun t => { t with armed := false }) (actions_triggers i w _ s)
  · exact actions_triggers i w _ s

/-- Where a wave stands that started in state `a`: the sets that have acted did so once each, were armed at the start, and
what has happened to the sets since is their disarming. -/
structure WaveStands (a : State) (acted : List (Fin 8)) (s : State) : Prop where
  triggers : s.ttu.triggers = spent acted a.ttu.triggers
  once : acted.Nodup
  armed : ∀ i ∈ acted, a.ttu.triggers[i].armed = true

theorem WaveStands.start (a : State) : WaveStands a [] a :=
  ⟨(spent_nil _).symm, List.nodup_nil, fun _ h => absurd h List.not_mem_nil⟩

section
variable {a s : State} {acted : List (Fin 8)}

theorem WaveStands.armed_eq (h : WaveStands a acted s) (i : Fin 8) : s.ttu.triggers[i].armed =
    (a.ttu.triggers[i].armed && !(decide (i ∈ acted) && decide (a.ttu.triggers[i].mode = .once))) := by
  rw [h.triggers, spent_get]

/-- A set that acts (R178). -/
theorem WaveStands.acts (h : WaveStands a acted s) (w : Happening) {i : Fin 8} (fresh : i ∉ acted)
    (armed : s.ttu.triggers[i].armed = true) : WaveStands a (acted ++ [i]) (actSet i w s) := by
  have was : a.ttu.triggers[i].armed = true := by
    rw [h.armed_eq] at armed
    exact (Bool.and_eq_true_iff.1 armed).1
  refine ⟨?_, List.nodup_append.2 ⟨h.once, List.nodup_singleton i, ?_⟩, ?_⟩
  · have mode : s.ttu.triggers[i].mode = a.ttu.triggers[i].mode := by rw [h.triggers, spent_get]
    rw [actSet_triggers, mode, h.triggers, spent_append]
  · rintro j hj k hk rfl
    exact fresh (List.mem_singleton.1 hk ▸ hj)
  · intro j hj
    rcases List.mem_append.1 hj with old | new
    · exact h.armed j old
    · rw [List.mem_singleton.1 new]
      exact was

/-! ## The rounds of a wave (R178) -/

theorem waveRounds_passes (w : Happening) (k : Nat) {i : Fin 8} (rest : List (Fin 8))
    (passed : acted.contains i = true ∨ s.ttu.triggers[i].armed = false) :
    waveRounds w (k + 1) (i :: rest) acted s = waveRounds w k rest acted s := if_pos passed

theorem waveRounds_acts (w : Happening) (k : Nat) {i : Fin 8} (rest : List (Fin 8)) (fresh : i ∉ acted)
    (armed : s.ttu.triggers[i].armed = true) : waveRounds w (k + 1) (i :: rest) acted s =
      waveRounds w k (rest ++ chained i (acted ++ [i]) rest (actSet i w s)) (acted ++ [i]) (actSet i w s) :=
  if_neg (by simp [-Fin.getElem_fin, fresh, armed])

theorem waveRounds_stands (h : WaveStands a acted s) (w : Happening) (k : Nat) (l : List (Fin 8)) :
    WaveStands a (waveRounds w k l acted s).1 (waveRounds w k l acted s).2 := by
  induction k generalizing l acted s with
  | zero => exact h
  | succ k ih =>
    cases l with
    | nil => exact h
    | cons i rest =>
      by_cases passed : acted.contains i = true ∨ s.ttu.triggers[i].armed = false
      · rw [waveRounds_passes w k rest passed]
        exact ih h rest
      · obtain ⟨fresh, armed⟩ : i ∉ acted ∧ s.ttu.triggers[i].armed = true := by simpa using passed
        rw [waveRounds_acts w k rest fresh armed]
        exact ih (h.acts w fresh armed) _

theorem waveRounds_keeps (w : Happening) (k : Nat) (l acted : List (Fin 8)) (s : State) :
    acted ⊆ (waveRounds w k l acted s).1 := by
  induction k generalizing l acted s with
  | zero => exact List.Subset.refl _
  | succ k ih =>
    cases l with
    | nil => exact List.Subset.refl _
    | cons i rest =>
      unfold waveRounds
      split
      · exact ih rest acted s
      · exact List.Subset.trans (List.subset_append_left _ _) (ih _ _ _)

/-- Within as many rounds as it has sets before it a set of the list is reached, and acts if it was armed at the start. -/
theorem waveRounds_reaches (h : WaveStands a acted s) (w : Happening) (k : Nat) (l : List (Fin 8)) {i : Fin 8}
    (waits : i ∈ l.take k) (armed : a.ttu.triggers[i].armed = true) : i ∈ (waveRounds w k l acted s).1 := by
  induction k generalizing l acted s with
  | zero => exact absurd waits (by simp)
  | succ k ih =>
    cases l with
    | nil => exact absurd waits (by simp)
    | cons j rest =>
      rw [List.take_succ_cons, List.mem_cons] at waits
      by_cases passed : acted.contains j = true ∨ s.ttu.triggers[j].armed = false
      · rw [waveRounds_passes w k rest passed]
        rcases waits with rfl | later
        · refine waveRounds_keeps w k rest acted s ?_
          rcases passed with did | off
          · simpa using did
          · rw [h.armed_eq, armed] at off
            exact (show i ∈ acted ∧ a.ttu.triggers[i].mode = .once by simpa [-Fin.getElem_fin] using off).1
        · exact ih h rest later
      · obtain ⟨fresh, on⟩ : j ∉ acted ∧ s.ttu.triggers[j].armed = true := by simpa using passed
        rw [waveRounds_acts w k rest fresh on]
        rcases waits with rfl | later
        · exact waveRounds_keeps w k _ _ _ (by simp)
        · refine ih (h.acts w fresh on) _ ?_
          rw [List.take_append]
          exact List.mem_append_left _ later

end

theorem wave_stands (w : Happening) (start : List (Fin 8)) (s : State) :
    WaveStands s (wave w start s).1 (wave w start s).2 := waveRounds_stands (.start s) w 72 start

/-- Eight sets at most start a wave, and its 72 rounds reach them all. -/
theorem wave_reaches (w : Happening) {start : List (Fin 8)} (once : start.Nodup) {i : Fin 8} {s : State}
    (starts : i ∈ start) (armed : s.ttu.triggers[i].armed = true) : i ∈ (wave w start s).1 := by
  have few : start.length ≤ 8 := once.length_le_card
  refine waveRounds_reaches (.start s) w 72 start ?_ armed
  rwa [List.take_of_length_le (by omega)]

/-! ## An event taken (R171, R172, R178, R180) -/

/-- A fault's disarming of the fault-guarded sets, and any other event's of none (R180). -/
theorem guardDisarm_eq (k : EventKind) (s : State) : guardDisarm k s = { s with ttu := { s.ttu with
    triggers := s.ttu.triggers.map fun t =>
      { t with armed := t.armed && !(decide (k = .laneFault ∨ k = .moveFault) && t.faultGuard) } } } := by
  unfold guardDisarm
  split
  · next fault => simp [fault, modTtu]
  · next other => simp [other]

/-- A capture slot that an event finds: full with the event if its source selects it (R172). -/
def caught (k : EventKind) (q : Option Nat) (w : Happening) (c : CaptureSlot) : CaptureSlot :=
  if c.source.selects k q = true then
    { c with full := true, lost := c.lost || c.full, kind := some w.kind, time := w.time, position := w.position,
             qual := w.qual }
  else c

theorem captures_eq (k : EventKind) (q : Option Nat) (w : Happening) (s : State) :
    forEach allEight (fun i s => if s.ttu.captures[i].source.selects k q = true then captureInto i w s else s) s =
      { s with ttu := { s.ttu with captures := s.ttu.captures.map (caught k q w) } } := by
  refine (forEach_captures allEight s (fun i v => upd v i (caught k q w)) fun i s => ?_).trans ?_
  · split
    · next selected =>
      exact congrArg (fun v : Vector CaptureSlot 8 => ({ s with ttu := { s.ttu with captures := v } } : State))
        (upd_congr _ _ _ _ (if_pos selected).symm)
    · next other => rw [upd_self _ _ (caught k q w) (if_neg other)]
  · have each : (Vector.ofFn fun i : Fin 8 => caught k q w s.ttu.captures[i]) = s.ttu.captures.map (caught k q w) :=
      Vector.ext fun i hi => by simp
    rw [allEight, foldl_upd_finRange, each]

/-- The state in which an event's wave starts: the fault guard and the captures made (R171, R172, R180). -/
def eventTaken (k : EventKind) (q : Option Nat) (s : State) : State := { s with ttu := { s.ttu with
  triggers := s.ttu.triggers.map fun t =>
    { t with armed := t.armed && !(decide (k = .laneFault ∨ k = .moveFault) && t.faultGuard) }
  captures := s.ttu.captures.map (caught k q (eventNow k q s)) } }

theorem takeEvent_eq (k : EventKind) (q : Option Nat) (mask : BitVec 8) (s : State) : takeEvent k q mask s =
    (wave (eventNow k q s) ((List.finRange 8).filter fun i : Fin 8 => (eventTaken k q s).ttu.triggers[i].armed &&
      (mask.getLsbD i || (eventTaken k q s).ttu.triggers[i].factor.selects k q)) (eventTaken k q s)).2 := by
  unfold takeEvent
  dsimp only
  rw [captures_eq, guardDisarm_eq]
  rfl

end Sys2Proof.Machine

namespace Sys2Proof.Proofs

open Sys2Proof Sys2Proof.Machine

/-- Settles O57: an event by its captures and the wave's start, a wave by where it stands after each round, each action by
its own effect. -/
theorem eventsWavesAndActions : Obligations.EventsWavesAndActions := by
  refine ⟨?taken, fun e s => rfl, ?wave, ?acts⟩
  case taken =>
    intro kind qual mask u picked guard v now
    have selects (k : EventKind) (q : Option Nat) : Machine.selects k q kind qual = picked k q := by
      simp [Machine.selects, picked, Bool.decide_and, Bool.decide_or]
    have captures : u.ttu.captures.map (caught kind qual now) = v.ttu.captures := by
      refine congrArg u.ttu.captures.map (funext fun c => ?_)
      obtain ⟨source, full, lost, was, time, position, q⟩ := c
      cases source with
      | byAction => rfl
      | event k q => exact if_congr (Bool.eq_iff_iff.1 (selects k q)) rfl rfl
    have taken : eventTaken kind qual u = v := by
      rw [eventTaken, show eventNow kind qual u = now from rfl, captures]
    rw [takeEvent_eq, taken]
    refine congrArg (fun start => (wave now start v).2) (List.filter_congr fun i _ => ?_)
    refine congrArg (fun b => v.ttu.triggers[i].armed && (mask.getLsbD i || b)) ?_
    cases v.ttu.triggers[i].factor with
    | none => rfl
    | event k q => exact selects k q
  case wave =>
    intro w start s once r
    have stands := wave_stands w start s
    refine ⟨stands.once, stands.armed, fun i armed => ?_, stands.armed_eq,
      fun i starts armed => wave_reaches w once starts armed, ?_⟩
    · rw [stands.armed_eq] at armed
      exact (Bool.and_eq_true_iff.1 armed).1
    · intro i rest acted k v fresh armed t done x
      exact waveRounds_acts w k rest fresh armed
  case acts =>
    intro i slot c n w m d code delay mode s
    refine ⟨rfl, ⟨_, rfl, writeLines_line m d s⟩, rfl, rfl, fun still => ?_, fun homing => loaderStop_homing homing,
      fun moving => ?_, fun halted => if_neg halted, fun runs => if_pos runs, fun refused => if_neg ?_,
      fun halted grants => if_pos ⟨halted, grants⟩⟩
    · show loaderStop mode s = s
      unfold loaderStop
      rcases still with h | h | h <;> rw [h]
    · intro now stopping
      have step : currentStep s = now := currentStep_moving moving
      refine ⟨fun l travel => (loaderStop_travel moving (step.trans travel)).trans ?_,
        fun m eject => loaderStop_eject moving (step.trans eject),
        fun travel eject => loaderStop_other moving (fun l => step ▸ travel l) (fun m => step ▸ eject m)⟩
      rfl
    · rintro ⟨halted, grants⟩
      rcases refused with other | none
      · exact other halted
      · exact Bool.false_ne_true (none.symm.trans grants)

end Sys2Proof.Proofs
end

section
/-! PROOFS. Time and tables: what each command leaves of the time base, the settings and the speed, ramp and positions
tables (R82, R111, R112, R170, R186, R190). -/

namespace Sys2Proof.Machine

/-! ## The tick (R170; log entry 4) -/

theorem still_expire {f : State → State} (hf : ∀ t, Keeps t (f t)) (s : State) : Still s (expire f s) :=
  ((hf s).still.trans (still_choose _)).trans (still_settle _)

theorem still_expireAll {l : List (State → State)} (hl : ∀ f ∈ l, ∀ t, Keeps t (f t)) (s : State) :
    Still s (forEach l expire s) := by
  induction l generalizing s with
  | nil => exact Still.refl s
  | cons f rest ih =>
    exact (still_expire (hl f List.mem_cons_self) s).trans (ih (fun g hg => hl g (List.mem_cons_of_mem f hg)) _)

theorem tick_advances (s : State) : (tick s).ttu.time = s.ttu.time + 1 := by
  have swept := still_expireAll keeps_expiries s
  unfold tick
  generalize forEach expiries expire s = u at swept
  obtain ⟨g, e, -⟩ := advance_frame u
  rw [e]
  exact congrArg (· + 1) swept.time

theorem tick_tables (s : State) : (tick s).settings = s.settings ∧ (tick s).tables = s.tables := by
  have swept := still_expireAll keeps_expiries s
  unfold tick
  generalize forEach expiries expire s = u at swept
  obtain ⟨g, e, -⟩ := advance_frame u
  rw [e]
  exact ⟨swept.settings, swept.tables⟩

/-! ## Frames and the frames held at the server (R170, R184, R193) -/

theorem takeFrame_time (c : Instr) (s : State) : (takeFrame (heldEffect c) s).ttu.time = s.ttu.time :=
  (still_choose _).time.trans ((framed_heldEffect c (settle s)).time.trans (still_settle s).time)

theorem receive_time (c : Instr) (s : State) : (receive c (heldEffect c) s).ttu.time = s.ttu.time := by
  unfold receive
  split
  · exact takeFrame_time c s
  · rfl

theorem takeHeld_time (l : List Instr) (s : State) : (takeHeld l s).ttu.time = s.ttu.time := by
  induction l generalizing s with
  | nil => rfl
  | cons c rest ih =>
    unfold takeHeld
    split
    · exact (ih _).trans (takeFrame_time c s)
    · rfl

theorem resumeReception_time (s : State) : (resumeReception s).ttu.time = s.ttu.time := takeHeld_time _ _

/-! ## The end of a frame, and the resets (R187, R190) -/

theorem resetDevice_time (cause : ResetCause) (s : State) : (resetDevice cause s).ttu.time = 0 :=
  resumeReception_time _

/-- The end of a frame leaves the time base, but for that of a PART_RESET reply, behind which the device resets. -/
theorem frameSent_time (s : State) : (frameSent s).ttu.time = s.ttu.time ∨ (frameSent s).ttu.time = 0 := by
  unfold frameSent
  split
  · exact .inl (still_choose s).time
  · dsimp only
    split
    · split
      · exact .inr rfl
      · exact .inl (still_choose _).time
    · exact .inl (still_choose _).time

/-! ## Commands -/

theorem still_outside {f : State → State} (hf : ∀ t, Keeps t (f t)) (s : State) : Still s (outside f s) :=
  ((still_settle s).trans (hf _).still).trans (still_choose _)

theorem still_commanded (d : Due) (s : State) : Still s (commanded d s) :=
  (keeps_runDue d (keeps_dueRest (s.due.erase d) s)).still.trans (still_choose _)

/-- A command that is no frame, no tick, no end of a frame and no reset leaves time and tables. -/
theorem exec_still {c : Instr} {s t : State} (e : exec c s = .next t) (frame : isFrame c = false)
    (tick : c ≠ .timeBaseTick) (sent : c ≠ .frameSent) (on : c ≠ .powerOn) (input : c ≠ .resetInput) : Still s t := by
  obtain ⟨f, keeps, he⟩ | ⟨d, he⟩ | rfl | rfl | rfl | rfl := exec_inner c frame
  · cases (he s).symm.trans e
    exact still_outside keeps s
  · cases (he s).symm.trans e
    exact still_commanded d s
  · exact absurd rfl tick
  · exact absurd rfl sent
  · exact absurd rfl on
  · exact absurd rfl input

theorem exec_timeBaseTick_time {s t : State} (e : exec .timeBaseTick s = .next t) : t.ttu.time = s.ttu.time + 1 := by
  rw [exec_timeBaseTick, Host.Outcome.next.injEq] at e
  rw [← e, outside, (still_choose _).time, tick_advances, (still_settle s).time]

theorem exec_timeBaseTick_tables {s t : State} (e : exec .timeBaseTick s = .next t) :
    t.settings = s.settings ∧ t.tables = s.tables := by
  rw [exec_timeBaseTick, Host.Outcome.next.injEq] at e
  obtain ⟨settings, tables⟩ := tick_tables (settle s)
  rw [← e, outside, (still_choose _).settings, settings, (still_settle s).settings, (still_choose _).tables, tables,
    (still_settle s).tables]
  exact ⟨rfl, rfl⟩

theorem exec_frameSent_time {s t : State} (e : exec .frameSent s = .next t) :
    t.ttu.time = s.ttu.time ∨ t.ttu.time = 0 := by
  cases (exec_frameSent s).symm.trans e
  rw [resumeReception_time, ← (still_settle s).time]
  exact frameSent_time _

theorem exec_frame_time {c : Instr} {s t : State} (e : exec c s = .next t) (frame : isFrame c = true) :
    t.ttu.time = s.ttu.time := by
  cases (exec_frame c s frame).symm.trans e
  exact receive_time c s

end Sys2Proof.Machine

namespace Sys2Proof.Proofs

open Sys2Proof Sys2Proof.Machine

/-- Settles O60: the tick advances the time base, the resets set it to 0, and every other command's own work leaves it, as
it leaves the tables unless a frame is taken. -/
theorem timeAndTablesMoveByRule : Obligations.TimeAndTablesMoveByRule := by
  constructor
  · intro c s t e
    refine ⟨?tick, ?other, ?reset, ?sent⟩
    case tick => rintro rfl; exact exec_timeBaseTick_time e
    case reset =>
      rintro (rfl | rfl)
      · cases (exec_powerOn s).symm.trans e
        exact resetDevice_time _ s
      · cases (exec_resetInput s).symm.trans e
        exact resetDevice_time _ s
    case sent => rintro rfl; exact exec_frameSent_time e
    case other =>
      intro tick on input sent
      cases frame : isFrame c with
      | true => exact exec_frame_time e frame
      | false => exact (exec_still e frame tick sent on input).time
  · intro c s t e frame on input sent
    by_cases tick : c = .timeBaseTick
    · subst tick
      exact exec_timeBaseTick_tables e
    · have still := exec_still e frame tick sent on input
      exact ⟨still.settings, still.tables⟩

end Sys2Proof.Proofs
end

section
/-! PROOFS. Byte order: the numbers that bytes spell, and the fields of a payload by their position (13, opening). -/

namespace Sys2Proof.Machine

@[simp] theorem be_length (k n : Nat) : (be k n).length = k := by
  induction k generalizing n with
  | zero => rfl
  | succ k ih => simp [be, ih]

theorem be_mod_mul (k m n : Nat) : be k (n % (256 ^ k * m)) = be k n := by
  induction k generalizing m with
  | zero => rfl
  | succ k ih =>
    have digit : n % (256 ^ (k + 1) * m) / 256 ^ k % 256 = n / 256 ^ k % 256 := by
      rw [pow_succ, mul_assoc, Nat.mod_mul_right_div_self, Nat.mod_mul_right_mod]
    have tail : be k (n % (256 ^ (k + 1) * m)) = be k n := by
      rw [pow_succ, mul_assoc]
      exact ih (256 * m)
    rw [be, be, tail]
    exact congrArg (· :: be k n) (BitVec.eq_of_toNat_eq digit)

/-- Only the low `k` bytes of a number are sent. -/
theorem be_mod (k n : Nat) : be k (n % 256 ^ k) = be k n := by simpa using be_mod_mul k 1 n

/-- Bytes read behind a number shift it up. -/
theorem foldl_bytes (bs : List Byte) (n : Nat) :
    bs.foldl (fun n (b : Byte) => n * 256 + b.toNat) n = n * 256 ^ bs.length + ofBe bs := by
  induction bs generalizing n with
  | nil => simp [ofBe]
  | cons c cs ih =>
    have lead : ofBe (c :: cs) = (0 * 256 + c.toNat) * 256 ^ cs.length + ofBe cs := ih _
    rw [List.foldl_cons, ih, lead, List.length_cons, pow_succ]
    ring

theorem ofBe_cons (b : Byte) (bs : List Byte) : ofBe (b :: bs) = b.toNat * 256 ^ bs.length + ofBe bs := by
  rw [ofBe, List.foldl_cons, foldl_bytes, zero_mul, zero_add]

theorem ofBe_single (b : Byte) : ofBe [b] = b.toNat := by
  rw [ofBe_cons, List.length_nil, pow_zero, mul_one]
  rfl

/-- A number is read back from its bytes where they hold it. -/
theorem ofBe_be {k n : Nat} (h : n < 256 ^ k) : ofBe (be k n) = n := by
  induction k generalizing n with
  | zero => exact (Nat.lt_one_iff.1 h).symm
  | succ k ih =>
    have lead : n / 256 ^ k < 256 := Nat.div_lt_of_lt_mul (by rwa [← pow_succ])
    have tail : be k n = be k (n % 256 ^ k) := (be_mod k n).symm
    rw [be, ofBe_cons, be_length, tail, ih (Nat.mod_lt _ (by positivity)), BitVec.toNat_ofNat, Nat.mod_eq_of_lt lead,
      mul_comm]
    exact Nat.div_add_mod n (256 ^ k)

@[simp] theorem ofBe_be_word (w : Word32) : ofBe (be 4 w.toNat) = w.toNat := ofBe_be w.isLt

/-- The field behind `front`, of as many bytes as `field` has, is `field`. -/
theorem field_at {front field : List Byte} {k n : Nat} (rest : List Byte) (hk : front.length = k)
    (hn : field.length = n) : ((front ++ field ++ rest).drop k).take n = field := by
  subst hk hn
  simp

end Sys2Proof.Machine
end

section
/-! PROOFS. Link: the queue of commands, frames and credits, the arbiter, replies and notices, STATUS and the resets of
the part (R183 to R193). -/

namespace Sys2Proof.Machine

variable {s t : State}

/-! ## Frames taken and held (R184, R193) -/

theorem exec_held {c : Instr} (hf : isFrame c = true) (hc : s.link.credit = false) :
    exec c s = .next (modLink (fun l => { l with waiting := l.waiting ++ [c] }) s) := by
  rw [exec_frame c s hf, receive, if_neg (by simp [hc])]

theorem takeHeld_cons_of_credit {c : Instr} {rest : List Instr} (hc : s.link.credit = true) :
    takeHeld (c :: rest) s = takeHeld rest (takeFrame (heldEffect c) s) := by
  rw [takeHeld, if_pos hc]

theorem takeHeld_cons_of_no_credit {c : Instr} {rest : List Instr} (hc : s.link.credit = false) :
    takeHeld (c :: rest) s = modLink (fun l => { l with waiting := c :: rest }) s := by
  rw [takeHeld, if_neg (by simp [hc])]

/-! ## The commands that wait (log entry 1) -/

theorem takeFrame_pending (c : Instr) (s : State) : (takeFrame (heldEffect c) s).pending = s.pending :=
  (still_choose _).pending.trans ((framed_heldEffect c (settle s)).pending.trans (still_settle s).pending)

theorem receive_pending (c : Instr) (s : State) : (receive c (heldEffect c) s).pending = s.pending := by
  unfold receive
  split
  · exact takeFrame_pending c s
  · rfl

theorem takeHeld_pending (l : List Instr) (s : State) : (takeHeld l s).pending = s.pending := by
  induction l generalizing s with
  | nil => rfl
  | cons c rest ih =>
    unfold takeHeld
    split
    · exact (ih _).trans (takeFrame_pending c s)
    · rfl

theorem resumeReception_pending (s : State) : (resumeReception s).pending = s.pending := takeHeld_pending _ _

theorem resetDevice_pending (cause : ResetCause) (s : State) : (resetDevice cause s).pending = s.pending :=
  resumeReception_pending _

theorem frameSent_pending (s : State) : (frameSent s).pending = s.pending := by
  unfold frameSent
  split
  · exact (still_choose s).pending
  · dsimp only
    split
    · split
      · rfl
      · exact (still_choose _).pending
    · exact (still_choose _).pending

theorem execFrameSent_pending (s : State) : (resumeReception (frameSent (settle s))).pending = s.pending :=
  (resumeReception_pending _).trans ((frameSent_pending _).trans (still_settle s).pending)

theorem tick_pending (s : State) : (tick s).pending = s.pending := by
  have swept := still_expireAll keeps_expiries s
  unfold tick
  generalize forEach expiries expire s = u at swept
  obtain ⟨g, e, -⟩ := advance_frame u
  rw [e]
  exact swept.pending

theorem outside_tick_pending (s : State) : (outside tick s).pending = s.pending :=
  (still_choose _).pending.trans ((tick_pending _).trans (still_settle s).pending)

/-- Every command answers a next state, by the kinds of command, and leaves the commands that wait. -/
theorem exec_next (c : Instr) (s : State) : ∃ t, exec c s = .next t ∧ t.pending = s.pending := by
  cases frame : isFrame c with
  | true => exact ⟨_, exec_frame c s frame, receive_pending c s⟩
  | false =>
    obtain ⟨f, keeps, he⟩ | ⟨d, he⟩ | rfl | rfl | rfl | rfl := exec_inner c frame
    · exact ⟨_, he s, (still_outside keeps s).pending⟩
    · exact ⟨_, he s, (still_commanded d s).pending⟩
    · exact ⟨_, exec_timeBaseTick s, outside_tick_pending s⟩
    · exact ⟨_, exec_frameSent s, execFrameSent_pending s⟩
    · exact ⟨_, exec_powerOn s, resetDevice_pending _ s⟩
    · exact ⟨_, exec_resetInput s, resetDevice_pending _ s⟩

/-! ## The owed tests and the arbiter (R187, R190; log entry 2) -/

theorem settleRounds_nil (k : Nat) (h : s.due = []) : settleRounds k s = s := by
  cases k with
  | zero => rfl
  | succ k => rw [settleRounds, h]

theorem settleRounds_cons {k : Nat} {d : Due} {rest : List Due} (h : s.due = d :: rest) :
    settleRounds (k + 1) s = settleRounds k (choose (runDue d { s with due := rest })) := by
  rw [settleRounds, h]

theorem choose_reply {r : Reply} {rest : List Reply} (free : s.link.sending = none) (h : s.link.replies = r :: rest) :
    choose s = modLink (fun l => { l with replies := rest, sending := some (.reply r) }) s := by
  simp only [choose, free, h]

theorem choose_resetReply (free : s.link.sending = none) (h : s.link.replies = []) (hold : s.link.resetReply = true) :
    choose s = s := by
  simp only [choose, free, h, hold, if_pos]

theorem choose_notice {n : Notice} {rest : List Notice} (free : s.link.sending = none) (h : s.link.replies = [])
    (go : s.link.resetReply = false) (hn : s.link.notices = n :: rest) :
    choose s = modLink (fun l => { l with notices := rest, sending := some (.notice n) }) s := by
  simp [choose, free, h, go, hn]

theorem choose_segment {g : Segment} (free : s.link.sending = none) (h : s.link.replies = [])
    (go : s.link.resetReply = false) (hn : s.link.notices = [])
    (hg : s.rse.active.bind RestoreContext.segment = some g) :
    choose s = segmentTaken g (modLink (fun l => { l with sending := some (.segment g) }) s) := by
  simp [choose, free, h, go, hn, hg]

theorem choose_nothing (free : s.link.sending = none) (h : s.link.replies = [])
    (go : s.link.resetReply = false) (hn : s.link.notices = [])
    (hg : s.rse.active.bind RestoreContext.segment = none) : choose s = s := by
  simp [choose, free, h, go, hn, hg]

/-! ## Notices (R188) -/

theorem offerNotice_full {b : NoticeBody} (h : 64 ≤ s.link.notices.length) :
    offerNotice b s = modLink (fun l => { l with overflow := true }) s := by
  rw [offerNotice, if_pos (show Config.noticeRoom ≤ _ from h)]

theorem offerNotice_room {b : NoticeBody} (h : s.link.notices.length < 64) :
    offerNotice b s =
      modLink (fun l => { l with notices := l.notices ++ [{ body := b, placed := s.ttu.time }] }) s := by
  rw [offerNotice, if_neg (show ¬ Config.noticeRoom ≤ _ from Nat.not_le.2 h)]

/-! ## The end of a frame, and the resets (R187, R190) -/

theorem frameSent_reply {r : Reply} (h : s.link.sending = some (.reply r)) :
    frameSent s = if s.link.resetReply = true ∧ s.link.replies = []
      then State.afterReset .partReset (modLink (fun l => { l with sending := none }) s)
      else renewCredit (choose (modLink (fun l => { l with sending := none }) s)) := by
  rw [frameSent, h]
  rfl

theorem frameSent_notice {n : Notice} (h : s.link.sending = some (.notice n)) :
    frameSent s = choose (modLink (fun l => { l with sending := none }) s) := by
  rw [frameSent, h]

theorem frameSent_segment {g : Segment} (h : s.link.sending = some (.segment g)) :
    frameSent s = choose (modLink (fun l => { l with sending := none }) s) := by
  rw [frameSent, h]

theorem frameSent_idle (h : s.link.sending = none) : frameSent s = choose s := by
  rw [frameSent, h]

/-- While a PART_RESET reply waits no credit goes out (R190). -/
theorem renewCredit_resetReply (h : s.link.resetReply = true) : (renewCredit s).link.credit = false := by
  simp [renewCredit, modLink, h]

/-- With no frame held at the server, reception goes on with the state as it is. -/
theorem resumeReception_none (h : s.link.waiting = []) : resumeReception s = s := by
  obtain ⟨⟨replies, notices, overflow, counters, sending, credit, resetReply, waiting⟩⟩ := s
  obtain rfl : waiting = [] := h
  rfl

/-- A power-on reset finds nothing of the part but the sensors, the frames held and the commands that wait (R190). -/
theorem afterReset_powerOn (waiting : s.link.waiting = []) (pending : s.pending = []) (count : s.freeCount = 0)
    (held : s.ldr.heldSensor = false) (home : s.ldr.homeSensor = false) (door : s.ldr.doorOpen = false)
    (mail : s.ldr.mailSensors = #v[false, false]) : State.afterReset .powerOn s = State.reset := by
  rw [State.afterReset, waiting, pending, count, held, home, door, mail]
  rfl

end Sys2Proof.Machine

namespace Sys2Proof.Proofs

open Sys2Proof Sys2Proof.Machine

/-- Settles O1: `step` is this match on the queue. -/
theorem stepRunsFrontCommand : Obligations.StepRunsFrontCommand := by
  intro c rest s
  exact ⟨rfl, rfl⟩

/-- Settles O2, by the kinds of command (`exec_next`). -/
theorem everyCommandCompletes : Obligations.EveryCommandCompletes := exec_next

/-- Settles O3: a frame received, the frames held, and the credit renewed. -/
theorem framesTakenByCredit : Obligations.FramesTakenByCredit := by
  refine ⟨fun c s hf => ⟨fun hc => exec_taken hc hf rfl, exec_held hf⟩, fun c rest s => ?held, fun s => ?credit⟩
  case held =>
    exact ⟨rfl, takeHeld_cons_of_credit, takeHeld_cons_of_no_credit, rfl⟩
  case credit =>
    refine ⟨_, rfl, ?_⟩
    rw [Bool.and_eq_true, decide_eq_true_iff, Bool.not_eq_true']
    rfl

/-- Settles O4: the rounds by the list of owed tests; the arbiter by what waits to be sent. -/
theorem owedTestsAndArbiter : Obligations.OwedTestsAndArbiter := by
  refine ⟨fun k d s => ⟨rfl, settleRounds_nil k, fun first => ?rounds⟩,
    fun s => ⟨fun f busy => choose_busy busy, fun free => ?_⟩⟩
  case rounds =>
    obtain ⟨rest, e⟩ := List.head?_eq_some_iff.1 first
    rw [settleRounds_cons e, e, List.tail_cons]
  refine ⟨fun r rest h => choose_reply free h, choose_resetReply free, fun n rest h go hn => choose_notice free h go hn,
    fun h go hn => ⟨fun c g active segment => ?taken, fun quiet => ?nothing⟩⟩
  case taken => exact choose_segment free h go hn (by rw [active]; exact segment)
  case nothing =>
    refine choose_nothing free h go hn ?_
    cases active : s.rse.active with
    | none => rfl
    | some c => exact quiet c active

/-- Settles O5: a reply joins the list; a notice by the room of its queue. -/
theorem repliesAndNotices : Obligations.RepliesAndNotices :=
  ⟨fun _ _ _ _ _ => ⟨rfl, rfl⟩, fun _ _ => ⟨offerNotice_full, offerNotice_room⟩⟩

/-- Settles O8, by the frame that was being sent. -/
theorem frameSentFreesTheSide : Obligations.FrameSentFreesTheSide := by
  intro s
  refine (exec_frameSent s).trans (congrArg (fun t => Host.Outcome.next (resumeReception t)) ?_)
  generalize settle s = u
  cases sending : u.link.sending with
  | none => simp only [sending]; exact frameSent_idle sending
  | some f =>
    cases f with
    | reply r => simp only [sending]; exact frameSent_reply sending
    | notice n => simp only [sending]; exact frameSent_notice sending
    | segment g => simp only [sending]; exact frameSent_segment sending

/-- Settles O11: STATUS is a frame taken; its effect is the reply, then the clearing. -/
theorem statusReportsThenClears : Obligations.StatusReportsThenClears := by
  intro h clear s hc
  exact exec_taken hc rfl rfl

/-- Settles O12: the credit after PART_RESET, the two resets, and a power-on reset of a part with inactive sensors. -/
theorem resetsOfThePart : Obligations.ResetsOfThePart := by
  refine ⟨fun h s hc => ⟨_, exec_taken hc rfl rfl, ?noCredit, ?waits, rfl⟩, fun s => ⟨rfl, rfl⟩,
    fun s waiting pending count held home door mail => ?_⟩
  case waits => exact (still_choose _).resetReply
  case noCredit => exact renewCredit_resetReply (still_choose _).resetReply
  have reset := afterReset_powerOn waiting pending count held home door mail
  refine ⟨reset, ?_⟩
  rw [exec_powerOn, resetDevice, reset, resumeReception_none rfl]

end Sys2Proof.Proofs
end

section
/-! PROOFS. Frames received: the four frame tests, the header and payload of a frame, and frames that spell no request
(R183, R184, R192). -/

namespace Sys2Proof.Machine

/-! ## A frame as bytes (R192 Table 21) -/

/-- Without its last four bytes a frame is the body that its check is over. -/
theorem frame_body (body : List Byte) (check : Nat) :
    (body ++ be 4 check).take ((body ++ be 4 check).length - 4) = body :=
  List.take_left' (by simp)

theorem frame_check (body : List Byte) (check : Nat) :
    (body ++ be 4 check).drop ((body ++ be 4 check).length - 4) = be 4 check :=
  List.drop_left' (by simp)

section Frame

variable (c tag subject len : Nat) (payload : List Byte) (check : Nat)

theorem frame_cls (h : c < 256) :
    ofBe ((be 1 c ++ be 2 tag ++ be 1 subject ++ be 2 len ++ payload ++ be 4 check).take 1) = c :=
  ofBe_be (k := 1) h

theorem frame_len (h : len < 65536) :
    ofBe (((be 1 c ++ be 2 tag ++ be 1 subject ++ be 2 len ++ payload ++ be 4 check).drop 4).take 2) = len :=
  ofBe_be (k := 2) h

theorem frameHdr_frame (ht : tag < 65536) (hs : subject < 256) :
    frameHdr (be 1 c ++ be 2 tag ++ be 1 subject ++ be 2 len ++ payload ++ be 4 check) =
      { tag := tag, subject := subject } :=
  congrArg₂ Hdr.mk (ofBe_be (k := 2) ht) (ofBe_be (k := 1) hs)

theorem framePayload_frame :
    framePayload (be 1 c ++ be 2 tag ++ be 1 subject ++ be 2 len ++ payload ++ be 4 check) = payload :=
  field_at _ rfl (by simp only [List.length_append, be_length]; omega)

theorem frame_length :
    (be 1 c ++ be 2 tag ++ be 1 subject ++ be 2 len ++ payload ++ be 4 check).length = payload.length + 10 := by
  simp only [List.length_append, be_length]
  omega

end Frame

/-! ## The frame tests (R183) -/

/-- The known classes are 1 to 5, and the server sends 1 and 2. -/
theorem class_tests (c : Nat) :
    (if c < 1 ∨ 5 < c then some FrameFault.cls else if c ≠ 1 ∧ c ≠ 2 then some .direction else none) =
      if c = 0 ∨ 5 < c then some .cls else if 2 < c then some .direction else none := by
  by_cases known : c = 0 ∨ 5 < c
  · rw [if_pos known, if_pos (by omega)]
  · rw [if_neg known, if_neg (by omega)]
    exact if_congr (by omega) rfl rfl

theorem frameFault_frame {c tag subject len : Nat} {payload : List Byte} {check : Word32} (hc : c < 256)
    (hl : len < 65536) :
    frameFault (be 1 c ++ be 2 tag ++ be 1 subject ++ be 2 len ++ payload ++ be 4 check.toNat) =
      if check ≠ crc32 (be 1 c ++ be 2 tag ++ be 1 subject ++ be 2 len ++ payload) ∨ len ≠ payload.length then
        some .check
      else if 4160 < len then some .length
      else if c = 0 ∨ 5 < c then some .cls
      else if 2 < c then some .direction
      else none := by
  unfold frameFault
  dsimp only
  rw [frame_body, frame_check, frame_cls _ _ _ _ _ _ hc, frame_len _ _ _ _ _ _ hl, frame_length, ofBe_be_word,
    BitVec.ofNat_toNat, BitVec.setWidth_eq, class_tests]
  refine if_congr ?_ rfl rfl
  rw [ne_comm (a := check), or_iff_right (by omega)]
  exact or_congr Iff.rfl (by omega)

/-- Bytes that pass the tests are no empty list, and their first byte is their class. -/
theorem isSegFrame_iff {bytes : List Byte} (h : frameFault bytes = none) :
    isSegFrame bytes = true ↔ bytes.head? = some 1 := by
  cases bytes with
  | nil => simp [frameFault] at h
  | cons b rest =>
    have cls : ofBe ((b :: rest).take 1) = b.toNat := ofBe_single b
    rw [isSegFrame, cls, decide_eq_true_iff, List.head?_cons, Option.some_inj]
    exact ⟨fun e => BitVec.eq_of_toNat_eq e, fun e => by rw [e]; rfl⟩

/-- The counters saturate (R183). -/
theorem bump_eq (n : Nat) : bump n = min 4294967295 (n + 1) := rfl

theorem takeFrameBytes_fault {bytes : List Byte} {f : FrameFault} (h : frameFault bytes = some f) (s : State) :
    takeFrameBytes bytes s = modLink (fun l => { l with counters := countFault f l.counters }) s := by
  rw [takeFrameBytes, h]

theorem takeFrameBytes_good {bytes : List Byte} (h : frameFault bytes = none) (s : State) :
    takeFrameBytes bytes s =
      if bytes.head? = some 1 then heldEffect (segmentOf (frameHdr bytes) (framePayload bytes)) s
      else heldEffect (.unknownRequest (frameHdr bytes) (framePayload bytes)) s := by
  rw [takeFrameBytes, h]
  exact if_congr (isSegFrame_iff h) rfl rfl

/-! ## Requests spelled by a payload (R184) -/

/-- The requests: the frames whose effect is that of the request's own command. -/
def IsRequest (c : Instr) : Prop := isFrame c = true ∧ heldEffect c = frameEffect c

/-- A reader that gives requests only. -/
def ReadsRequests (r : Reader Instr) : Prop := ∀ bs p, r bs = some p → IsRequest p.1

theorem readsRequests_readNone {c : Instr} (h : IsRequest c) : ReadsRequests (readNone c) := by
  rintro bs p e
  cases e
  exact h

theorem readsRequests_refused : ReadsRequests fun _ => none := fun _ _ e => nomatch e

theorem readsRequests_readAs {α : Type} {a : Reader α} {f : α → Instr} (h : ∀ x, IsRequest (f x)) :
    ReadsRequests (readAs a fun x => some (f x)) := by
  intro bs p e
  obtain ⟨q, -, e⟩ := Option.bind_eq_some_iff.1 e
  cases e
  exact h q.1

theorem readsRequests_thenRead {α : Type} {a : Reader α} {f : α → Reader Instr} (h : ∀ x, ReadsRequests (f x)) :
    ReadsRequests (thenRead a f) := by
  intro bs p e
  obtain ⟨q, -, e⟩ := Option.bind_eq_some_iff.1 e
  exact h q.1 q.2 p e

theorem readsRequests_directoryWrite (h : Hdr) : ReadsRequests (readDirectoryWrite h) := by
  refine readsRequests_thenRead fun x => ?_
  split
  · exact readsRequests_readAs fun _ => ⟨rfl, rfl⟩
  · split
    · exact readsRequests_readNone (c := .tableWriteDirectoryRemove h x.1) ⟨rfl, rfl⟩
    · exact readsRequests_refused

theorem readsRequests_tableWrite (h : Hdr) (table : Nat) : ReadsRequests (readTableWrite h table) := by
  unfold readTableWrite
  split
  case h_6 => exact readsRequests_directoryWrite h
  case h_11 => exact readsRequests_refused
  all_goals exact readsRequests_readAs fun _ => ⟨rfl, rfl⟩

theorem readsRequests_tableRead (h : Hdr) (table : Nat) : ReadsRequests (readTableRead h table) := by
  unfold readTableRead
  split
  case h_6 => exact readsRequests_readAs fun _ => ⟨rfl, rfl⟩
  case h_11 => exact readsRequests_refused
  all_goals exact readsRequests_readNone ⟨rfl, rfl⟩

theorem readsRequests_request (h : Hdr) (sensor : Bool) (code : Nat) : ReadsRequests (readRequest h sensor code) := by
  unfold readRequest
  split
  case h_6 => exact readsRequests_thenRead (readsRequests_tableWrite h)
  case h_7 => exact readsRequests_thenRead (readsRequests_tableRead h)
  case h_8 => exact readsRequests_readAs fun clear => by cases clear <;> exact ⟨rfl, rfl⟩
  case h_41 => exact readsRequests_refused
  case h_2 | h_3 | h_4 | h_5 | h_9 | h_10 | h_11 | h_16 | h_17 | h_18 | h_24 | h_28 | h_29 | h_40 =>
    exact readsRequests_readNone ⟨rfl, rfl⟩
  all_goals exact readsRequests_readAs fun _ => ⟨rfl, rfl⟩

/-- What a payload spells is a request. -/
theorem isRequest_of_requestOf {h : Hdr} {sensor : Bool} {payload : List Byte} {c : Instr}
    (e : requestOf h sensor payload = some c) : IsRequest c := by
  obtain ⟨p, read, rfl⟩ := Option.map_eq_some_iff.1 e
  exact readsRequests_thenRead (readsRequests_request h sensor) payload p read

theorem exec_unknownRequest {h : Hdr} {payload : List Byte} {s : State} (hc : s.link.credit = true) :
    exec (.unknownRequest h payload) s = .next (renewCredit (choose (takeRequest h payload (settle s)))) :=
  exec_taken hc rfl rfl

/-- A payload that spells a request does what the request's own command does. -/
theorem exec_unknownRequest_spelled {h : Hdr} {payload : List Byte} {c : Instr} {s : State} (hc : s.link.credit = true)
    (e : requestOf h (settle s).ldr.homeSensor payload = some c) : exec (.unknownRequest h payload) s = exec c s := by
  obtain ⟨frame, effect⟩ := isRequest_of_requestOf e
  rw [exec_unknownRequest hc, takeRequest, e]
  exact (exec_taken hc frame (congrFun effect _)).symm

theorem takeRequest_unknown {h : Hdr} {payload : List Byte} {s : State}
    (e : requestOf h s.ldr.homeSensor payload = none) : takeRequest h payload s = unknownReply h payload s := by
  rw [takeRequest, e]

theorem requestOf_nil (h : Hdr) (sensor : Bool) : requestOf h sensor [] = none := rfl

theorem requestOf_cons (h : Hdr) (sensor : Bool) (code : Byte) (rest : List Byte) :
    requestOf h sensor (code :: rest) = (readRequest h sensor code.toNat rest).map Prod.fst := by
  rw [← ofBe_single code]
  rfl

/-- The codes 1 to 40 are known. -/
theorem requestOf_unknown_code {h : Hdr} {code : Byte} (hc : code.toNat = 0 ∨ 40 < code.toNat) (sensor : Bool)
    (rest : List Byte) : requestOf h sensor (code :: rest) = none := by
  rw [requestOf_cons]
  generalize code.toNat = n at hc
  unfold readRequest
  split
  case h_41 => rfl
  all_goals omega

end Sys2Proof.Machine

namespace Sys2Proof.Proofs

open Sys2Proof Sys2Proof.Machine

/-- Settles O6: the tests of a frame whose fields are read by position (`frameFault_frame`). -/
theorem frameTestsInOrder : Obligations.FrameTestsInOrder :=
  fun _ _ _ _ _ _ hc hl => frameFault_frame hc hl

/-- Settles O7: bytes by the first test that fails, payloads by what they spell. -/
theorem badFramesAndRequests : Obligations.BadFramesAndRequests := by
  refine ⟨fun bytes s hc => exec_taken hc rfl ?bytes, fun h payload c s hc e => exec_unknownRequest_spelled hc e,
    fun h code rest s hc => ⟨fun unknown => ?unknown, fun range sensor => requestOf_unknown_code range sensor rest⟩,
    fun h s hc => ⟨(Config.freeCount (settle s).freeCount).toNat % 256, ?empty⟩⟩
  case bytes =>
    generalize settle s = u
    change takeFrameBytes bytes u = _
    cases fault : frameFault bytes with
    | none => exact takeFrameBytes_good fault u
    | some f =>
      rw [takeFrameBytes_fault fault]
      cases f <;> rfl
  case unknown => rw [exec_unknownRequest hc, takeRequest_unknown (unknown _), unknownReply]
  case empty => rw [exec_unknownRequest hc, takeRequest_unknown (requestOf_nil h _), unknownReply]; rfl

end Sys2Proof.Proofs
end

section
/-! PROOFS. Request bytes: what each reader of a payload reads, whole and cut short, and so every request's payload
(R184, R192). -/

namespace Sys2Proof.Machine

/-! ## Fields of a payload (R192) -/

/-- A list: a count byte, then the items. -/
def listField (items : List (List Byte)) : List Byte := be 1 items.length ++ items.flatten

/-- An optional field of `k` bytes: a presence byte, then the field, zeros when it is absent. -/
def optField (k : Nat) (field : Option (List Byte)) : List Byte :=
  match field with
  | none => be 1 0 ++ be k 0
  | some f => be 1 1 ++ f

def sourceField (x : SourceArg) : List Byte := be 1 x.kind ++ be 1 x.qual

def roleField (r : RoleArg) : List Byte := be 1 r.kind ++ be 1 r.pool

/-- An action: its kind and the arguments its kind has (R179). -/
def actionField (x : ActionArg) : List Byte :=
  be 1 x.kind ++
    match x.kind with
    | 1 => be 1 x.x ++ be 1 x.y
    | 2 => []
    | 3 => []
    | 6 => be 2 x.x
    | 7 => be 1 x.x ++ be 4 x.y
    | _ => be 1 x.x

def triggerField (t : TriggerArg) : List Byte :=
  be 1 t.number ++ sourceField t.factor ++ listField (t.actions.map actionField) ++ be 1 t.chain ++ be 1 t.mode ++
    flagByte t.faultGuard

def compareField (x : CompareArg) : List Byte :=
  be 1 x.slot ++ flagByte x.enabled ++ be 4 x.value ++ be 1 x.lineMask ++ be 1 x.lineData ++ be 1 x.triggerMask

/-! ## Readers -/

/-- The bytes spell `x` for the reader, whatever follows them, and cut short they spell nothing. -/
def Spells {α : Type} (a : Reader α) (bs : List Byte) (x : α) : Prop :=
  (∀ more, a (bs ++ more) = some (x, more)) ∧ ∀ k < bs.length, a (bs.take k) = none

section Readers

variable {α β : Type} {a : Reader α} {b : Reader β} {bs cs : List Byte} {x : α} {y : β}

theorem Spells.of_eq (h : Spells a bs x) (e : bs = cs) : Spells a cs x := e ▸ h

theorem spells_takeBytes {k : Nat} (h : bs.length = k) : Spells (takeBytes k) bs bs := by
  subst h
  refine ⟨fun more => ?_, fun k hk => ?_⟩
  · rw [takeBytes, if_neg (by simp), List.take_left, List.drop_left]
  · rw [takeBytes, if_pos (by rw [List.length_take]; omega)]

theorem spells_takeNum {k n : Nat} (h : fits k n = true) : Spells (takeNum k) (be k n) n := by
  obtain ⟨whole, short⟩ := spells_takeBytes (be_length k n)
  refine ⟨fun more => ?_, fun j hj => ?_⟩
  · rw [takeNum, whole, Option.map_some, ofBe_be (of_decide_eq_true h)]
  · rw [takeNum, short j hj, Option.map_none]

theorem spells_thenRead {f : α → Reader β} (ha : Spells a bs x) (hf : Spells (f x) cs y) :
    Spells (thenRead a f) (bs ++ cs) y := by
  refine ⟨fun more => ?_, fun k hk => ?_⟩
  · rw [thenRead, List.append_assoc, ha.1, Option.bind_some, hf.1]
  · rw [List.length_append] at hk
    by_cases inside : k < bs.length
    · rw [thenRead, List.take_append_of_le_length inside.le, ha.2 k inside, Option.bind_none]
    · rw [thenRead, List.take_append, List.take_of_length_le (by omega), ha.1, Option.bind_some, hf.2 _ (by omega)]

theorem spells_readAs {f : α → Option β} (ha : Spells a bs x) (hf : f x = some y) : Spells (readAs a f) bs y := by
  refine ⟨fun more => ?_, fun k hk => ?_⟩
  · rw [readAs, ha.1, Option.bind_some, hf, Option.map_some]
  · rw [readAs, ha.2 k hk, Option.bind_none]

/-- What a reader gives, made a request. -/
theorem spells_map (ha : Spells a bs x) (f : α → Instr) : Spells (readAs a fun x => some (f x)) bs (f x) :=
  spells_readAs ha rfl

theorem spells_takePair (ha : Spells a bs x) (hb : Spells b cs y) : Spells (takePair a b) (bs ++ cs) (x, y) :=
  spells_thenRead ha (spells_readAs hb rfl)

theorem spells_readNone (c : Instr) : Spells (readNone c) [] c :=
  ⟨fun _ => rfl, fun _ hk => absurd hk (Nat.not_lt_zero _)⟩

theorem spells_takeFlag (b : Bool) : Spells takeFlag (flagByte b) b := by
  cases b with
  | false => exact spells_readAs (spells_takeNum (k := 1) (n := 0) rfl) rfl
  | true => exact spells_readAs (spells_takeNum (k := 1) (n := 1) rfl) rfl

/-- Items one after another, each spelled by its own bytes. -/
theorem spells_takeMany {enc : α → List Byte} (l : List α) (h : ∀ x ∈ l, Spells a (enc x) x) :
    Spells (takeMany a l.length) (l.map enc).flatten l := by
  induction l with
  | nil => exact ⟨fun _ => rfl, fun _ hk => absurd hk (Nat.not_lt_zero _)⟩
  | cons x l ih =>
    have rest := ih fun y hy => h y (List.mem_cons_of_mem x hy)
    exact spells_thenRead (h x List.mem_cons_self) (spells_readAs rest rfl)

theorem spells_takeList {enc : α → List Byte} {ok : α → Bool} {l : List α} (w : listOk ok l = true)
    (h : ∀ x, ok x = true → Spells a (enc x) x) : Spells (takeList a) (listField (l.map enc)) l := by
  obtain ⟨count, items⟩ := (Bool.and_eq_true _ _).mp w
  refine spells_thenRead (x := l.length) ?_ (spells_takeMany l fun x hx => h x (List.all_eq_true.1 items x hx))
  rw [List.length_map]
  exact spells_takeNum count

/-- An optional field; the reader must take the zeros of an absent one for something. -/
theorem spells_takeOption {enc : α → List Byte} {k : Nat} {zero : α} {ok : α → Bool} {o : Option α}
    (w : optOk ok o = true) (hz : Spells a (be k 0) zero) (h : ∀ x, ok x = true → Spells a (enc x) x) :
    Spells (takeOption a) (optField k (o.map enc)) o := by
  cases o with
  | none => exact spells_thenRead (spells_takeFlag false) (spells_readAs hz rfl)
  | some x => exact spells_thenRead (spells_takeFlag true) (spells_readAs (h x w) rfl)

end Readers

/-! ## The forms of the table writes -/

theorem spells_takeSource {x : SourceArg} (h : x.ok = true) : Spells takeSource (sourceField x) x := by
  obtain ⟨kind, qual⟩ := (Bool.and_eq_true _ _).mp h
  exact spells_readAs (spells_takePair (spells_takeNum kind) (spells_takeNum qual)) rfl

theorem spells_takeRole {r : RoleArg} (h : r.ok = true) : Spells takeRole (roleField r) r := by
  obtain ⟨kind, pool⟩ := (Bool.and_eq_true _ _).mp h
  exact spells_readAs (spells_takePair (spells_takeNum kind) (spells_takeNum pool)) rfl

/-- An action's arguments have the widths of its kind. -/
theorem actionField_eq {x : ActionArg} {w : Nat × Nat} (h : actionWidths x.kind = some w) :
    actionField x = be 1 x.kind ++ (be w.1 x.x ++ be w.2 x.y) ∧ fits 1 x.kind = true := by
  obtain ⟨kind, x, y⟩ := x
  have known : kind < 8 := (List.getElem?_eq_some_iff.1 h).1
  interval_cases kind <;> cases h <;> simp [actionField, be, fits]

theorem spells_takeAction {x : ActionArg} (h : x.ok = true) : Spells takeAction (actionField x) x := by
  cases widths : actionWidths x.kind with
  | none =>
    rw [ActionArg.ok, ← actionWidths, widths] at h
    cases h
  | some w =>
    rw [ActionArg.ok, ← actionWidths, widths] at h
    obtain ⟨hx, hy⟩ := (Bool.and_eq_true _ _).mp h
    obtain ⟨e, kind⟩ := actionField_eq widths
    rw [e]
    refine spells_thenRead (spells_takeNum kind) ?_
    rw [widths]
    exact spells_readAs (spells_takePair (spells_takeNum hx) (spells_takeNum hy)) rfl

theorem spells_takeTrigger {t : TriggerArg} (h : t.ok = true) : Spells takeTrigger (triggerField t) t := by
  simp only [TriggerArg.ok, Bool.and_eq_true] at h
  obtain ⟨⟨⟨⟨number, factor⟩, actions⟩, chain⟩, mode⟩ := h
  have front := spells_takePair (spells_takeNum number) (spells_takeSource factor)
  have back := spells_takePair (spells_takeNum chain)
    (spells_takePair (spells_takeNum mode) (spells_takeFlag t.faultGuard))
  have list := spells_takeList actions fun _ => spells_takeAction
  refine Spells.of_eq (spells_readAs (spells_takePair front (spells_takePair list back)) rfl) ?_
  simp only [triggerField, List.append_assoc]

theorem spells_takeCompare {x : CompareArg} (h : x.ok = true) : Spells takeCompare (compareField x) x := by
  simp only [CompareArg.ok, Bool.and_eq_true] at h
  obtain ⟨⟨⟨⟨slot, value⟩, lineMask⟩, lineData⟩, triggerMask⟩ := h
  have front := spells_takePair (spells_takeNum slot) (spells_takeFlag x.enabled)
  have back := spells_takePair (spells_takeNum value)
    (spells_takePair (spells_takeNum lineMask) (spells_takePair (spells_takeNum lineData) (spells_takeNum triggerMask)))
  refine Spells.of_eq (spells_readAs (spells_takePair front back) rfl) ?_
  simp only [compareField, List.append_assoc]

theorem spells_takeRecord {r : RecordArg} (h : r.ok = true) :
    Spells takeRecord (r.label ++ be 1 r.pool ++ be 1 r.state ++ be 1 r.location ++ be 1 r.home ++ be 4 r.endOfData ++
      be 4 r.floor ++ be 1 r.worm ++ be 4 r.verifiedTo) r := by
  simp only [RecordArg.ok, Bool.and_eq_true, decide_eq_true_eq] at h
  obtain ⟨⟨⟨⟨⟨⟨⟨⟨label, pool⟩, state⟩, location⟩, home⟩, endOfData⟩, floor⟩, worm⟩, verifiedTo⟩ := h
  have front := spells_takePair (spells_takeBytes label) (spells_takePair (spells_takeNum pool) (spells_takeNum state))
  have places := spells_takePair (spells_takeNum location) (spells_takeNum home)
  have blocks := spells_takePair (spells_takePair (spells_takeNum endOfData) (spells_takeNum floor))
    (spells_takePair (spells_takeNum worm) (spells_takeNum verifiedTo))
  refine Spells.of_eq (spells_readAs (spells_takePair front (spells_takePair places blocks)) rfl) ?_
  simp only [List.append_assoc]

theorem spells_takeQuotas {q : QuotaArg} (h : q.ok = true) :
    Spells takeQuotas
      (be 2 q.ingest ++ be 2 q.lane0 ++ be 2 q.lane1 ++ be 2 q.lane2 ++ be 2 q.lane3 ++ be 2 q.read) q := by
  simp only [QuotaArg.ok, Bool.and_eq_true] at h
  have items : ∀ n ∈ [q.ingest, q.lane0, q.lane1, q.lane2, q.lane3, q.read], Spells (takeNum 2) (be 2 n) n := by
    intro n hn
    refine spells_takeNum ?_
    simp only [List.mem_cons, List.not_mem_nil, or_false] at hn
    rcases hn with rfl | rfl | rfl | rfl | rfl | rfl <;> simp only [h]
  refine Spells.of_eq (spells_readAs (spells_takeMany _ items) rfl) ?_
  simp

theorem spells_takePlace {p : Nat × Option Nat} (h : (fits 1 p.1 && optOk (fits 2) p.2) = true) :
    Spells (takePair (takeNum 1) (takeOption (takeNum 2))) (be 1 p.1 ++ optField 2 (p.2.map (be 2))) p := by
  obtain ⟨place, position⟩ := (Bool.and_eq_true _ _).mp h
  exact spells_takePair (spells_takeNum place)
    (spells_takeOption position (spells_takeNum (n := 0) rfl) fun _ => spells_takeNum)

theorem spells_takeSlotSource {p : Nat × SourceArg} (h : (fits 1 p.1 && p.2.ok) = true) :
    Spells (takePair (takeNum 1) takeSource) (be 1 p.1 ++ sourceField p.2) p := by
  obtain ⟨slot, source⟩ := (Bool.and_eq_true _ _).mp h
  exact spells_takePair (spells_takeNum slot) (spells_takeSource source)

/-- A setting's name and value, and a restore's cartridge and block, are laid out alike (R158, R186). -/
theorem spells_takeSetting {p : Nat × Nat} (h : (fits 1 p.1 && fits 4 p.2) = true) :
    Spells (takePair (takeNum 1) (takeNum 4)) (be 1 p.1 ++ be 4 p.2) p := by
  obtain ⟨name, value⟩ := (Bool.and_eq_true _ _).mp h
  exact spells_takePair (spells_takeNum name) (spells_takeNum value)

/-! ## Requests -/

section Requests

variable {h : Hdr} {sensor : Bool}

/-- A payload spells a request where its arguments do for the reader of its code. -/
theorem requestOf_spells {code : Nat} {args : List Byte} {i : Instr} (hc : fits 1 code = true)
    (s : Spells (readRequest h sensor code) args i) :
    (∀ more, requestOf h sensor (be 1 code ++ args ++ more) = some i) ∧
      ∀ k < args.length, requestOf h sensor (be 1 code ++ args.take k) = none := by
  have read := spells_takeNum hc
  refine ⟨fun more => ?_, fun k hk => ?_⟩
  · rw [requestOf, (spells_thenRead read s).1, Option.map_some]
  · rw [requestOf, thenRead, read.1, Option.bind_some, s.2 k hk, Option.map_none]

/-- A request of one number. -/
theorem spells_num {ok : Bool} {k a : Nat} (w : (ok && fits k a) = true) (f : Nat → Instr) :
    Spells (readAs (takeNum k) fun m => some (f m)) (be k a) (f a) :=
  spells_map (spells_takeNum ((Bool.and_eq_true _ _).mp w).2) f

/-- A request of two numbers. -/
theorem spells_num_num {ok : Bool} {j k a b : Nat} (w : (ok && fits j a && fits k b) = true) (f : Nat → Nat → Instr) :
    Spells (readAs (takePair (takeNum j) (takeNum k)) fun p => some (f p.1 p.2)) (be j a ++ be k b) (f a b) := by
  simp only [Bool.and_eq_true] at w
  obtain ⟨⟨-, ha⟩, hb⟩ := w
  exact spells_map (spells_takePair (spells_takeNum ha) (spells_takeNum hb)) fun p => f p.1 p.2

/-- A request of three numbers. -/
theorem spells_num_num_num {ok : Bool} {i j k a b c : Nat} (w : (ok && fits i a && fits j b && fits k c) = true)
    (f : Nat → Nat → Nat → Instr) :
    Spells (readAs (takePair (takeNum i) (takePair (takeNum j) (takeNum k))) fun p => some (f p.1 p.2.1 p.2.2))
      (be i a ++ be j b ++ be k c) (f a b c) := by
  simp only [Bool.and_eq_true] at w
  obtain ⟨⟨⟨-, ha⟩, hb⟩, hc⟩ := w
  have numbers := spells_takePair (spells_takeNum ha) (spells_takePair (spells_takeNum hb) (spells_takeNum hc))
  refine Spells.of_eq (spells_map numbers fun p => f p.1 p.2.1 p.2.2) ?_
  rw [List.append_assoc]

/-- A table write or read: the table's name, then what it holds. -/
theorem spells_table {f : Nat → Reader Instr} {table : Nat} {bs : List Byte} {i : Instr} (ht : fits 1 table = true)
    (s : Spells (f table) bs i) : Spells (thenRead (takeNum 1) f) (be 1 table ++ bs) i :=
  spells_thenRead (spells_takeNum ht) s

/-- A table write of one list. -/
theorem spells_list {α : Type} {a : Reader α} {enc : α → List Byte} {ok : Bool} {p : α → Bool} {l : List α}
    (w : (ok && listOk p l) = true) (h : ∀ x, p x = true → Spells a (enc x) x) (f : List α → Instr) :
    Spells (readAs (takeList a) fun l => some (f l)) (listField (l.map enc)) (f l) :=
  spells_map (spells_takeList ((Bool.and_eq_true _ _).mp w).2 h) f

/-! ### The requests that are not numbers alone -/

section

variable (h : Hdr) (sensor : Bool)

theorem spells_laneRole {r0 r1 r2 r3 : RoleArg} (w : (Instr.tableWriteLaneRole h r0 r1 r2 r3).wellFormed = true) :
    Spells (readRoles h) (roleField r0 ++ roleField r1 ++ roleField r2 ++ roleField r3)
      (.tableWriteLaneRole h r0 r1 r2 r3) := by
  simp only [Instr.wellFormed, Bool.and_eq_true] at w
  obtain ⟨⟨⟨⟨-, w0⟩, w1⟩, w2⟩, w3⟩ := w
  have front := spells_takePair (spells_takeRole w0) (spells_takeRole w1)
  have back := spells_takePair (spells_takeRole w2) (spells_takeRole w3)
  refine Spells.of_eq (spells_readAs (spells_takePair front back) rfl) ?_
  simp only [List.append_assoc]

theorem spells_directoryRecord {a : Nat} {body : RecordArg}
    (w : (Instr.tableWriteDirectoryRecord h a body).wellFormed = true) :
    Spells (readDirectoryWrite h) (be 1 a ++ be 1 0 ++ (body.label ++ be 1 body.pool ++ be 1 body.state ++
      be 1 body.location ++ be 1 body.home ++ be 4 body.endOfData ++ be 4 body.floor ++ be 1 body.worm ++
      be 4 body.verifiedTo)) (.tableWriteDirectoryRecord h a body) := by
  simp only [Instr.wellFormed, Bool.and_eq_true] at w
  obtain ⟨⟨-, index⟩, record⟩ := w
  refine spells_thenRead (spells_takePair (spells_takeNum index) (spells_takeNum (n := 0) rfl)) ?_
  exact spells_map (spells_takeRecord record) (.tableWriteDirectoryRecord h a)

theorem spells_directoryRemove {a : Nat} (w : (Instr.tableWriteDirectoryRemove h a).wellFormed = true) :
    Spells (readDirectoryWrite h) (be 1 a ++ be 1 1) (.tableWriteDirectoryRemove h a) := by
  obtain ⟨-, index⟩ := (Bool.and_eq_true _ _).mp w
  refine Spells.of_eq (spells_thenRead (spells_takePair (spells_takeNum index) (spells_takeNum (n := 1) rfl))
    (spells_readNone (.tableWriteDirectoryRemove h a))) (List.append_nil _)

/-- LANE_QUERY's flag asks for the clearing (R64). -/
theorem spells_laneQuery (clear : Bool) :
    Spells (readRequest h sensor 8) (flagByte clear) (if clear = true then .laneQueryClear h else .laneQuery h) :=
  spells_map (spells_takeFlag clear) fun b => if b = true then .laneQueryClear h else .laneQuery h

theorem spells_importCart {a b c : Nat} {text : List Byte} (w : (Instr.importCart h a text b c).wellFormed = true) :
    Spells (readRequest h sensor 15) (be 1 a ++ text ++ be 1 b ++ be 1 c) (.importCart h a text b c) := by
  simp only [Instr.wellFormed, Bool.and_eq_true, decide_eq_true_eq] at w
  obtain ⟨⟨⟨⟨-, slot⟩, label⟩, pool⟩, home⟩ := w
  have front := spells_takePair (spells_takeNum slot) (spells_takeBytes label)
  have back := spells_takePair (spells_takeNum pool) (spells_takeNum home)
  refine Spells.of_eq (spells_map (spells_takePair front back) fun p => .importCart h p.1.1 p.1.2 p.2.1 p.2.2) ?_
  simp only [List.append_assoc]

theorem spells_catRelease {a : Nat} {expected : Option Nat} (w : (Instr.catRelease h a expected).wellFormed = true) :
    Spells (readRequest h sensor 26) (be 2 a ++ optField 4 (expected.map (be 4))) (.catRelease h a expected) := by
  simp only [Instr.wellFormed, Bool.and_eq_true] at w
  obtain ⟨⟨-, count⟩, serial⟩ := w
  have option := spells_takeOption serial (spells_takeNum (n := 0) rfl) fun _ => spells_takeNum
  exact spells_map (spells_takePair (spells_takeNum count) option) fun p => .catRelease h p.1 p.2

theorem spells_restore {a b : Nat} {start : Option (Nat × Nat)} (w : (Instr.restore h a b start).wellFormed = true) :
    Spells (readRequest h sensor 31)
      (be 4 a ++ be 4 b ++ optField 5 (start.map fun p => be 1 p.1 ++ be 4 p.2)) (.restore h a b start) := by
  simp only [Instr.wellFormed, Bool.and_eq_true] at w
  obtain ⟨⟨⟨-, first⟩, last⟩, place⟩ := w
  have absent : Spells (takePair (takeNum 1) (takeNum 4)) (be 5 0) (0, 0) :=
    spells_takePair (spells_takeNum (k := 1) (n := 0) rfl) (spells_takeNum (k := 4) (n := 0) rfl)
  have option := spells_takeOption (enc := fun p : Nat × Nat => be 1 p.1 ++ be 4 p.2) place absent
    fun _ => spells_takeSetting
  exact spells_map (spells_takePair (spells_takePair (spells_takeNum first) (spells_takeNum last)) option)
    fun p => .restore h p.1.1 p.1.2 p.2

theorem spells_captureRead {a : Nat} {on : Bool} (w : (Instr.captureRead h a on).wellFormed = true) :
    Spells (readRequest h sensor 36) (be 1 a ++ flagByte on) (.captureRead h a on) :=
  spells_map (spells_takePair (spells_takeNum ((Bool.and_eq_true _ _).mp w).2) (spells_takeFlag on))
    fun p => .captureRead h p.1 p.2

end

end Requests

end Sys2Proof.Machine

namespace Sys2Proof.Proofs

open Sys2Proof Sys2Proof.Machine

/-- Settles O9: each request by the reader of its code; a segment and a frame's fields by their positions. -/
theorem requestBytes : Obligations.RequestBytes := by
  intro h a b c d on sensor text numbers places q r0 r1 r2 r3 body sets sources slots pairs expected start
    spells flag list opt role source action trigger compare
  have bare : ∀ {code : Nat} {i : Instr}, fits 1 code = true → readRequest h sensor code = readNone i →
      spells code [] i := fun hc e _ => requestOf_spells hc (e ▸ spells_readNone _)
  have write : ∀ {table : Nat} {bs : List Byte} {i : Instr}, fits 1 table = true →
      (i.wellFormed = true → Spells (readTableWrite h table) bs i) → spells 6 (be 1 table ++ bs) i :=
    fun ht s w => requestOf_spells rfl (spells_table ht (s w))
  have read : ∀ {table : Nat} {i : Instr}, fits 1 table = true → readTableRead h table = readNone i →
      spells 7 (be 1 table) i := fun ht e _ =>
    requestOf_spells rfl ((spells_table (f := readTableRead h) ht (e ▸ spells_readNone _)).of_eq (List.append_nil _))
  have assoc : ∀ {code : Nat} {x y : List Byte} {i : Instr}, x = y → spells code x i → spells code y i :=
    fun e s => e ▸ s
  refine ⟨rfl, fun w => requestOf_spells rfl (spells_num_num_num w (.openStream h)), bare rfl rfl, bare rfl rfl,
    bare rfl rfl, bare rfl rfl,
    write rfl fun w => spells_list w (fun _ => spells_takeNum) (.tableWriteSpeed h),
    write rfl fun w => spells_list w (fun _ => spells_takeNum) (.tableWriteRamp h),
    write rfl fun w => spells_list w (fun _ => spells_takePlace) (.tableWritePositions h),
    ?split, ?roles, ?record, ?remove,
    write rfl fun w => spells_list w (fun _ => spells_takeTrigger) (.tableWriteTriggers h),
    write rfl fun w => spells_list w (fun _ => spells_takeSlotSource) (.tableWriteCaptures h),
    write rfl fun w => spells_list w (fun _ => spells_takeCompare) (.tableWriteCompares h),
    write rfl fun w => spells_list w (fun _ => spells_takeSetting) (.tableWriteSettings h),
    read rfl rfl, read rfl rfl, read rfl rfl, read rfl rfl, read rfl rfl, ?directory, read rfl rfl, read rfl rfl,
    read rfl rfl, read rfl rfl,
    fun _ => requestOf_spells rfl (spells_laneQuery h sensor false),
    fun _ => requestOf_spells rfl (spells_laneQuery h sensor true),
    bare rfl rfl, bare rfl rfl, bare rfl rfl,
    fun w => requestOf_spells rfl (spells_num w (.stop h)),
    fun w => requestOf_spells rfl (spells_num_num w (.move h)),
    fun w => requestOf_spells rfl (spells_num_num w (.exportCart h)),
    fun w => requestOf_spells rfl (spells_importCart h sensor w),
    bare rfl rfl, bare rfl rfl, bare rfl rfl,
    fun w => requestOf_spells rfl (spells_num_num w (.protect h)),
    fun w => requestOf_spells rfl (spells_num w (.setWorm h)),
    fun w => requestOf_spells rfl (spells_num_num w (.eraseFrom h)),
    fun w => requestOf_spells rfl (spells_num w (.recycle h)),
    fun w => requestOf_spells rfl (spells_num w (.forget h)), bare rfl rfl,
    fun w => requestOf_spells rfl (spells_num_num w (.catRead h)),
    fun w => requestOf_spells rfl (spells_catRelease h sensor w),
    fun w => requestOf_spells rfl (spells_num_num_num w (.verify h)), bare rfl rfl, bare rfl rfl,
    fun w => requestOf_spells rfl (spells_num_num w (.verifyCancel h)),
    fun w => requestOf_spells rfl (spells_restore h sensor w),
    fun w => requestOf_spells rfl (spells_num_num w (.restoreCancel h)),
    fun w => requestOf_spells rfl (spells_num w (.triggerArm h)),
    fun w => requestOf_spells rfl (spells_num w (.triggerDisarm h)),
    fun w => requestOf_spells rfl (spells_num w (.triggerFire h)),
    fun w => requestOf_spells rfl (spells_captureRead h sensor w),
    fun w => requestOf_spells rfl (spells_num_num w (.linesSet h)),
    fun w => requestOf_spells rfl (spells_num w (.compareForce h)),
    fun _ => requestOf_spells rfl (spells_map (spells_takeFlag on) (.status h)), bare rfl rfl, ?segment, ?frame⟩
  case split =>
    refine assoc ?_ (write (table := 4) rfl fun w =>
      spells_map (spells_takeQuotas ((Bool.and_eq_true _ _).mp w).2) (.tableWritePoolSplit h))
    simp only [List.append_assoc]
  case roles =>
    refine assoc ?_ (write (table := 5) rfl (spells_laneRole h))
    simp only [List.append_assoc]
    rfl
  case record =>
    refine assoc ?_ (write (table := 6) rfl (spells_directoryRecord h))
    simp only [List.append_assoc]
  case remove =>
    refine assoc ?_ (write (table := 6) rfl (spells_directoryRemove h))
    simp only [List.append_assoc]
  case directory =>
    refine assoc ?_ fun w => requestOf_spells rfl (spells_table (f := readTableRead h) (table := 6) rfl
      (spells_num_num w (.tableReadDirectory h)))
    simp only [List.append_assoc]
  case segment =>
    intro ha
    exact congrArg₂ (Instr.segment h) (ofBe_be ha) rfl
  case frame =>
    intro ha hb hc ht
    exact ⟨frameHdr_frame _ _ _ _ _ _ hb hc, framePayload_frame _ _ _ _ _ _⟩

end Sys2Proof.Proofs
end

section
/-! PROOFS. Sent bytes: the layouts of replies, notices and catalog entries, with their lists, options, masks and
enumerated values written out (R192). -/

namespace Sys2Proof.Machine

/-! ## Kinds of fields (R192) -/

theorem listBytes_eq {α : Type} (enc : α → List Byte) (l : List α) : listBytes enc l = listField (l.map enc) := by
  rw [listBytes, listField, List.length_map, List.flatMap_def]

theorem optBytes_eq {α : Type} (k : Nat) (enc : α → List Byte) (o : Option α) :
    optBytes k enc o = optField k (o.map enc) := by
  cases o <;> rfl

theorem listBytes_congr {α : Type} {enc enc' : α → List Byte} (h : ∀ x, enc x = enc' x) (l : List α) :
    listBytes enc l = listField (l.map enc') := by
  rw [listBytes_eq, List.map_congr_left fun x _ => h x]

theorem flatMap_congr {α : Type} {enc enc' : α → List Byte} (h : ∀ x, enc x = enc' x) (l : List α) :
    l.flatMap enc = (l.map enc').flatten := by
  rw [List.flatMap_def, List.map_congr_left fun x _ => h x]

theorem maskByte_eq (m : BitVec 8) : maskByte m = be 1 m.toNat := by simp [maskByte, be]

theorem be4_of_le {n : Nat} (h : n ≤ 4294967295) : be4 n = be 4 n := by rw [be4, if_pos (show n ≤ max32 from h)]

theorem flatMap_vector_two {α : Type} (f : α → List Byte) (v : Vector α 2) :
    v.toList.flatMap f = f v[0] ++ f v[1] := by
  obtain ⟨⟨l⟩, h⟩ := v
  match l, h with
  | [_, _], _ => simp

theorem flatMap_vector_four {α : Type} (f : α → List Byte) (v : Vector α 4) :
    v.toList.flatMap f = f v[0] ++ f v[1] ++ f v[2] ++ f v[3] := by
  obtain ⟨⟨l⟩, h⟩ := v
  match l, h with
  | [_, _, _, _], _ => simp

/-! ## Enumerated values, numbered in the order in which they are listed -/

theorem eventKindCode_eq (k : EventKind) : eventKindCode k = k.ctorIdx := by cases k <;> rfl

theorem sourceBytes_eq (x : Source) : sourceBytes x = match x with
    | .byAction => be 1 12 ++ be 1 255
    | .event k q => be 1 k.ctorIdx ++ be 1 (q.getD 255) := by
  cases x with
  | byAction => rfl
  | event k q => rw [sourceBytes, kindQual, eventKindCode_eq]

theorem factorBytes_eq (x : Factor) : factorBytes x = match x with
    | .none => be 1 12 ++ be 1 255
    | .event k q => be 1 k.ctorIdx ++ be 1 (q.getD 255) := by
  cases x with
  | none => rfl
  | event k q => rw [factorBytes, kindQual, eventKindCode_eq]

theorem captureKindByte_eq (k : CaptureKind) : captureKindByte k = be 1 (match k with
    | .event k => k.ctorIdx
    | .fire => 12) := by
  cases k with
  | event k => rw [captureKindByte, eventKindCode_eq]
  | fire => rfl

/-! ## Items of lists -/

theorem actionBytes_eq (x : Action) : actionBytes x = match x with
    | .capture c => be 1 0 ++ be 1 c
    | .lines m d => be 1 1 ++ be 1 m.toNat ++ be 1 d.toNat
    | .stop .decel => be 1 2
    | .stop .instant => be 1 3
    | .suspendVerify n => be 1 4 ++ be 1 n
    | .resumeVerify n => be 1 5 ++ be 1 n
    | .notice k => be 1 6 ++ be 2 k
    | .compareArm c d => be 1 7 ++ be 1 c ++ be4 d := by
  cases x with
  | lines m d => simp only [actionBytes, maskByte_eq]
  | stop m => cases m <;> rfl
  | _ => rfl

theorem triggerBytes_eq (t : TriggerSet) : triggerBytes t =
    factorBytes t.factor ++ listField (t.actions.map actionBytes) ++ be 1 t.chain.toNat ++ be 1 t.mode.ctorIdx ++
      flagByte t.faultGuard ++ flagByte t.armed := by
  rw [triggerBytes, listBytes_eq, maskByte_eq]

theorem compareBytes_eq (c : CompareSlot) : compareBytes c =
    flagByte c.enabled ++ be 4 c.value.toNat ++ be 1 c.lineMask.toNat ++ be 1 c.lineData.toNat ++
      be 1 c.triggerMask.toNat := by
  rw [compareBytes, maskByte_eq, maskByte_eq, maskByte_eq]

theorem captureBytes_eq (c : CaptureSlot) : captureBytes c =
    sourceBytes c.source ++ flagByte c.full ++ flagByte c.lost ++ optField 1 (c.kind.map captureKindByte) ++
      be 4 c.time.toNat ++ optField 2 (c.position.map (be 2)) ++ optField 1 (c.qual.map (be 1)) := by
  rw [captureBytes, optBytes_eq, optBytes_eq, optBytes_eq]

theorem mountBytes_eq (m : MountRequest) : mountBytes m =
    be 1 m.kind.ctorIdx ++ optField 1 (m.cart.map fun i => be 1 i.val) ++ targetBytes m.target ++ be 1 m.cls.ctorIdx ++
      listField (m.requesters.map fun p => be 1 p.1.ctorIdx) ++ be 2 m.tag ++
      optField 1 (m.fillLane.map fun n => be 1 n.val) ++ flagByte m.inService := by
  rw [mountBytes, optIndex, optBytes_eq, requesterBytes, listBytes_eq, optBytes_eq]

theorem commandBytes_eq (f : InFlight) : commandBytes f =
    (match f.command with
      | .thread => be 1 0 ++ be 1 0
      | .locate _ p => be 1 1 ++ be 1 p.ctorIdx
      | .write _ => be 1 2 ++ be 1 0
      | .read _ => be 1 3 ++ be 1 1
      | .step _ => be 1 4 ++ be 1 0
      | .eject => be 1 5 ++ be 1 0) ++ be 4 (f.sentAt + BitVec.ofNat 32 f.limit).toNat := by
  rw [commandBytes]
  cases f.command <;> rfl

/-! ## A catalog entry (R192 Table 23) -/

/-- The runs of an entry, 9 bytes each, padded with zeros to 72 bytes. -/
theorem padded_runs {l : List CatRun} {run : CatRun → List Byte} (h9 : ∀ r, (run r).length = 9) (h8 : l.length ≤ 8) :
    (l.flatMap run ++ List.replicate 72 0#8).take 72 =
      (l.map run).flatten ++ List.replicate (72 - 9 * l.length) 0#8 := by
  have runs : (l.map run).flatten.length = 9 * l.length := by
    rw [← List.flatMap_def, List.length_flatMap, List.map_congr_left fun r _ => h9 r]
    simp [mul_comm]
  rw [List.flatMap_def, List.take_append, List.take_of_length_le (by omega), runs, List.take_replicate,
    Nat.min_eq_left (by omega)]

theorem entryBytes_eq {e : CatEntry} (h8 : e.runs.length ≤ 8) : entryBytes e =
    be 4 e.serial.toNat ++ be 1 e.cart ++ labelField e.label ++ be4 e.block ++ be 1 e.lane ++ be 4 e.commitTime.toNat ++
      be 1 e.status.ctorIdx ++ be 1 e.runs.length ++
      (e.runs.map fun r => be 1 r.stream ++ be4 r.first ++ be4 r.last).flatten ++
      List.replicate (72 - 9 * e.runs.length) 0#8 := by
  rw [entryBytes, padded_runs (fun r => by simp [be4]) h8, ← List.append_assoc]

theorem labelField_length (l : List Byte) : (labelField l).length = 8 := by simp [labelField]

theorem entryBytes_length (e : CatEntry) : (entryBytes e).length = 96 := by
  simp [entryBytes, labelField_length, be4]

end Sys2Proof.Machine

namespace Sys2Proof.Proofs

open Sys2Proof Sys2Proof.Machine

/-- Settles O10: each layout of the model with its lists, options, masks and event kinds written out. -/
theorem sentBytes : Obligations.SentBytes := by
  unfold Obligations.SentBytes
  intro flag mask word list opt text place index span requesters target last kind source
  refine ⟨fun n h => be4_of_le h, fun cls tag subject payload => rfl, fun r g n => ⟨rfl, rfl, rfl⟩,
    fun e h8 => ⟨entryBytes_length e, entryBytes_eq h8⟩, ?stream, ?tables, ?timeUnit, ?figures, ?lane, ?loader,
    ?notices, ?plans, ?results, ?enumerated⟩
  case stream =>
    intro st
    refine ⟨rfl, ?_⟩
    simp only [bodyBytes, streamBytes, listBytes_eq, optBytes_eq]
    rfl
  case tables =>
    intro l p q held k n roles records es regions role cart
    refine ⟨listBytes_eq _ l, listBytes_congr (optBytes_eq 2 (be 2)) _, ?split, flatMap_vector_four roleBytes roles,
      listBytes_congr (optBytes_eq 26 cartBytes) records, ?entries, rfl, rfl⟩
    case split => simp only [bodyBytes, regionBytes, flatMap_vector_four, List.append_assoc, regions]
    case entries =>
      refine Eq.trans ?_ (congrArg (be 2 n ++ ·) (listBytes_eq entryBytes es))
      simp only [bodyBytes, listBytes, List.append_assoc]
  case timeUnit =>
    intro sets captures slots time acted taken m factor action
    have factors : ∀ x, factorBytes x = factor x := factorBytes_eq
    have actions : ∀ x, actionBytes x = action x := actionBytes_eq
    have sources : ∀ x, sourceBytes x = source x := sourceBytes_eq
    have kinds : ∀ x, captureKindByte x = kind x := captureKindByte_eq
    refine ⟨flatMap_congr (fun t => ?_) _, flatMap_congr (fun c => ?_) captures, flatMap_congr compareBytes_eq _,
      maskByte_eq m, ?fired, ?captured, ?linesAt, maskByte_eq m⟩
    · rw [triggerBytes_eq, factors, funext actions]; rfl
    · rw [sources]; rfl
    case fired => simp only [bodyBytes, listBytes_eq, maskByte_eq]; rfl
    case captured =>
      simp only [bodyBytes, listBytes_eq, captureBytes_eq, funext sources, funext kinds]
      rfl
    case linesAt => simp only [bodyBytes, maskByte_eq]; rfl
  case figures =>
    intro t pairs i c r x
    refine ⟨rfl, listBytes_eq _ pairs, rfl, ?verify, ?catalog, ?status⟩
    case verify => simp only [bodyBytes, verifyBytes, optBytes_eq]; rfl
    case catalog =>
      simp only [bodyBytes, catalogBytes, optBytes_eq, flatMap_vector_four, List.append_assoc]
      rfl
    case status =>
      simp only [bodyBytes, statusBytes, optBytes_eq, List.flatMap_def, List.append_assoc]
      rfl
  case lane =>
    intro r l g command
    simp only [bodyBytes, laneReportBytes, laneBytes, governorBytes, optBytes_eq, optIndex, funext commandBytes_eq,
      List.append_assoc]
    rfl
  case loader =>
    intro r d step
    simp only [bodyBytes, loaderBytes, optBytes_eq, listBytes_eq, optIndex, flatMap_vector_two, funext mountBytes_eq,
      List.append_assoc]
    rfl
  case notices =>
    intro cause i why x lastSeq spans lost aborted k n c label p code oc oldest next
    refine ⟨rfl, rfl, rfl, rfl, ?closed, rfl, rfl, ?fault, rfl, rfl, rfl⟩
    case closed => simp only [noticeFields, optBytes_eq, listBytes_eq]; rfl
    case fault => simp only [noticeFields, optBytes_eq, optIndex]; rfl
  case plans =>
    intro code ok os oc held k t tag step rs why missing unknown skipped failure
    simp only [noticeFields, failureBytes, requesterBytes, optBytes_eq, listBytes_eq, optIndex]
    exact ⟨rfl, rfl, rfl, rfl, rfl⟩
  case results =>
    intro n i st label o first lst l v w a b c d next tag code bad set k q t
      origin plain ended unmounted verified restored
    have origins : originBytes o = origin := by cases o <;> rfl
    have passes : verifyResultBytes v = verified := by cases v <;> rfl
    have restores : restoreResultBytes w = restored := by cases w <;> rfl
    have kinds : captureKindByte k = kind k := captureKindByte_eq k
    have lasts : lastBytes l = last l := by cases l <;> rfl
    refine ⟨?verify, ?restore, ?trigger⟩
    case verify => simp only [noticeFields, optBytes_eq, origins, passes, lasts]; rfl
    case restore => simp only [noticeFields, restores]
    case trigger => simp only [noticeFields, optBytes_eq, kinds]; rfl
  case enumerated =>
    exact ⟨rfl, rfl, rfl, rfl, rfl, rfl, rfl, rfl, rfl, rfl, rfl, rfl, rfl, rfl, rfl, rfl, rfl, rfl, rfl, rfl, rfl, rfl,
      rfl, rfl, rfl⟩

end Sys2Proof.Proofs
end

section
/-! PROOFS. Tape blocks: the record walk, the tests of a block read back, and the reading of a block as it was written
(R150, R191, R194). -/

namespace Sys2Proof.Machine

/-! ## Numbers by position -/

/-- The number of `w` bytes at place `k`. -/
def numberAt (l : List Byte) (k w : Nat) : Nat := ofBe ((l.drop k).take w)

theorem numberAt_append {p : List Byte} (rest : List Byte) {k w : Nat} (h : k + w ≤ p.length) :
    numberAt (p ++ rest) k w = numberAt p k w := by
  rw [numberAt, List.drop_append_of_le_length (by omega),
    List.take_append_of_le_length (by rw [List.length_drop]; omega), numberAt]

theorem numberAt_field {front : List Byte} (rest : List Byte) {k w n : Nat} (hk : front.length = k) (h : n < 256 ^ w) :
    numberAt (front ++ be w n ++ rest) k w = n := by
  rw [numberAt, field_at rest hk (be_length w n), ofBe_be h]

/-! ## One record of the walk (R150) -/

/-- The record that the bytes at the front of an area spell. -/
def headRecord (area : List Byte) : WalkedRecord :=
  { stream := numberAt area 0 1, method := numberAt area 1 1, rawLength := numberAt area 4 2,
    codedLength := numberAt area 6 2, seq := numberAt area 8 4, digest := BitVec.ofNat 32 (numberAt area 12 4),
    payload := (area.drop 16).take (numberAt area 6 2) }

/-- The bytes are those of the record: its header, and a payload of its coded length. -/
def SpellsRecord (p : List Byte) (r : WalkedRecord) : Prop :=
  p.length = 16 + r.codedLength ∧ r.codedLength ≤ 4096 ∧
    r = { stream := numberAt p 0 1, method := numberAt p 1 1, rawLength := numberAt p 4 2,
          codedLength := numberAt p 6 2, seq := numberAt p 8 4, digest := BitVec.ofNat 32 (numberAt p 12 4),
          payload := p.drop 16 }

/-- The bytes of a record at the front of an area are the area's head. -/
theorem spellsRecord_append_iff {p rest : List Byte} {r : WalkedRecord} (h : p.length = 16 + r.codedLength) :
    SpellsRecord p r ↔ r.codedLength ≤ 4096 ∧ r = headRecord (p ++ rest) := by
  have payload : p.length = 16 + numberAt p 6 2 → ((p ++ rest).drop 16).take (numberAt p 6 2) = p.drop 16 := fun e => by
    rw [List.drop_append_of_le_length (by omega)]
    exact List.take_left' (by rw [List.length_drop]; omega)
  simp only [SpellsRecord, headRecord, numberAt_append rest (show 0 + 1 ≤ p.length by omega),
    numberAt_append rest (show 1 + 1 ≤ p.length by omega), numberAt_append rest (show 4 + 2 ≤ p.length by omega),
    numberAt_append rest (show 6 + 2 ≤ p.length by omega), numberAt_append rest (show 8 + 4 ≤ p.length by omega),
    numberAt_append rest (show 12 + 4 ≤ p.length by omega)]
  constructor
  · rintro ⟨-, coded, e⟩
    have length : r.codedLength = numberAt p 6 2 := congrArg WalkedRecord.codedLength e
    exact ⟨coded, by rw [payload (length ▸ h)]; exact e⟩
  · rintro ⟨coded, e⟩
    have length : r.codedLength = numberAt p 6 2 := congrArg WalkedRecord.codedLength e
    exact ⟨h, coded, by rw [payload (length ▸ h)] at e; exact e⟩

/-! ## The record walk (R150) -/

/-- The sequences of a stream's records, in the order of the walk. -/
def seqsOf (i : Nat) (rs : List WalkedRecord) : List Nat :=
  (rs.filter fun r => decide (r.stream = i)).map WalkedRecord.seq

theorem seqsOf_cons_same (r : WalkedRecord) (rs : List WalkedRecord) :
    seqsOf r.stream (r :: rs) = r.seq :: seqsOf r.stream rs := by simp [seqsOf]

theorem seqsOf_cons_other {i : Nat} {r : WalkedRecord} (h : r.stream ≠ i) (rs : List WalkedRecord) :
    seqsOf i (r :: rs) = seqsOf i rs := by simp [seqsOf, h]

/-- Each number is one above the number before it. -/
def Consecutive (l : List Nat) : Prop := List.IsChain (fun p q : Nat => q = p + 1) l

/-- A listed stream has a record, in the walk or before it, and its sequences go on from the latest before the walk. -/
def StreamOk (last : List (Nat × Nat)) (rs : List WalkedRecord) (i : Nat) : Prop :=
  ((last.lookup i).isSome = true ∨ ∃ r ∈ rs, r.stream = i) ∧ Consecutive ((last.lookup i).toList ++ seqsOf i rs)

/-- The records stand one after another from the front of the area. -/
def Laid (area : List Byte) (rs : List WalkedRecord) : Prop :=
  ∃ parts : List (List Byte), parts.flatten <+: area ∧ List.Forall₂ SpellsRecord parts rs

theorem laid_nil (area : List Byte) : Laid area [] := ⟨[], ⟨area, rfl⟩, .nil⟩

theorem laid_cons_iff {area : List Byte} {r : WalkedRecord} {rs : List WalkedRecord} :
    Laid area (r :: rs) ↔ r = headRecord area ∧ r.codedLength ≤ 4096 ∧ 16 + r.codedLength ≤ area.length ∧
      Laid (area.drop (16 + r.codedLength)) rs := by
  constructor
  · rintro ⟨_, ⟨rest, rfl⟩, spelled⟩
    obtain ⟨p, parts, first, others, rfl⟩ := List.forall₂_cons_right_iff.1 spelled
    have length := first.1
    rw [List.flatten_cons, List.append_assoc]
    obtain ⟨coded, head⟩ := (spellsRecord_append_iff length).1 first
    refine ⟨head, coded, by rw [List.length_append]; omega, parts, ⟨rest, ?_⟩, others⟩
    exact (List.drop_left' length).symm
  · rintro ⟨head, coded, room, parts, fits, spelled⟩
    have length : (area.take (16 + r.codedLength)).length = 16 + r.codedLength := by rw [List.length_take]; omega
    have first : SpellsRecord (area.take (16 + r.codedLength)) r :=
      (spellsRecord_append_iff (rest := area.drop (16 + r.codedLength)) length).2
        ⟨coded, by rw [List.take_append_drop]; exact head⟩
    obtain ⟨rest, e⟩ := fits
    refine ⟨area.take (16 + r.codedLength) :: parts, ⟨rest, ?_⟩, .cons first spelled⟩
    rw [List.flatten_cons, List.append_assoc, e, List.take_append_drop]

/-- One record of the walk: it is the head of the area and of a listed stream, and follows the stream's latest. -/
theorem walkRecords_succ_iff {listed : List Nat} {k : Nat} {area : List Byte} {last : List (Nat × Nat)}
    {rs : List WalkedRecord} :
    walkRecords listed (k + 1) area last = some rs ↔
      ∃ r rest, rs = r :: rest ∧ r = headRecord area ∧ r.codedLength ≤ 4096 ∧ 16 + r.codedLength ≤ area.length ∧
        r.stream ∈ listed ∧ (∀ q, last.lookup r.stream = some q → r.seq = q + 1) ∧
        walkRecords listed k (area.drop (16 + r.codedLength)) ((r.stream, r.seq) :: last) = some rest := by
  rw [walkRecords]
  constructor
  · intro walk
    split_ifs at walk with bounds follows
    obtain ⟨rest, others, rfl⟩ := Option.map_eq_some_iff.1 walk
    simp only [not_or, not_lt, not_not] at bounds
    obtain ⟨-, coded, room, mem⟩ := bounds
    refine ⟨headRecord area, rest, rfl, rfl, coded, room, mem, fun q hq => ?_, others⟩
    change last.lookup (ofBe (area.take 1)) = some q at hq
    rw [hq, decide_eq_true_eq, not_not] at follows
    exact follows
  · rintro ⟨r, rest, rfl, rfl, coded, room, mem, follows, walk⟩
    have bounds : ¬ (area.length < 16 ∨ 4096 < ofBe ((area.drop 6).take 2) ∨
        area.length < 16 + ofBe ((area.drop 6).take 2) ∨ ofBe (area.take 1) ∉ listed) := by
      simp only [not_or, not_lt, not_not]
      exact ⟨by omega, coded, room, mem⟩
    rw [if_neg bounds, if_neg]
    · exact Option.map_eq_some_iff.2 ⟨rest, walk, rfl⟩
    · cases latest : last.lookup (ofBe (area.take 1)) with
      | none => exact Bool.false_ne_true
      | some q =>
        rw [decide_eq_true_eq, not_not]
        exact follows q latest

/-- A further record keeps the listed streams in order exactly when it follows the latest of its own. -/
theorem streamOk_cons_iff {listed : List Nat} {last : List (Nat × Nat)} {r : WalkedRecord} {rs : List WalkedRecord}
    (h : r.stream ∈ listed) :
    (∀ i ∈ listed, StreamOk last (r :: rs) i) ↔
      (∀ q, last.lookup r.stream = some q → r.seq = q + 1) ∧
        ∀ i ∈ listed, StreamOk ((r.stream, r.seq) :: last) rs i := by
  have own : StreamOk last (r :: rs) r.stream ↔
      (∀ q, last.lookup r.stream = some q → r.seq = q + 1) ∧ StreamOk ((r.stream, r.seq) :: last) rs r.stream := by
    rw [StreamOk, StreamOk, seqsOf_cons_same, List.lookup_cons_self]
    cases last.lookup r.stream <;> simp [Consecutive]
  have other : ∀ i, i ≠ r.stream → (StreamOk last (r :: rs) i ↔ StreamOk ((r.stream, r.seq) :: last) rs i) := by
    intro i hi
    have latest : ((r.stream, r.seq) :: last).lookup i = last.lookup i := by
      rw [List.lookup_cons, beq_false_of_ne hi]
    rw [StreamOk, StreamOk, seqsOf_cons_other hi.symm, latest]
    simp [hi.symm]
  constructor
  · intro all
    obtain ⟨follows, _⟩ := own.1 (all _ h)
    refine ⟨follows, fun i hi => ?_⟩
    by_cases e : i = r.stream
    · subst e; exact (own.1 (all _ h)).2
    · exact (other i e).1 (all i hi)
  · rintro ⟨follows, all⟩ i hi
    by_cases e : i = r.stream
    · subst e; exact own.2 ⟨follows, all _ h⟩
    · exact (other i e).2 (all i hi)

/-- The walk over `k` records succeeds exactly with `k` records laid out in the area, of listed streams, each stream's
in order and none missing. -/
theorem walkRecords_eq_some_iff {listed : List Nat} {k : Nat} {area : List Byte} {last : List (Nat × Nat)}
    {rs : List WalkedRecord} :
    walkRecords listed k area last = some rs ↔
      rs.length = k ∧ Laid area rs ∧ (∀ r ∈ rs, r.stream ∈ listed) ∧ ∀ i ∈ listed, StreamOk last rs i := by
  induction k generalizing area last rs with
  | zero =>
    have met : walkRecords listed 0 area last = some rs ↔
        (∀ i ∈ listed, (last.lookup i).isSome = true) ∧ rs = [] := by
      simp only [walkRecords, List.all_eq_true, Option.ite_none_right_eq_some, Option.some_inj, eq_comm (a := rs)]
    rw [met, List.length_eq_zero_iff]
    constructor
    · rintro ⟨all, rfl⟩
      refine ⟨rfl, laid_nil area, List.forall_mem_nil _, fun i hi => ⟨.inl (all i hi), ?_⟩⟩
      cases last.lookup i <;> simp [seqsOf, Consecutive]
    · rintro ⟨rfl, -, -, ok⟩
      exact ⟨fun i hi => (ok i hi).1.resolve_right (by simp), rfl⟩
  | succ k ih =>
    rw [walkRecords_succ_iff]
    constructor
    · rintro ⟨r, rest, rfl, head, coded, room, mem, follows, walk⟩
      obtain ⟨length, laid, streams, ok⟩ := ih.1 walk
      exact ⟨congrArg (· + 1) length, laid_cons_iff.2 ⟨head, coded, room, laid⟩, List.forall_mem_cons.2 ⟨mem, streams⟩,
        (streamOk_cons_iff mem).2 ⟨follows, ok⟩⟩
    · rintro ⟨length, laid, streams, ok⟩
      cases rs with
      | nil => cases length
      | cons r rest =>
        obtain ⟨head, coded, room, laid⟩ := laid_cons_iff.1 laid
        obtain ⟨mem, streams⟩ := List.forall_mem_cons.1 streams
        obtain ⟨follows, ok⟩ := (streamOk_cons_iff mem).1 ok
        exact ⟨r, rest, rfl, head, coded, room, mem, follows, ih.2 ⟨Nat.succ.inj length, laid, streams, ok⟩⟩

/-! ## The tests of a block (R150) -/

/-- The streams listed in a block's header. -/
def listedStreams (block : List Byte) : List Nat := ((block.drop 20).take (numberAt block 17 1)).map BitVec.toNat

/-- The header's tests: 1 to 8 runs of distinct streams of at most 31, and at least one record. -/
structure HeaderOk (block : List Byte) : Prop where
  some_run : 1 ≤ numberAt block 17 1
  runs : numberAt block 17 1 ≤ 8
  distinct : (listedStreams block).Nodup
  streams : ∀ i ∈ listedStreams block, i ≤ 31
  some_record : numberAt block 18 2 ≠ 0

/-- What the record walk takes: the header's tests, and the records from byte 32 on. -/
def Walks (block : List Byte) (rs : List WalkedRecord) : Prop :=
  1 ≤ numberAt block 17 1 ∧ numberAt block 17 1 ≤ 8 ∧ (listedStreams block).Nodup ∧
    (∀ i ∈ listedStreams block, i ≤ 31) ∧ 1 ≤ rs.length ∧ rs.length = numberAt block 18 2 ∧ Laid (block.drop 32) rs ∧
    (∀ r ∈ rs, r.stream ∈ listedStreams block) ∧
    ∀ i ∈ listedStreams block, (∃ r ∈ rs, r.stream = i) ∧ Consecutive (seqsOf i rs)

theorem streamOk_nil_iff {rs : List WalkedRecord} {i : Nat} :
    StreamOk [] rs i ↔ (∃ r ∈ rs, r.stream = i) ∧ Consecutive (seqsOf i rs) := by
  simp [StreamOk]

/-- The walk reads at most 8 of the listed streams, which the header's tests make all of them. -/
theorem listed_of_runs {block : List Byte} (h : numberAt block 17 1 ≤ 8) :
    ((block.drop 20).take (min (ofBe ((block.drop 17).take 1)) 8)).map BitVec.toNat = listedStreams block := by
  rw [Nat.min_eq_left (show ofBe ((block.drop 17).take 1) ≤ 8 from h)]
  rfl

theorem walkBlock_of_header {block : List Byte} (h : HeaderOk block) :
    walkBlock block = walkRecords (listedStreams block) (numberAt block 18 2) (block.drop 32) [] := by
  rw [walkBlock, listed_of_runs h.runs]
  refine if_neg ?_
  simp only [not_or, not_lt, not_not, List.any_eq_true, decide_eq_true_eq, not_exists, not_and]
  exact ⟨h.some_run, h.runs, h.distinct, h.streams, h.some_record⟩

theorem walkBlock_of_not_header {block : List Byte} (h : ¬ HeaderOk block) : walkBlock block = none := by
  rw [walkBlock]
  refine if_pos (by_contra fun ok => h ?_)
  simp only [not_or, not_lt, not_not, List.any_eq_true, decide_eq_true_eq, not_exists, not_and] at ok
  obtain ⟨someRun, runs, distinct, streams, someRecord⟩ := ok
  rw [listed_of_runs runs] at distinct streams
  exact ⟨someRun, runs, distinct, streams, someRecord⟩

theorem Walks.header {block : List Byte} {rs : List WalkedRecord} (h : Walks block rs) : HeaderOk block := by
  obtain ⟨someRun, runs, distinct, streams, someRecord, count, -⟩ := h
  exact ⟨someRun, runs, distinct, streams, by omega⟩

theorem walkBlock_eq_some_iff {block : List Byte} {rs : List WalkedRecord} :
    walkBlock block = some rs ↔ Walks block rs := by
  by_cases header : HeaderOk block
  · rw [walkBlock_of_header header, walkRecords_eq_some_iff]
    simp only [streamOk_nil_iff]
    constructor
    · rintro ⟨count, laid, known, ok⟩
      have someRecord := header.some_record
      exact ⟨header.some_run, header.runs, header.distinct, header.streams, by omega, count, laid, known, ok⟩
    · rintro ⟨-, -, -, -, -, rest⟩
      exact rest
  · rw [walkBlock_of_not_header header]
    exact ⟨fun e => (nomatch e), fun walks => absurd walks.header header⟩

theorem testBlock_check {block label : List Byte} {number : Nat}
    (h : blockCheck block ≠ BitVec.ofNat 32 (numberAt block 12 4)) :
    testBlock (some block) label number = .error .check := by
  rw [testBlock]
  exact if_pos h

theorem testBlock_header {block label : List Byte} {number : Nat}
    (h : blockCheck block = BitVec.ofNat 32 (numberAt block 12 4))
    (named : ¬ (block.take 8 = labelBytes label ∧ numberAt block 8 4 = number)) :
    testBlock (some block) label number = .error .header := by
  rw [testBlock]
  exact (if_neg (not_not.2 h)).trans (if_pos (not_and_or.1 named))

theorem testBlock_walk {block label : List Byte} {number : Nat}
    (h : blockCheck block = BitVec.ofNat 32 (numberAt block 12 4))
    (named : block.take 8 = labelBytes label ∧ numberAt block 8 4 = number) :
    testBlock (some block) label number = (walkBlock block).elim (.error .layout) .ok := by
  rw [testBlock]
  refine (if_neg (not_not.2 h)).trans ((if_neg fun e => not_and_or.2 e named).trans ?_)
  cases walkBlock block <;> rfl

theorem labelBytes_of_length {label : List Byte} (h : label.length = 8) : labelBytes label = label :=
  List.take_left' h

/-! ## A block as it is written (R194) -/

/-- A record as the walk gives it. -/
def Record.walked (r : Record) : WalkedRecord :=
  { stream := r.stream, method := r.method.code, rawLength := r.rawLength, codedLength := r.payload.length,
    seq := r.seq, digest := r.digest, payload := r.payload }

theorem method_code_lt (m : Method) : m.code < 256 := by cases m <;> decide

theorem recordBytes_length (r : Record) : (recordBytes r).length = r.size := by
  simp only [recordBytes, List.length_append, be_length, Record.size]

theorem spellsRecord_recordBytes {r : Record} (coded : r.payload.length ≤ 4096) (raw : r.rawLength < 65536)
    (seq : r.seq < 4294967296) : SpellsRecord (recordBytes r) r.walked := by
  have stream : r.stream.val < 256 := r.stream.isLt.trans (by decide)
  refine ⟨recordBytes_length r, coded, ?_⟩
  have h0 : numberAt (recordBytes r) 0 1 = r.stream := ofBe_be (k := 1) stream
  have h1 : numberAt (recordBytes r) 1 1 = r.method.code := ofBe_be (k := 1) (method_code_lt _)
  have h4 : numberAt (recordBytes r) 4 2 = r.rawLength := ofBe_be (k := 2) raw
  have h6 : numberAt (recordBytes r) 6 2 = r.payload.length := ofBe_be (k := 2) (coded.trans_lt (by decide))
  have h8 : numberAt (recordBytes r) 8 4 = r.seq := ofBe_be (k := 4) seq
  have h12 : numberAt (recordBytes r) 12 4 = r.digest.toNat := ofBe_be_word r.digest
  rw [h0, h1, h4, h6, h8, h12, BitVec.ofNat_toNat, BitVec.setWidth_eq]
  rfl

theorem recordArea_length (records : List Record) : (recordArea records).length = 65504 := by
  rw [recordArea, List.length_take, List.length_append, List.length_replicate]
  exact Nat.min_eq_left (Nat.le_add_left _ _)

/-- Records that fit a block stand in its area as they are. -/
theorem records_at_front_of_area {records : List Record} (h : (records.map Record.size).sum ≤ 65504) :
    (records.map recordBytes).flatten <+: recordArea records := by
  have length : (records.flatMap recordBytes).length = (records.map Record.size).sum := by
    rw [List.length_flatMap, List.map_congr_left fun r _ => recordBytes_length r]
  rw [recordArea, ← List.flatMap_def, List.take_append, List.take_of_length_le (by rw [length]; exact h)]
  exact ⟨_, rfl⟩

/-- Records within their limits stand one after another in their area. -/
theorem laid_recordArea {records : List Record} (sizes : (records.map Record.size).sum ≤ 65504)
    (fit : ∀ r ∈ records, r.payload.length ≤ 4096 ∧ r.rawLength < 65536 ∧ r.seq < 4294967296) :
    Laid (recordArea records) (records.map Record.walked) := by
  refine ⟨records.map recordBytes, records_at_front_of_area sizes, ?_⟩
  rw [List.forall₂_map_left_iff, List.forall₂_map_right_iff, List.forall₂_same]
  intro r hr
  obtain ⟨coded, raw, seq⟩ := fit r hr
  exact spellsRecord_recordBytes coded raw seq

/-- The bytes of a block before its check. -/
def blockFront (label : List Byte) (number : Nat) : List Byte := label ++ be 4 number

/-- The streams of a block's runs, in 8 bytes. -/
def runField (runs : List Run) : List Byte :=
  ((runs.map fun r => BitVec.ofNat 8 r.stream) ++ List.replicate 8 255#8).take 8

/-- The bytes of a block behind its check. -/
def blockBack (lane : LaneId) (b : SealedBlock) : List Byte :=
  be 1 lane ++ be 1 b.runs.length ++ be 2 b.records.length ++ runField b.runs ++ be 4 0 ++ recordArea b.records

section Image

variable {label : List Byte} (number : Nat) (lane : LaneId) (b : SealedBlock)

theorem blockHeader_eq (h : label.length = 8) (check : Nat) :
    blockHeader label number check lane b.runs b.records.length ++ recordArea b.records =
      blockFront label number ++ be 4 check ++ blockBack lane b := by
  simp only [blockHeader, labelBytes_of_length h, blockFront, blockBack, runField, List.append_assoc]

theorem blockFront_length (h : label.length = 8) : (blockFront label number).length = 12 := by
  rw [blockFront, List.length_append, h, be_length]

/-- The block check does not depend on the four bytes that hold it. -/
theorem blockCheck_eq (h : label.length = 8) (check : Nat) (back : List Byte) :
    blockCheck (blockFront label number ++ be 4 check ++ back) =
      crc32 (blockFront label number ++ List.replicate 4 0#8 ++ back) := by
  have front := blockFront_length number h
  have before : (blockFront label number ++ be 4 check ++ back).take 12 = blockFront label number := by
    rw [List.append_assoc, List.take_left' front]
  have behind : (blockFront label number ++ be 4 check ++ back).drop 16 = back :=
    List.drop_left' (by rw [List.length_append, front, be_length])
  rw [blockCheck, before, behind]

/-- The check that a written block holds. -/
def sealedCheck (label : List Byte) (number : Nat) (lane : LaneId) (b : SealedBlock) : Word32 :=
  crc32 (blockFront label number ++ List.replicate 4 0#8 ++ blockBack lane b)

theorem blockImage_eq (h : label.length = 8) : blockImage label number lane b =
    blockFront label number ++ be 4 (sealedCheck label number lane b).toNat ++ blockBack lane b := by
  rw [blockImage, blockHeader_eq number lane b h, blockHeader_eq number lane b h, blockCheck_eq number h, sealedCheck]

theorem runField_length (runs : List Run) : (runField runs).length = 8 := by simp [runField]

theorem blockBack_length : (blockBack lane b).length = 65520 := by
  simp only [blockBack, List.length_append, be_length, runField_length, recordArea_length]

theorem blockImage_length (h : label.length = 8) : (blockImage label number lane b).length = 65536 := by
  rw [blockImage_eq number lane b h, List.length_append, List.length_append, blockFront_length number h, be_length,
    blockBack_length]

/-! The fields of a block read back. -/

theorem blockImage_check (h : label.length = 8) :
    blockCheck (blockImage label number lane b) = BitVec.ofNat 32 (numberAt (blockImage label number lane b) 12 4) := by
  rw [blockImage_eq number lane b h, blockCheck_eq number h,
    numberAt_field _ (blockFront_length number h) (BitVec.isLt _), BitVec.ofNat_toNat, BitVec.setWidth_eq, sealedCheck]

theorem blockImage_label (h : label.length = 8) : (blockImage label number lane b).take 8 = label := by
  rw [blockImage_eq number lane b h, blockFront]
  simp only [List.append_assoc]
  exact List.take_left' h

theorem blockImage_number (h : label.length = 8) (hn : number < 4294967296) :
    numberAt (blockImage label number lane b) 8 4 = number := by
  rw [blockImage_eq number lane b h, blockFront, List.append_assoc (label ++ _)]
  exact numberAt_field _ h hn

/-- A block from its byte 16 on is its lane and what follows. -/
theorem blockImage_drop (h : label.length = 8) (k : Nat) :
    (blockImage label number lane b).drop (16 + k) = (blockBack lane b).drop k := by
  rw [blockImage_eq number lane b h, ← List.drop_drop,
    List.drop_left' (by rw [List.length_append, blockFront_length number h, be_length])]

theorem numberAt_blockImage (h : label.length = 8) (k w : Nat) :
    numberAt (blockImage label number lane b) (16 + k) w = numberAt (blockBack lane b) k w := by
  rw [numberAt, blockImage_drop number lane b h, numberAt]

theorem blockImage_runs (h : label.length = 8) (hr : b.runs.length ≤ 8) :
    numberAt (blockImage label number lane b) 17 1 = b.runs.length :=
  (numberAt_blockImage number lane b h 1 1).trans (ofBe_be (k := 1) (hr.trans_lt (by decide)))

theorem blockImage_records (h : label.length = 8) (hr : b.records.length ≤ 4094) :
    numberAt (blockImage label number lane b) 18 2 = b.records.length :=
  (numberAt_blockImage number lane b h 2 2).trans (ofBe_be (k := 2) (hr.trans_lt (by decide)))

theorem blockImage_area (h : label.length = 8) : (blockImage label number lane b).drop 32 = recordArea b.records := by
  refine (blockImage_drop number lane b h 16).trans (List.drop_left' ?_)
  simp only [List.length_append, be_length, runField_length]

theorem blockImage_listed (h : label.length = 8) (hr : b.runs.length ≤ 8) :
    listedStreams (blockImage label number lane b) = b.runs.map fun x => x.stream.val := by
  have field : (blockBack lane b).drop 4 = runField b.runs ++ (be 4 0 ++ recordArea b.records) := by
    simp only [blockBack, List.append_assoc]
    rfl
  have streams : (runField b.runs).take b.runs.length = b.runs.map fun r => BitVec.ofNat 8 r.stream := by
    rw [runField, List.take_take, Nat.min_eq_left hr]
    exact List.take_left' (List.length_map _)
  have drop := blockImage_drop number lane b h 4
  rw [listedStreams, blockImage_runs number lane b h hr, drop, field,
    List.take_append_of_le_length (by rw [runField_length]; exact hr), streams, List.map_map]
  refine List.map_congr_left fun x _ => ?_
  have stream : x.stream.val < 256 := x.stream.isLt.trans (by decide)
  exact Nat.mod_eq_of_lt stream

end Image

/-- The sequences of a stream's records are read back in order. -/
theorem seqsOf_walked (records : List Record) (i : StreamId) :
    seqsOf i (records.map Record.walked) = (records.filter fun r => decide (r.stream = i)).map Record.seq := by
  rw [seqsOf, List.filter_map, List.map_map]
  refine congrArg₂ List.map rfl (List.filter_congr fun r _ => ?_)
  exact decide_eq_decide.2 Fin.val_inj

end Sys2Proof.Machine

namespace Sys2Proof.Proofs

open Sys2Proof Sys2Proof.Machine

/-- Settles O33: a block as it is written passes the header's tests and its records stand in the area; the tests are
made in order, and the walk is `walkBlock_eq_some_iff`. -/
theorem blocksReadBack : Obligations.BlocksReadBack := by
  constructor
  · intro label number lane b hl hn some_record count sizes some_run runs distinct fit every chained
    have listed := blockImage_listed number lane b hl runs
    have walks : Walks (blockImage label number lane b) (b.records.map Record.walked) := by
      rw [Walks, listed, blockImage_runs number lane b hl runs, blockImage_records number lane b hl count,
        blockImage_area number lane b hl, List.length_map]
      refine ⟨some_run, runs, ?distinct, ?streams, List.length_pos_of_ne_nil some_record, rfl, ?laid, ?known, ?ordered⟩
      case distinct =>
        have values := distinct.map Fin.val_injective
        rwa [List.map_map] at values
      case streams =>
        rw [List.forall_mem_map]
        exact fun x _ => Nat.le_of_lt_succ x.stream.isLt
      case laid =>
        refine laid_recordArea sizes fun r hr => ?_
        obtain ⟨coded, raw, seq, -⟩ := fit r hr
        exact ⟨coded, raw, seq⟩
      case known =>
        rw [List.forall_mem_map]
        intro r hr
        obtain ⟨-, -, -, mem⟩ := fit r hr
        obtain ⟨x, hx, e⟩ := List.mem_map.1 mem
        exact List.mem_map.2 ⟨x, hx, congrArg Fin.val e⟩
      case ordered =>
        rw [List.forall_mem_map]
        intro x hx
        obtain ⟨r, hr, e⟩ := every x hx
        refine ⟨⟨_, List.mem_map_of_mem hr, congrArg Fin.val e⟩, ?_⟩
        rw [seqsOf_walked]
        exact chained x.stream
    refine ⟨blockImage_length number lane b hl, ?_⟩
    rw [testBlock_walk (blockImage_check number lane b hl)
      ⟨(blockImage_label number lane b hl).trans (labelBytes_of_length hl).symm, blockImage_number number lane b hl hn⟩,
      walkBlock_eq_some_iff.2 walks]
    rfl
  · intro block label number hl numberAt checked named runs listed walks
    have label_iff : named ↔ block.take 8 = labelBytes label ∧ Machine.numberAt block 8 4 = number := by
      rw [labelBytes_of_length hl]
      exact Iff.rfl
    refine ⟨rfl, testBlock_check, fun good other => testBlock_header good (mt label_iff.2 other), fun good same => ?_⟩
    rw [testBlock_walk good (label_iff.1 same)]
    refine ⟨fun rs taken => ?_, fun refused => ?_⟩
    · rw [walkBlock_eq_some_iff.2 taken]
      rfl
    · cases found : walkBlock block with
      | none => rfl
      | some rs => exact absurd (walkBlock_eq_some_iff.1 found) (refused rs)

end Sys2Proof.Proofs
end
